-- ==== Sys2Proof/Word.lean ====
section
/-! DEFINITION. Word.lean: the 36-bit word of the Sahica block and the widths of its other plain values
(R3, R59, R61, R87, R117, R296). -/

namespace Sys2Proof

/-- A 36-bit word (R59). -/
abbrev Word := BitVec 36

/-- A doubleword: the word at the lower address is bits [35:0] (R3). -/
abbrev DWord := BitVec 72

/-- An accumulator (R61). -/
abbrev Acc := BitVec 80

/-- A syllable address (R87). -/
abbrev SylAddr := BitVec 34

/-- A virtual word address (R117). -/
abbrev VAddr := BitVec 32

/-- A logical cell number (R20). -/
abbrev CellId := BitVec 8

/-- A cluster number (R20). -/
abbrev ClusterId := BitVec 4

/-- A scheduler level (R271). -/
abbrev LevelId := BitVec 3

end Sys2Proof
end

