-- ==== Sys2Proof/Syntax.lean ====
section
/-! DEFINITION. Syntax.lean: the commands of the block, one constructor of `Instr` for each row of the opcode
table. A cell instruction carries the logical cell that executes it, its prefixes and extension syllables
(R94) and the selectors its opcode syllable holds (R93); an event carries what the event brings from outside. -/

namespace Sys2Proof

/-- The guard prefix (R90, R101). -/
inductive Guard where
  | always
  | ifSet (p : BitVec 3)
  | ifClear (p : BitVec 3)
deriving DecidableEq, Repr

/-- The repeat prefix (R90, R103, R105). -/
inductive Repeat where
  | once
  | rep
  | repn
deriving DecidableEq, Repr

/-- The prefixes and the extension syllables of one instruction (R94). -/
structure Enc where
  guard : Guard
  rept : Repeat
  wide : Bool
  sat : Bool
  ext : List (BitVec 6)
deriving DecidableEq, Repr

/-- The addressing modes of R159, with their pointer or capability selector. -/
inductive AddrMode where
  | tos (n : BitVec 2)
  | ptr (n : BitVec 2)
  | postInc (n : BitVec 2)
  | preDec (n : BitVec 2)
  | indexed (s n : BitVec 2)
  | disp (n : BitVec 2)
deriving DecidableEq, Repr

/-- Who makes an access to block control space (R557). -/
inductive Master where
  | debug
  | slave
  | cell (c : CellId)
deriving DecidableEq, Repr

/-- A synchronous fault found outside the executed instruction's own meaning, with its INFO and the virtual address,
microaddress or dispatch index that it concerns (R253-R255), or the oldest held asynchronous fault (R257). -/
inductive FaultReq where
  | sync (code : BitVec 4) (info : BitVec 8) (va : VAddr)
  | held
deriving DecidableEq, Repr

/-- A received CAN frame (R416, R420, R423). -/
structure CanFrame where
  ide : Bool
  fdf : Bool
  brs : Bool
  rtr : Bool
  esi : Bool
  dlc : BitVec 4
  id : BitVec 29
  /-- frame time of the start-of-frame edge, in 2^-8 ns (R333, R423) -/
  stamp : BitVec 72
  data : List (BitVec 8)
deriving DecidableEq, Repr

/-- How a transmitted frame ends (R427). -/
inductive TxEnd where
  | sent
  | lostArbitration
  | error
deriving DecidableEq, Repr

/-- A memory that a scrubber walks (R320): of a cell's slot, of a cluster, or of a unit. -/
inductive ScrubMem where
  | store (k : ClusterId) (slot : BitVec 5)
  | storeTags (k : ClusterId) (slot : BitVec 5)
  | control (k : ClusterId) (slot : BitVec 5)
  | dispatch (k : ClusterId) (slot : BitVec 5)
  | icache (k : ClusterId) (slot : BitVec 5)
  | dcache (k : ClusterId) (slot : BitVec 5)
  | cluster (k : ClusterId)
  | clusterTags (k : ClusterId)
  | image
  | queues
  | firn
  | regions
  | verifier
deriving DecidableEq, Repr

/-- What a scrub read finds (R320). -/
inductive ScrubSeen where
  | clean
  | single
  | double
  | tagsDiffer
deriving DecidableEq, Repr

/-- What Firn takes from the flash device's SFDP and BFPT (R439, R440). -/
structure FlashParams where
  /-- density in Mbit -/
  mbit : Nat
  pageBytes : Nat
  erase64k : Bool
  fourByte : Bool
  /-- the 1-1-4 and 1-4-4 fast reads where they are advertised: instruction and dummy clocks -/
  quad114 : Option (BitVec 8 × Nat)
  quad144 : Option (BitVec 8 × Nat)
  /-- typical page-program time, in 10 ns, and the multiplier that makes it the maximum -/
  typPP : Nat
  mult : Nat
  /-- 64 KiB erase: instruction, and maximum time in 10 ns -/
  eraseOp : BitVec 8
  tErase : Nat
  /-- where suspend is advertised: the suspend and resume instructions, and the latency in 10 ns -/
  suspend : Option (BitVec 8 × BitVec 8 × Nat)
deriving DecidableEq, Repr

/-- One record copy of the record store (R443): the page of its block at which it starts, and its words as flash holds them, from
the header on, with the zero word that completes an odd number (R442). -/
structure FlashRec where
  page : Nat
  words : List Word
deriving DecidableEq, Repr

/-- One log block of the record store (R441, R443, R452). -/
structure FlashBlock where
  number : Nat
  /-- the words of page 0, where the BLOCK record lies -/
  header : List Word
  erases : Nat
  /-- pages already programmed, the header page included -/
  used : Nat
  /-- erased, and nothing programmed since -/
  blank : Bool
  recs : List FlashRec
deriving DecidableEq, Repr

/-- One entry of one block of the repair area: its two words (R491). -/
structure RepairEntry where
  word : Word
  crc : Word
deriving DecidableEq, Repr

/-- A slot of the hot area that is not blank (R441, R451): its number, 0 to 49, 25 to a block, and its words as flash holds them. -/
structure HotSlot where
  slot : Nat
  words : List Word
deriving DecidableEq, Repr

/-- What Thaw phase 1 finds on the flash device (R439, R440, R451, R491, R501): blocks 2 and 3 of the repair area entry by
entry, the slots of the hot area that are not blank, the log blocks that are not fresh from the factory. -/
structure FlashImage where
  params : Option FlashParams
  repair2 : List RepairEntry
  repair3 : List RepairEntry
  hot : List HotSlot
  blocks : List FlashBlock
deriving DecidableEq, Repr

/-- A macro class and instance (R491). -/
structure MacroId where
  cls : BitVec 5
  inst : BitVec 9
deriving DecidableEq, Repr

/-- What is warm reset (R551). -/
inductive WarmTarget where
  | cell (c : CellId)
  | cluster (k : ClusterId)
deriving DecidableEq, Repr

/-- The cause of a block reset (R551). -/
inductive ResetCause where
  | powerGood
  | drst
deriving DecidableEq, Repr

inductive Instr where
  -- stack and literals (04 R99, 05 R132)
  | lit (c : CellId) (x : Enc) (short : BitVec 6)
  | nop (c : CellId) (x : Enc)
  | drop (c : CellId) (x : Enc)
  | dup (c : CellId) (x : Enc)
  | swap (c : CellId) (x : Enc)
  | over (c : CellId) (x : Enc)
  | rot (c : CellId) (x : Enc)
  | nip (c : CellId) (x : Enc)
  | tuck (c : CellId) (x : Enc)
  | pick (c : CellId) (x : Enc)
  -- integer arithmetic and logic (05 R134)
  | add (c : CellId) (x : Enc)
  | sub (c : CellId) (x : Enc)
  | addu (c : CellId) (x : Enc)
  | subu (c : CellId) (x : Enc)
  | neg (c : CellId) (x : Enc)
  | abs (c : CellId) (x : Enc)
  | min (c : CellId) (x : Enc)
  | max (c : CellId) (x : Enc)
  | minu (c : CellId) (x : Enc)
  | maxu (c : CellId) (x : Enc)
  | and (c : CellId) (x : Enc)
  | or (c : CellId) (x : Enc)
  | xor (c : CellId) (x : Enc)
  | not (c : CellId) (x : Enc)
  | andn (c : CellId) (x : Enc)
  -- shifts and bit fields (05 R135-R137)
  | shl (c : CellId) (x : Enc)
  | shr (c : CellId) (x : Enc)
  | sar (c : CellId) (x : Enc)
  | rol (c : CellId) (x : Enc)
  | ins (c : CellId) (x : Enc)
  | ext (c : CellId) (x : Enc)
  | exts (c : CellId) (x : Enc)
  | clz (c : CellId) (x : Enc)
  | popc (c : CellId) (x : Enc)
  | nperm (c : CellId) (x : Enc)
  -- comparisons and predicates (05 R138)
  | ceq (c : CellId) (x : Enc) (p : BitVec 3)
  | clt (c : CellId) (x : Enc) (p : BitVec 3)
  | cltu (c : CellId) (x : Enc) (p : BitVec 3)
  | pget (c : CellId) (x : Enc) (p : BitVec 3)
  | pset (c : CellId) (x : Enc) (p : BitVec 3)
  | pand (c : CellId) (x : Enc) (p : BitVec 3)
  | por (c : CellId) (x : Enc) (p : BitVec 3)
  -- multiply and accumulate (05 R139-R142)
  | mul (c : CellId) (x : Enc)
  | mulh (c : CellId) (x : Enc)
  | mulhu (c : CellId) (x : Enc)
  | mac0 (c : CellId) (x : Enc)
  | mac1 (c : CellId) (x : Enc)
  | msu0 (c : CellId) (x : Enc)
  | msu1 (c : CellId) (x : Enc)
  | accclr0 (c : CellId) (x : Enc)
  | accclr1 (c : CellId) (x : Enc)
  | accrd0 (c : CellId) (x : Enc)
  | accrd1 (c : CellId) (x : Enc)
  | fmul (c : CellId) (x : Enc)
  | div (c : CellId) (x : Enc)
  | divu (c : CellId) (x : Enc)
  | mod (c : CellId) (x : Enc)
  | sqrt (c : CellId) (x : Enc)
  -- point logic (05 R143)
  | band (c : CellId) (x : Enc)
  | bor (c : CellId) (x : Enc)
  | bxor (c : CellId) (x : Enc)
  | bnot (c : CellId) (x : Enc)
  | bands (c : CellId) (x : Enc)
  | bors (c : CellId) (x : Enc)
  | bxors (c : CellId) (x : Enc)
  | bnots (c : CellId) (x : Enc)
  | rise (c : CellId) (x : Enc)
  | fall (c : CellId) (x : Enc)
  | setp (c : CellId) (x : Enc)
  | rstp (c : CellId) (x : Enc)
  -- point arithmetic (05 R145-R149)
  | paddI (c : CellId) (x : Enc)
  | psubI (c : CellId) (x : Enc)
  | pmulI (c : CellId) (x : Enc)
  | pdivI (c : CellId) (x : Enc)
  | pnegI (c : CellId) (x : Enc)
  | paddF (c : CellId) (x : Enc)
  | psubF (c : CellId) (x : Enc)
  | pmulF (c : CellId) (x : Enc)
  | pdivF (c : CellId) (x : Enc)
  | pnegF (c : CellId) (x : Enc)
  | pcvtif (c : CellId) (x : Enc)
  | pcvtfi (c : CellId) (x : Enc)
  | pqmrg (c : CellId) (x : Enc)
  | pceqI (c : CellId) (x : Enc) (p : BitVec 3)
  | pcltI (c : CellId) (x : Enc) (p : BitVec 3)
  | pceqF (c : CellId) (x : Enc) (p : BitVec 3)
  | pcltF (c : CellId) (x : Enc) (p : BitVec 3)
  | qgd (c : CellId) (x : Enc) (p : BitVec 3)
  | qiv (c : CellId) (x : Enc) (p : BitVec 3)
  | qts (c : CellId) (x : Enc) (p : BitVec 3)
  | qsb (c : CellId) (x : Enc) (p : BitVec 3)
  | bqg (c : CellId) (x : Enc) (p : BitVec 3)
  | bqt (c : CellId) (x : Enc) (p : BitVec 3)
  -- function blocks (05 R150-R156)
  | ton (c : CellId) (x : Enc) (a : BitVec 2)
  | tof (c : CellId) (x : Enc) (a : BitVec 2)
  | ctu (c : CellId) (x : Enc) (a : BitVec 2)
  | sdft (c : CellId) (x : Enc) (a : BitVec 2)
  -- loads and stores (06 R159-R164)
  | ld (c : CellId) (x : Enc) (m : AddrMode)
  | st (c : CellId) (x : Enc) (m : AddrMode)
  | ldn (c : CellId) (x : Enc) (m : AddrMode)
  | stn (c : CellId) (x : Enc) (m : AddrMode)
  -- capabilities (06 R165-R167)
  | cld (c : CellId) (x : Enc) (d a : BitVec 2)
  | cst (c : CellId) (x : Enc) (d a : BitVec 2)
  | cnarrow (c : CellId) (x : Enc) (a : BitVec 2)
  | cperm (c : CellId) (x : Enc) (a : BitVec 2)
  | cshut (c : CellId) (x : Enc) (a : BitVec 2)
  | copen (c : CellId) (x : Enc) (a : BitVec 2)
  | ccopy (c : CellId) (x : Enc) (a : BitVec 2)
  -- moves to and from bank registers (06 R168, R169)
  | geta (c : CellId) (x : Enc) (a : BitVec 2)
  | seta (c : CellId) (x : Enc) (a : BitVec 2)
  | adda (c : CellId) (x : Enc) (a : BitVec 2)
  | getrc (c : CellId) (x : Enc)
  | setrc (c : CellId) (x : Enc)
  | getdsp (c : CellId) (x : Enc)
  | setdsp (c : CellId) (x : Enc)
  | getrsp (c : CellId) (x : Enc)
  | setrsp (c : CellId) (x : Enc)
  | getfl (c : CellId) (x : Enc)
  | setfl (c : CellId) (x : Enc)
  | getacc0 (c : CellId) (x : Enc)
  | getacc1 (c : CellId) (x : Enc)
  | setacc0 (c : CellId) (x : Enc)
  | setacc1 (c : CellId) (x : Enc)
  -- image instructions (06 R170-R172)
  | ldim (c : CellId) (x : Enc)
  | ldimp (c : CellId) (x : Enc)
  | ldop (c : CellId) (x : Enc)
  | ldoc (c : CellId) (x : Enc)
  | stim (c : CellId) (x : Enc)
  | bld (c : CellId) (x : Enc)
  | bldp (c : CellId) (x : Enc)
  | bst (c : CellId) (x : Enc)
  -- queues (06 R173-R175)
  | enq (c : CellId) (x : Enc) (a : BitVec 2)
  | deq (c : CellId) (x : Enc) (a : BitVec 2)
  -- control flow (06 R176-R178)
  | br (c : CellId) (x : Enc)
  | bri (c : CellId) (x : Enc)
  | call (c : CellId) (x : Enc)
  | calli (c : CellId) (x : Enc)
  | ret (c : CellId) (x : Enc)
  | sys (c : CellId) (x : Enc) (n : BitVec 3)
  | rets (c : CellId) (x : Enc)
  | iret (c : CellId) (x : Enc)
  | fret (c : CellId) (x : Enc)
  | dret (c : CellId) (x : Enc)
  -- scheduling (06 R179, R180)
  | fend (c : CellId) (x : Enc)
  | wait (c : CellId) (x : Enc)
  | post (c : CellId) (x : Enc)
  | yield (c : CellId) (x : Enc)
  -- synchronisation, SAVEM and LOADM (06 R181-R184)
  | pref (c : CellId) (x : Enc) (a : BitVec 2)
  | fence (c : CellId) (x : Enc)
  | rsync (c : CellId) (x : Enc)
  | flushi (c : CellId) (x : Enc)
  | savem (c : CellId) (x : Enc) (a : BitVec 2)
  | loadm (c : CellId) (x : Enc) (a : BitVec 2)
  -- pipeline and store buffer (07)
  /-- the data of the oldest outstanding cluster-memory load of cell `c` (R191) -/
  | loadDataReturn (c : CellId)
  | storeBufferDrain (c : CellId)
  /-- one entry of the running bank's data (`ret = false`) or return window (R110, R115) -/
  | backgroundSpillFill (c : CellId) (ret : Bool)
  /-- a check of the cell in slot `slot` of cluster `k` fails (R474) -/
  | cellCheckError (k : ClusterId) (slot : BitVec 5)
  | faultEntry (c : CellId) (r : FaultReq)
  | interruptEntry (c : CellId)
  | schedulerSwitch (c : CellId)
  | debugEntry (c : CellId)
  -- frame clock (02)
  | tick
  | level0Deadline
  | cycleBudgetExceeded (c : CellId) (n : LevelId)
  | holdover
  /-- the TAI time of the update, in ns with 16 fraction bits (R540), and the fabric cycles since the update before or since the
  beginning of holdover -/
  | timeUpdate (tai : BitVec 80) (cycles : BitVec 36)
  /-- a TP_PPS rising edge, `off` fabric cycles away from the whole second of frame time (R540) -/
  | ppsEdge (off : BitVec 32)
  | frameClockStart (slew : BitVec 2)
  | frameClockStop (slew : BitVec 2)
  -- Rime (12)
  | ingressEntry (src : BitVec 6)
  /-- input `inp`: 0-31 HAND, 32-35 TPLUG; its sample, and the frame time of the sample in 2^-16 ns (R344, R347) -/
  | debounceChange (inp : BitVec 6) (sample : Bool) (stamp : BitVec 80)
  | egressPublication
  -- interrupt distributor (14)
  | irqAssert (src : BitVec 12)
  | irqDeassert (src : BitVec 12)
  | irqPulse (src : BitVec 12)
  | irqPendset (src : BitVec 12)
  | irqPendclr (src : BitVec 12)
  -- scheduler (10)
  | postArrival (from_ target : CellId) (n : LevelId)
  | doorbell (target : CellId) (n : LevelId)
  | timerExpiry (c : CellId) (n : LevelId)
  | levelEnable (c : CellId) (n : LevelId) (v : Word)
  | levelDisable (c : CellId) (n : LevelId) (v : Word)
  | loadingEnd (c : CellId) (n : LevelId)
  | stagingReady (c : CellId)
  -- queue manager (15)
  | channelEnqueue (ch : BitVec 5) (q : BitVec 16)
  | channelDequeue (ch : BitVec 5) (q : BitVec 16)
  | channelIllegalOp (ch : BitVec 5) (op11 : Bool) (q : BitVec 16)
  | channelCompletion (ch : BitVec 5)
  | reservationGrant (q : BitVec 16) (deq : Bool)
  | descriptorWrite (m : Master) (q : BitVec 16) (w : BitVec 2) (v : Word)
  -- backplane ports (16)
  | portEnable (n : BitVec 3) (v : Word)
  | portDisable (n : BitVec 3) (v : Word)
  | busIntegration (n : BitVec 3)
  | frameReception (n : BitVec 3) (f : CanFrame) (after : BitVec 16)
  | shadowTransfer (n : BitVec 3) (b : BitVec 6)
  | bufferLock (n : BitVec 3) (b : BitVec 6)
  | lockRelease (n : BitVec 3) (b : BitVec 6)
  | lockTimeout (n : BitVec 3)
  | transmitRequest (n : BitVec 3) (b : BitVec 6)
  | transmitWithdraw (n : BitVec 3) (b : BitVec 6)
  /-- `t`: frame time of the start-of-frame bit, in 2^-16 ns (R430) -/
  | frameStart (n : BitVec 3) (t : BitVec 80)
  /-- `tdcv`: the loop delay in CAN clocks, where the frame reached its FDF-res bit pair (R415) -/
  | frameEnd (n : BitVec 3) (e : TxEnd) (tdcv : Option (BitVec 16))
  | windowClose (n : BitVec 3) (b : BitVec 6)
  /-- error code and the increments of the two counters that the standard gives for it (R434) -/
  | errorFrame (n : BitVec 3) (lec : BitVec 3) (tecInc recInc : BitVec 4)
  | recover (n : BitVec 3)
  | busOffRecoveryEnd (n : BitVec 3)
  | holdStatusFrame (n : BitVec 3)
  -- Firn (17)
  | keepEnable (v : Word)
  | storeReady
  | read (key : BitVec 13) (badA badB : Bool)
  | commit (glen : BitVec 13)
  | unlockr
  | unlockw
  | lock
  | setpwr
  | setpww
  | hotsave
  | format
  | keepIllegalOp (op : BitVec 4) (arg : BitVec 13)
  /-- the flash operation in progress completes; `blank = false` when the page read before the program is
  not all ones, so that it is skipped (R447) -/
  | flashOpComplete (blank : Bool)
  | pfWarn
  | pfOkFall
  | hotSave
  | reclaim (halfB : Bool)
  | twinRewrite (key : BitVec 10)
  /-- `blank`: the place of the entry reads blank (R447, R492) -/
  | repairRecordAppend (blank : Bool)
  -- Moraine (18)
  | messageTaken
  | morAckSrcv (src : BitVec 12)
  | morAckAll
  | morAckFirst
  | morLogpop (n : BitVec 9)
  | morFirst0Read
  | quietExit (src : BitVec 12)
  -- repair controller (19)
  | migrate (c : CellId)
  | test (k : ClusterId) (slot : BitVec 5)
  | testEnd (k : ClusterId) (slot : BitVec 5) (pass : Bool)
  | restore (k : ClusterId) (slot : BitVec 5)
  | rprIllegalOp (op : BitVec 4) (arg : BitVec 32)
  | migrationCopyEnd (k : ClusterId)
  | spareArmed (k : ClusterId)
  | fieldRowRepair
  /-- margin and temperature that the monitor and the sensor report (R494) -/
  | clockStepLowering (k : ClusterId) (margin : BitVec 6) (temp : BitVec 9)
  | calibration (k : ClusterId) (completed : Bool)
  -- memory (11)
  /-- `busy`: a foreground access wants the port in this cycle (R321) -/
  | scrub (m : ScrubMem) (seen : ScrubSeen) (busy : Bool)
  | regionInstall (m : Master) (d : BitVec 6) (r : BitVec 3) (v : Word)
  | fabricResponse (p : BitVec 2) (tag : BitVec 10) (st : BitVec 2) (data : List Word)
  | retryReissue (p : BitVec 2) (tag : BitVec 10)
  | fabricTimeout (p : BitVec 2) (tag : BitVec 10)
  /-- a slave-port transaction: its beats from the doubleword that holds `addr` on, each with the nonets it enables and the data of
  a write (R313, R314, R318) -/
  | slaveMemoryAccess (tag : BitVec 8) (addr : BitVec 50) (wr : Bool) (beats : List (BitVec 8 × DWord))
  /-- with the whole-word writes that other masters make of the register in the same fabric cycle (R557) -/
  | registerWrite (m : Master) (off : BitVec 20) (v : Word) (nonets : BitVec 4) (more : List (Master × Word))
  -- load verifier (08)
  | ldvStart (target : BitVec 16)
  | ldvAbort
  | ldvData (w : Word)
  | verify
  | broadcast
  | keyDelivery (sel : Bool) (words : List (BitVec 32))
  -- Thaw (20)
  | mcdone
  | thawStart
  | fuseWord (w : Word)
  | fuseStreamTimeout
  /-- what the flash holds, and the macros of Firn RAM with more defects than spares, and the spare rows and columns that BIST
  allots (R501, R502) -/
  | phase1End (img : FlashImage) (bad : List MacroId) (spares : List (MacroId × BitVec 4 × BitVec 3))
  /-- the macros with more defects than spares, the spare rows and columns that BIST allots, and whether the interrupt source tables
  have more defects than spares (R502) -/
  | phase2End (bad : List MacroId) (spares : List (MacroId × BitVec 4 × BitVec 3)) (irqTables : Bool)
  /-- the slots, clusters and block units that fail logic BIST (R503) -/
  | phase3End (slots : List (ClusterId × BitVec 5)) (clusters : List ClusterId) (units : List (BitVec 12))
  /-- the slots whose known-answer check fails, with their signatures (R506) -/
  | phase5End (slots : List (ClusterId × BitVec 5 × BitVec 72))
  | phaseTimeout
  -- reset and debug domain (21, 22)
  | blockReset (cause : ResetCause)
  | ignoredLow
  | packetTimeout
  /-- with the level that the chip's fuses drive on DBG_FUSE (R516, R523) -/
  | debugDomainReset (fuse : BitVec 2)
  /-- debug packets come with the CRC-8 of their request (R518) -/
  | status (crc : BitVec 8)
  | rate (code : BitVec 2) (crc : BitVec 8)
  | attach (crc : BitVec 8)
  | detach (crc : BitVec 8)
  | rdphy (addr : BitVec 50) (crc : BitVec 8)
  | wrphy (addr : BitVec 50) (w : Word) (crc : BitVec 8)
  | wrcap (addr : BitVec 50) (d : DWord) (tag : Bool) (crc : BitVec 8)
  | rdbnk (c : CellId) (bank : BitVec 4) (ix : BitVec 8) (crc : BitVec 8)
  | wrbnk (c : CellId) (bank : BitVec 4) (ix : BitVec 8) (w : Word) (tag : Bool) (crc : BitVec 8)
  | event (c : CellId) (crc : BitVec 8)
  /-- a request of OP 9 to 15, or of a length that is not its OP's (R518, R519) -/
  | dbgIllegalOp (op : BitVec 4) (args : List Bool) (crc : BitVec 8)
  | debugHeldAccess
  | halt (c : CellId)
  -- run control and power (13, 22)
  | runctlStop (k : ClusterId) (mode : BitVec 2)
  | runctlStart (k : ClusterId) (mode : BitVec 2)
  | stoppedReached (k : ClusterId)
  | wrst (t : WarmTarget)
  | retainRequest (k : ClusterId) (dozeen : Bool)
  | offRequest (k : ClusterId) (dozeen : Bool)
  | wake (k : ClusterId)
  | retainEntry (k : ClusterId)
  | clusterPowerUp (k : ClusterId)
  | dozeEntry (k : ClusterId)
  -- online edit and standby (13)
  | editswap (c : CellId) (levels : BitVec 8)
  | editCancel (c : CellId) (levels : BitVec 8)
  | editTimeout (c : CellId)
  | roleActive (pause : Bool)
  | roleStandby (pause : Bool)
  | roleOff (pause : Bool)
  | stbySync
  /-- `agrees`: the frame's period agrees with the block's own FRM_PERIOD (R369). `err`, here and below: a beat of the record came
  with SBR_ERR = 1 (R543) -/
  | frameRecord (frame : DWord) (agrees err : Bool)
  | inputRecord (first : BitVec 17) (words : List Word) (err : Bool)
  | lineRecord (line : BitVec 22) (words : List Word) (err : Bool)
  | editRecord (c : CellId) (tag : Word) (err : Bool)
  /-- `synced`: the frame was sent after the active block's SYNC (R369) -/
  | heartbeat (pause incomplete : Bool) (lines : Word) (crc : BitVec 32) (synced err : Bool)
  -- added steps
  /-- the new TP_LOCK level (R30, R540) -/
  | timeLockChange (tpLock : Bool)
  | pfOkRise
  | pfWarnFall
  | snapshotDrainEnd (k : ClusterId)
  /-- a measurement of margin and temperature (R494) -/
  | monitorRecovery (k : ClusterId) (margin : BitVec 6) (temp : BitVec 9)
  | scrubberStarved (m : ScrubMem)
  | creditReturn (p : BitVec 2)
  | registerReadClear (off : BitVec 20)
deriving DecidableEq, Repr

end Sys2Proof
end

