-- ==== Sys2Proof/Config.lean ====
section
/-! DEFINITION. Config.lean: what the spec leaves open. Each constant is opaque: it has no value that a proof
could use, so a statement that holds of the model holds for every value of it. -/

namespace Sys2Proof.Config

/-- Core cycles that an instruction takes in Throughput mode (R124, R126, R127), by the free value's index. -/
opaque throughputCycles : Nat → Nat

/-- Core cycles that an instruction waits for a memory, a queue or a fabric (R48, R410), by the free value's index. -/
opaque waitCycles : Nat → Nat

/-- What a microword's operation gives where the spec states no value (R221, R223, R228): the steps of a division or a square
root, a conversion out of range, the wheel slot, the INFO of a trap; by the free value's index. -/
opaque microValue : Nat → BitVec 72

/-- Bank of a block unit's memory that holds a word, and the row of the macro that holds it (R491): the spec gives
the macros no geometry. -/
opaque macroBank : Nat → Nat
opaque macroRow : Nat → Nat

/-- LINE records that the standby link lets the port start before STBY_CUTOFF (R373, R375): the integrator gives the
link its rate. -/
opaque linesBeforeCutoff : Nat → Nat

/-- A store reached a line during each of the three reads that the standby port made of it (R373); the model sends a frame's
stream at its tick. -/
opaque lineContended : Nat → Nat → Bool

/-- The cryptography of the load verifier (R233, R238), whose standards lie outside the spec: SHA-384 of a byte stream as
12 words of 32 bits; verification of an ECDSA P-384 signature (r, s) under a public key; and AES-256-GCM decryption
under key, nonce, additional data, cipher text and tag, none when it does not authenticate. -/
opaque sha384 : List Nat → List (BitVec 32)
opaque ecdsaVerify : List (BitVec 32) → List (BitVec 32) → List (BitVec 32) → Bool
opaque gcmOpen : List (BitVec 32) → List (BitVec 32) → List Nat → List Nat → List (BitVec 32) → Option (List Nat)

/-- SHA-384 of Onaed's public key, as the key port delivers it (R238, R541). -/
opaque onaedHash : List (BitVec 32)

/-- A drain that a block unit has answered with RETRY has waited 65,536 fabric cycles (R206); the model has no clock. -/
opaque drainExpired : Nat → Bool

/-- A withdrawal of a presented source, whose next source has taken its place since, met the acceptance in one fabric cycle
(R393); the model has no clock. -/
opaque withdrawalMeets : Nat → Bool

/-- THAW_PENDi (R514): the time of a phase's end after power-good, in microseconds; the model has no clock. -/
opaque thawMicros : Nat → Nat

/-- THAW_STATUS.UNIT of a Hold in which no unit or cluster has failed (R514). -/
opaque holdUnit : Nat → Nat

/-- CLASS:INST of the interrupt source tables (R491, R502), to which the spec gives no macro class. -/
opaque irqTables : Nat → Nat

/-- CLU_CYC0 and CLU_CYC1 (R470, R559): core cycles of a cluster, which the model does not count. -/
opaque cluCycles : Nat → BitVec 36

/-- How far a running timer has counted down (R282): the model has no clock. -/
opaque timerCount : Nat → Nat

/-- Fabric cycles that have passed since frame time was last found when FRM_TIME is read (R540): the model has no clock. -/
opaque elapsedCycles : Nat → Nat

/-- The bus of a port is idle when BP_CTRL.EN is cleared (R438): the port then stops at once. -/
opaque busIdle : Nat → Bool

/-- REC after a successful reception at REC above 127 (R413): the standard lets the port take any value of 119 to 127, so the
model adds a free value of 0 to 8 to 119. -/
opaque recValue : Nat → Nat

/-- CELL_DPC after a debug entry from idle, where no bank is left (R529). -/
opaque idlePc : Nat → BitVec 34

/-- CELL_FADDR after a fault 2 whose failing check concerns no virtual address (R255): a check of C3, of a capability
instruction's operands, of an image index or of a queue. -/
opaque checkAddr : Nat → BitVec 32

end Sys2Proof.Config
end

