-- ==== Sys2Proof/Machine/Bits.lean ====
section
/-! DEFINITION. Bits.lean: bit fields of a word, sign extension and the number codings the chapters share
(R3, R59, R98). -/

namespace Sys2Proof.Machine

/-- Field of `len` bits from bit `lo` of a word. -/
def fld (w : Word) (lo len : Nat) : Nat := (w.toNat >>> lo) % 2 ^ len

/-- The word whose bits [lo+len-1:lo] are all ones. -/
def fldMask (lo len : Nat) : Word := BitVec.ofNat 36 (2 ^ len - 1) <<< lo

/-- `w` with the field of `len` bits from bit `lo` set to `v` modulo 2^len. -/
def setFld (w : Word) (lo len v : Nat) : Word :=
  (w &&& ~~~ fldMask lo len) ||| (BitVec.ofNat 36 (v % 2 ^ len) <<< lo)

/-- One bit of a word. -/
def bit (w : Word) (i : Nat) : Bool := w.getLsbD i

def b2n (b : Bool) : Nat := if b then 1 else 0

/-- The signed value of the low `w` bits of `v` (sext of the chapters' pseudocode). -/
def sextNat (v w : Nat) : Int :=
  if w = 0 then 0 else if v % 2 ^ w < 2 ^ (w - 1) then (v % 2 ^ w : Nat) else (v % 2 ^ w : Nat) - (2 ^ w : Nat)

/-- An exact integer narrowed to `w` bits (R130, R159). -/
def wrapNat (x : Int) (w : Nat) : Nat := (x % (2 ^ w : Nat)).toNat

/-- The nonet mask of four nonet enables (R201): bits 9j+8 to 9j for each enabled nonet j. -/
def nonetMask (en : BitVec 4) : Word :=
  (if en.getLsbD 0 then fldMask 0 9 else 0) ||| (if en.getLsbD 1 then fldMask 9 9 else 0) |||
  (if en.getLsbD 2 then fldMask 18 9 else 0) ||| (if en.getLsbD 3 then fldMask 27 9 else 0)

/-- `new` written over `old` under nonet enables (R160, R201). -/
def mergeNonets (old new : Word) (en : BitVec 4) : Word :=
  (old &&& ~~~ nonetMask en) ||| (new &&& nonetMask en)

/-- A doubleword from its two words, the word at the lower address first (R3, R116). -/
def dword (lo hi : Word) : DWord := hi ++ lo

def dlo (d : DWord) : Word := d.extractLsb' 0 36
def dhi (d : DWord) : Word := d.extractLsb' 36 36

/-- A count that stays at its top value (R8 saturating counters). -/
def satInc (v len : Nat) : Nat := if v + 1 < 2 ^ len then v + 1 else 2 ^ len - 1

/-- The byte stream of a list of words (R233, R442): each doubleword gives 9 bytes, most significant first; an odd word
at the end is completed with a zero word. -/
def byteStream : List Word → List Nat
  | [] => []
  | [a] => (List.range 9).map (fun i => a.toNat / 2 ^ (64 - 8 * i) % 256)
  | a :: b :: l => (List.range 9).map (fun i => (dword a b).toNat / 2 ^ (64 - 8 * i) % 256) ++ byteStream l

/-- One bit of CRC-32C in reflected form (R442). -/
def crcBit (r : Nat) : Nat := if r % 2 = 1 then (r / 2) ^^^ 0x82F63B78 else r / 2

/-- One byte of CRC-32C. -/
def crcByte (r b : Nat) : Nat := crcBit (crcBit (crcBit (crcBit (crcBit (crcBit (crcBit (crcBit (r ^^^ b))))))))

/-- CRC-32C of a word sequence (R371, R442). -/
def crc32c (ws : List Word) : Nat := ((byteStream ws).foldl crcByte 0xFFFFFFFF) ^^^ 0xFFFFFFFF

end Sys2Proof.Machine
end

