-- ==== Sys2Proof/Machine/Registers.lean ====
section
/-! DEFINITION. Registers.lean: the registers of block control space (23 R555-R561): the place of every field,
and for every register its reset word and its RW, W1C, W1S, RTC and WO bits, from the register tables of the chapters. -/

namespace Sys2Proof.Machine

/-- A field of a register: word offset in block control space, lowest bit, width. -/
structure Fld where
  off : Nat
  lo : Nat
  len : Nat
deriving DecidableEq, Repr

/-- Window of cluster `k` (R559). -/
def cluBase (k : Nat) : Nat := 0x80000 + 0x1000 * k
/-- Window of logical cell `n` (R560). -/
def cellBase (n : Nat) : Nat := 0xC0000 + 0x400 * n
/-- Register area of backplane port `n` (R555). -/
def bpBase (n : Nat) : Nat := 0x7000 + 0x200 * n
/-- Message RAM of backplane port `n` (R555). -/
def bpRam (n : Nat) : Nat := 0x30000 + 0x800 * n

namespace Reg

-- R57
def FRM_CTRL_SLEW : Fld := ⟨0x1000, 1, 2⟩
def FRM_CTRL_EN : Fld := ⟨0x1000, 0, 1⟩
def FRM_STAT_WERR : Fld := ⟨0x1001, 7, 1⟩
def FRM_STAT_CFGERR : Fld := ⟨0x1001, 6, 1⟩
def FRM_STAT_TIMEERR : Fld := ⟨0x1001, 5, 1⟩
def FRM_STAT_HOLD : Fld := ⟨0x1001, 4, 1⟩
def FRM_STAT_SLEWING : Fld := ⟨0x1001, 3, 1⟩
def FRM_STAT_WAITLOCK : Fld := ⟨0x1001, 2, 1⟩
def FRM_STAT_LOCK : Fld := ⟨0x1001, 1, 1⟩
def FRM_STAT_RUN : Fld := ⟨0x1001, 0, 1⟩
def FRM_PERIOD0_LO : Fld := ⟨0x1002, 0, 36⟩
def FRM_PERIOD1_HI : Fld := ⟨0x1003, 0, 10⟩
def FRM_TPS_TPS : Fld := ⟨0x1004, 0, 15⟩
def FRM_DEPTH_D : Fld := ⟨0x1005, 0, 2⟩
def FRM_GUARD_NS : Fld := ⟨0x1006, 0, 20⟩
def FRM_CGUARD_NS : Fld := ⟨0x1007, 0, 20⟩
def FRM_OVR_LIMIT_LIMIT : Fld := ⟨0x1008, 0, 8⟩
def FRM_ANCHOR0_LO : Fld := ⟨0x100a, 0, 36⟩
def FRM_ANCHOR1_HI : Fld := ⟨0x100b, 0, 28⟩
def FRM_COUNT0_LO : Fld := ⟨0x100c, 0, 36⟩
def FRM_COUNT1_HI : Fld := ⟨0x100d, 0, 36⟩
def FRM_TIME0_LO : Fld := ⟨0x100e, 0, 36⟩
def FRM_TIME1_HI : Fld := ⟨0x100f, 0, 28⟩
def FRM_TICKT0_LO : Fld := ⟨0x1010, 0, 36⟩
def FRM_TICKT1_HI : Fld := ⟨0x1011, 0, 28⟩
def FRM_LATE_COUNT : Fld := ⟨0x1012, 0, 36⟩
def FRM_EARLY_COUNT : Fld := ⟨0x1013, 0, 36⟩
-- R58
def CELL_LBUD_CYC (c i : Nat) : Fld := ⟨cellBase c + 0x100 + i, 0, 32⟩
def CELL_LUSED_CYC (c i : Nat) : Fld := ⟨cellBase c + 0x108 + i, 0, 32⟩
def CELL_OVR_CONS (c : Nat) : Fld := ⟨cellBase c + 0x110, 28, 8⟩
def CELL_OVR_TOTAL (c : Nat) : Fld := ⟨cellBase c + 0x110, 0, 28⟩
-- R241
def LDV_CTRL_TARGET : Fld := ⟨0xa100, 2, 16⟩
def LDV_CTRL_ABORT : Fld := ⟨0xa100, 1, 1⟩
def LDV_CTRL_START : Fld := ⟨0xa100, 0, 1⟩
def LDV_STAT_CODE : Fld := ⟨0xa101, 19, 4⟩
def LDV_STAT_STATE : Fld := ⟨0xa101, 16, 3⟩
def LDV_STAT_KEY : Fld := ⟨0xa101, 15, 1⟩
def LDV_STAT_COUNT : Fld := ⟨0xa101, 0, 14⟩
def LDV_DATA_WORD : Fld := ⟨0xa102, 0, 36⟩
def LDV_MINSEQ_MIN : Fld := ⟨0xa103, 0, 18⟩
def LDV_VALID_V : Fld := ⟨0xa104, 0, 16⟩
def LDV_CLSEQ_BASE (i : Nat) : Fld := ⟨0xa110 + i, 18, 18⟩
def LDV_CLSEQ_PATCH (i : Nat) : Fld := ⟨0xa110 + i, 0, 18⟩
-- R270
def CELL_FCAUSE_LNK (c : Nat) : Fld := ⟨cellBase c + 0x40, 21, 1⟩
def CELL_FCAUSE_ASYNC (c : Nat) : Fld := ⟨cellBase c + 0x40, 20, 1⟩
def CELL_FCAUSE_INFO (c : Nat) : Fld := ⟨cellBase c + 0x40, 12, 8⟩
def CELL_FCAUSE_ORIG (c : Nat) : Fld := ⟨cellBase c + 0x40, 8, 4⟩
def CELL_FCAUSE_BANK (c : Nat) : Fld := ⟨cellBase c + 0x40, 4, 4⟩
def CELL_FCAUSE_CODE (c : Nat) : Fld := ⟨cellBase c + 0x40, 0, 4⟩
def CELL_FPC_PC (c : Nat) : Fld := ⟨cellBase c + 0x41, 0, 34⟩
def CELL_FRPC_PC (c : Nat) : Fld := ⟨cellBase c + 0x42, 0, 34⟩
def CELL_FADDR_VA (c : Nat) : Fld := ⟨cellBase c + 0x43, 0, 32⟩
def CELL_FPADDR0_LO (c : Nat) : Fld := ⟨cellBase c + 0x44, 0, 36⟩
def CELL_FPADDR1_HI (c : Nat) : Fld := ⟨cellBase c + 0x45, 0, 14⟩
def CELL_FCOUNT_COUNT (c : Nat) : Fld := ⟨cellBase c + 0x46, 0, 16⟩
def CELL_DFAULT_VALID (c : Nat) : Fld := ⟨cellBase c + 0x47, 35, 1⟩
def CELL_DFAULT_BANK (c : Nat) : Fld := ⟨cellBase c + 0x47, 10, 4⟩
def CELL_DFAULT_ENT (c : Nat) : Fld := ⟨cellBase c + 0x47, 9, 1⟩
def CELL_DFAULT_FIRST (c : Nat) : Fld := ⟨cellBase c + 0x47, 4, 4⟩
def CELL_DFAULT_SECOND (c : Nat) : Fld := ⟨cellBase c + 0x47, 0, 4⟩
def CELL_MASK_LEVEL (c : Nat) : Fld := ⟨cellBase c + 0x48, 0, 2⟩
def CELL_IVBASE_VA (c : Nat) : Fld := ⟨cellBase c + 0x49, 0, 32⟩
def CELL_FCTL_WRST (c : Nat) : Fld := ⟨cellBase c + 0x4a, 0, 1⟩
def CELL_SEED_CAP (c i : Nat) : Fld := ⟨cellBase c + 0xc0 + i, 0, 36⟩
def CELL_SEEDV_V (c : Nat) : Fld := ⟨cellBase c + 0xd8, 0, 12⟩
def CELL_ENTRY0_TARGET (c i : Nat) : Fld := ⟨cellBase c + 0x80 + 8 * i, 0, 34⟩
def CELL_ENTRY1_BUSY (c i : Nat) : Fld := ⟨cellBase c + 0x81 + 8 * i, 8, 1⟩
def CELL_ENTRY1_ARGS (c i : Nat) : Fld := ⟨cellBase c + 0x81 + 8 * i, 3, 3⟩
def CELL_ENTRY1_RES (c i : Nat) : Fld := ⟨cellBase c + 0x81 + 8 * i, 0, 3⟩
def CELL_ENTRY4_CODE (c i : Nat) : Fld := ⟨cellBase c + 0x84 + 8 * i, 0, 36⟩
def CELL_ENTRY6_STACK (c i : Nat) : Fld := ⟨cellBase c + 0x86 + 8 * i, 0, 36⟩
def CLU_LOCKUP_SLOT (k : Nat) : Fld := ⟨cluBase k + 0x30, 0, 17⟩
-- R295
def CELL_LCFG_EN (c i : Nat) : Fld := ⟨cellBase c + 0x120 + i, 35, 1⟩
def CELL_LCFG_TICK (c i : Nat) : Fld := ⟨cellBase c + 0x120 + i, 34, 1⟩
def CELL_LCFG_POSTE (c i : Nat) : Fld := ⟨cellBase c + 0x120 + i, 33, 1⟩
def CELL_LCFG_DBE (c i : Nat) : Fld := ⟨cellBase c + 0x120 + i, 32, 1⟩
def CELL_LCFG_TIME (c i : Nat) : Fld := ⟨cellBase c + 0x120 + i, 31, 1⟩
def CELL_LCFG_NTASK (c i : Nat) : Fld := ⟨cellBase c + 0x120 + i, 27, 4⟩
def CELL_LCFG_TCWB (c i : Nat) : Fld := ⟨cellBase c + 0x120 + i, 14, 9⟩
def CELL_LSTAT_CUR (c i : Nat) : Fld := ⟨cellBase c + 0x128 + i, 32, 4⟩
def CELL_LSTAT_STATE (c i : Nat) : Fld := ⟨cellBase c + 0x128 + i, 30, 2⟩
def CELL_LSTAT_TPEND (c i : Nat) : Fld := ⟨cellBase c + 0x128 + i, 29, 1⟩
def CELL_LSTAT_TMISS (c i : Nat) : Fld := ⟨cellBase c + 0x128 + i, 0, 16⟩
def CELL_LEV_SAT (c i : Nat) : Fld := ⟨cellBase c + 0x130 + i, 35, 1⟩
def CELL_LEV_TIM (c i : Nat) : Fld := ⟨cellBase c + 0x130 + i, 16, 8⟩
def CELL_LEV_DB (c i : Nat) : Fld := ⟨cellBase c + 0x130 + i, 8, 8⟩
def CELL_LEV_POST (c i : Nat) : Fld := ⟨cellBase c + 0x130 + i, 0, 8⟩
def CELL_TIM_EN (c i : Nat) : Fld := ⟨cellBase c + 0x138 + i, 35, 1⟩
def CELL_TIM_COUNT (c i : Nat) : Fld := ⟨cellBase c + 0x138 + i, 0, 32⟩
def CELL_TREL_RELOAD (c i : Nat) : Fld := ⟨cellBase c + 0x140 + i, 0, 32⟩
def CELL_LDROP_COUNT (c i : Nat) : Fld := ⟨cellBase c + 0x148 + i, 0, 16⟩
def CELL_STATE_DETV (c : Nat) : Fld := ⟨cellBase c + 0x150, 35, 1⟩
def CELL_STATE_MTASK (c : Nat) : Fld := ⟨cellBase c + 0x150, 34, 1⟩
def CELL_STATE_CFGERR (c : Nat) : Fld := ⟨cellBase c + 0x150, 33, 1⟩
def CELL_STATE_READY (c : Nat) : Fld := ⟨cellBase c + 0x150, 14, 8⟩
def CELL_STATE_BANK (c : Nat) : Fld := ⟨cellBase c + 0x150, 4, 4⟩
def CELL_HDOM_D (c : Nat) : Fld := ⟨cellBase c + 0x151, 12, 6⟩
def CELL_HDOM_I (c : Nat) : Fld := ⟨cellBase c + 0x151, 6, 6⟩
def CELL_HDOM_F (c : Nat) : Fld := ⟨cellBase c + 0x151, 0, 6⟩
def CELL_POSTX_COUNT (c : Nat) : Fld := ⟨cellBase c + 0x152, 0, 16⟩
def CELL_LTASK_TASK (c i : Nat) : Fld := ⟨cellBase c + 0x158 + i, 0, 32⟩
-- R322
def BLK_SCRCTL_EN : Fld := ⟨0x20, 8, 1⟩
def BLK_SCRCTL_INTV : Fld := ⟨0x20, 0, 8⟩
def BLK_SCRCORR_COUNT : Fld := ⟨0x21, 0, 36⟩
def BLK_SCRUNC_COUNT : Fld := ⟨0x22, 0, 16⟩
def BLK_SCRFORCE_COUNT : Fld := ⟨0x23, 0, 36⟩
def BLK_SCRSTARVE_COUNT : Fld := ⟨0x24, 0, 16⟩
def BLK_RTERR_VALID : Fld := ⟨0x30, 35, 1⟩
def BLK_RTERR_DOM : Fld := ⟨0x30, 6, 6⟩
def BLK_RTERR_REG : Fld := ⟨0x30, 3, 3⟩
def BLK_RTERR_CAUSE : Fld := ⟨0x30, 0, 3⟩
def BLK_FMCTL_RDLY : Fld := ⟨0x40, 0, 8⟩
def BLK_FMERR_COUNT (i : Nat) : Fld := ⟨0x44 + i, 0, 16⟩
def BLK_FMLATE_COUNT (i : Nat) : Fld := ⟨0x48 + i, 0, 16⟩
def BLK_SPERR_COUNT : Fld := ⟨0x4c, 0, 16⟩
-- R352
def IMG_CTRL_JEN : Fld := ⟨0x4000, 1, 1⟩
def IMG_CTRL_EGEN : Fld := ⟨0x4000, 0, 1⟩
def IMG_STAT_WERR : Fld := ⟨0x4001, 3, 1⟩
def IMG_STAT_INERR : Fld := ⟨0x4001, 2, 1⟩
def IMG_STAT_EGLATE : Fld := ⟨0x4001, 1, 1⟩
def IMG_STAT_PMM : Fld := ⟨0x4001, 0, 1⟩
def IMG_PLANES_FILL : Fld := ⟨0x4002, 10, 2⟩
def IMG_PLANES_LAT : Fld := ⟨0x4002, 8, 2⟩
def IMG_PLANES_PREV : Fld := ⟨0x4002, 6, 2⟩
def IMG_PLANES_PEND : Fld := ⟨0x4002, 4, 2⟩
def IMG_PLANES_COMM : Fld := ⟨0x4002, 2, 2⟩
def IMG_PLANES_THIRD : Fld := ⟨0x4002, 0, 2⟩
def IMG_EGRESS_PHASE_NS : Fld := ⟨0x4003, 0, 20⟩
def IMG_DEBOUNCE_FRAMES : Fld := ⟨0x4004, 0, 8⟩
def IMG_TGACT_ACT : Fld := ⟨0x4005, 0, 32⟩
def IMG_TGSTAT_PLUG : Fld := ⟨0x4006, 32, 4⟩
def IMG_TGSTAT_ACTIVE : Fld := ⟨0x4006, 0, 32⟩
def IMG_HAND_STATE : Fld := ⟨0x4007, 0, 32⟩
def IMG_INDISC_COUNT : Fld := ⟨0x4008, 0, 36⟩
def IMG_OWNERR_COUNT : Fld := ⟨0x4009, 0, 16⟩
def IMG_EGBLK_COUNT : Fld := ⟨0x400a, 0, 36⟩
def IMG_EGLATE_COUNT : Fld := ⟨0x400b, 0, 16⟩
def IMG_JHEAD_WRAPS : Fld := ⟨0x400c, 15, 21⟩
def IMG_JHEAD_NEXT : Fld := ⟨0x400c, 0, 15⟩
def IMG_PMCOUNT_COUNT : Fld := ⟨0x400d, 0, 16⟩
def IMG_PMLAST_VALID : Fld := ⟨0x400e, 35, 1⟩
def IMG_PMLAST_CAUSE : Fld := ⟨0x400e, 32, 3⟩
def IMG_PMLAST_PAIR : Fld := ⟨0x400e, 25, 7⟩
def IMG_PMLAST_INDEX : Fld := ⟨0x400e, 4, 17⟩
def IMG_PMLAST_LANE : Fld := ⟨0x400e, 0, 4⟩
def IMG_HANDMAP_EN (i : Nat) : Fld := ⟨0x4020 + i, 35, 1⟩
def IMG_HANDMAP_INDEX (i : Nat) : Fld := ⟨0x4020 + i, 4, 17⟩
def IMG_HANDMAP_LANE (i : Nat) : Fld := ⟨0x4020 + i, 0, 4⟩
def IMG_INSRC_EN (i : Nat) : Fld := ⟨0x4040 + i, 35, 1⟩
def IMG_INSRC_STALE (i : Nat) : Fld := ⟨0x4040 + i, 16, 8⟩
def IMG_INSRC_QUEUE (i : Nat) : Fld := ⟨0x4040 + i, 0, 16⟩
-- R362
def EDIT_CTRL_LEVELS (c : Nat) : Fld := ⟨cellBase c + 0x180, 2, 8⟩
def EDIT_CTRL_CANCEL (c : Nat) : Fld := ⟨cellBase c + 0x180, 1, 1⟩
def EDIT_CTRL_ARM (c : Nat) : Fld := ⟨cellBase c + 0x180, 0, 1⟩
def EDIT_STAT_WAITED (c : Nat) : Fld := ⟨cellBase c + 0x181, 12, 16⟩
def EDIT_STAT_CAUSE (c : Nat) : Fld := ⟨cellBase c + 0x181, 8, 4⟩
def EDIT_STAT_STATE (c : Nat) : Fld := ⟨cellBase c + 0x181, 0, 3⟩
def EDIT_MAP_BASE (c : Nat) : Fld := ⟨cellBase c + 0x182, 2, 12⟩
def EDIT_WINDOW_CYC (c : Nat) : Fld := ⟨cellBase c + 0x183, 0, 16⟩
def EDIT_TIMEOUT_FRAMES (c : Nat) : Fld := ⟨cellBase c + 0x184, 0, 16⟩
def EDIT_AT_FRAME (c : Nat) : Fld := ⟨cellBase c + 0x185, 0, 36⟩
def EDIT_TAG_TAG (c : Nat) : Fld := ⟨cellBase c + 0x186, 0, 36⟩
def EDIT_COST_CYC (c : Nat) : Fld := ⟨cellBase c + 0x187, 0, 16⟩
-- R368
def CLU_RUNCTL_MODE (k : Nat) : Fld := ⟨cluBase k + 0x10, 2, 2⟩
def CLU_RUNCTL_START (k : Nat) : Fld := ⟨cluBase k + 0x10, 1, 1⟩
def CLU_RUNCTL_STOP (k : Nat) : Fld := ⟨cluBase k + 0x10, 0, 1⟩
def CLU_RUNSTAT_SERR (k : Nat) : Fld := ⟨cluBase k + 0x11, 4, 1⟩
def CLU_RUNSTAT_WERR (k : Nat) : Fld := ⟨cluBase k + 0x11, 3, 1⟩
def CLU_RUNSTAT_STATE (k : Nat) : Fld := ⟨cluBase k + 0x11, 0, 3⟩
-- R380
def STBY_CTRL_PAUSE : Fld := ⟨0x9000, 3, 1⟩
def STBY_CTRL_SYNC : Fld := ⟨0x9000, 2, 1⟩
def STBY_CTRL_ROLE : Fld := ⟨0x9000, 0, 2⟩
def STBY_STAT_MISS : Fld := ⟨0x9001, 8, 4⟩
def STBY_STAT_WERR : Fld := ⟨0x9001, 7, 1⟩
def STBY_STAT_FRMIS : Fld := ⟨0x9001, 6, 1⟩
def STBY_STAT_EDMIS : Fld := ⟨0x9001, 5, 1⟩
def STBY_STAT_TAKEN : Fld := ⟨0x9001, 4, 1⟩
def STBY_STAT_CFGERR : Fld := ⟨0x9001, 3, 1⟩
def STBY_STAT_STATE : Fld := ⟨0x9001, 0, 3⟩
def STBY_INRANGE_EN : Fld := ⟨0x9002, 35, 1⟩
def STBY_INRANGE_LAST : Fld := ⟨0x9002, 17, 17⟩
def STBY_INRANGE_FIRST : Fld := ⟨0x9002, 0, 17⟩
def STBY_MAXL_LINES : Fld := ⟨0x9003, 0, 11⟩
def STBY_CUTOFF_NS : Fld := ⟨0x9004, 0, 20⟩
def STBY_WINDOW_CYC : Fld := ⟨0x9005, 0, 16⟩
def STBY_MISS_LIMIT_LIMIT : Fld := ⟨0x9006, 0, 4⟩
def STBY_WORDS_COUNT : Fld := ⟨0x9007, 0, 18⟩
def STBY_LINES_COUNT : Fld := ⟨0x9008, 0, 11⟩
def STBY_BACKLOG_COUNT : Fld := ⟨0x9009, 0, 20⟩
def STBY_MISSCNT_COUNT : Fld := ⟨0x900a, 0, 16⟩
def STBY_CRCERR_COUNT : Fld := ⟨0x900b, 0, 16⟩
def STBY_LRETRY_COUNT : Fld := ⟨0x900c, 0, 16⟩
def STBY_UNTRK_COUNT : Fld := ⟨0x900d, 0, 36⟩
def STBY_LASTF_FRAME : Fld := ⟨0x900e, 0, 36⟩
-- R397
def IRQ_CFG_EN (i : Nat) : Fld := ⟨0x10000 + 2 * i, 35, 1⟩
def IRQ_CFG_KIND (i : Nat) : Fld := ⟨0x10000 + 2 * i, 34, 1⟩
def IRQ_CFG_WAKE (i : Nat) : Fld := ⟨0x10000 + 2 * i, 33, 1⟩
def IRQ_CFG_TARGET (i : Nat) : Fld := ⟨0x10000 + 2 * i, 8, 8⟩
def IRQ_CFG_LVEC (i : Nat) : Fld := ⟨0x10000 + 2 * i, 0, 8⟩
def IRQ_ST_LINE (i : Nat) : Fld := ⟨0x10001 + 2 * i, 7, 1⟩
def IRQ_ST_PEND (i : Nat) : Fld := ⟨0x10001 + 2 * i, 6, 1⟩
def IRQ_ST_INSV (i : Nat) : Fld := ⟨0x10001 + 2 * i, 5, 1⟩
def IRQ_ST_SAT (i : Nat) : Fld := ⟨0x10001 + 2 * i, 4, 1⟩
def IRQ_ST_CNT (i : Nat) : Fld := ⟨0x10001 + 2 * i, 0, 4⟩
def IRQ_ASSERT_SRC : Fld := ⟨0x12000, 0, 12⟩
def IRQ_DEASSERT_SRC : Fld := ⟨0x12001, 0, 12⟩
def IRQ_PULSE_SRC : Fld := ⟨0x12002, 0, 12⟩
def IRQ_PENDSET_SRC : Fld := ⟨0x12003, 0, 12⟩
def IRQ_PENDCLR_SRC : Fld := ⟨0x12004, 0, 12⟩
def IRQ_STAT_NOTGT : Fld := ⟨0x12005, 1, 1⟩
def IRQ_STAT_BADSRC : Fld := ⟨0x12005, 0, 1⟩
def IRQ_LOST_COUNT : Fld := ⟨0x12006, 0, 36⟩
def IRQ_SPUR_COUNT : Fld := ⟨0x12007, 0, 16⟩
def CELL_ISRV_V (c : Nat) : Fld := ⟨cellBase c + 0x60, 35, 1⟩
def CELL_ISRV_SRC (c : Nat) : Fld := ⟨cellBase c + 0x60, 8, 12⟩
def CELL_ISRV_LVEC (c : Nat) : Fld := ⟨cellBase c + 0x60, 0, 8⟩
-- R412
def QM_STAT_MEMERR : Fld := ⟨0x5000, 2, 1⟩
def QM_STAT_WERR : Fld := ⟨0x5000, 1, 1⟩
def QM_STAT_DERR : Fld := ⟨0x5000, 0, 1⟩
def QM_DERRQ_CAUSE : Fld := ⟨0x5001, 16, 3⟩
def QM_DERRQ_QUEUE : Fld := ⟨0x5001, 0, 16⟩
def QM_WERR_COUNT : Fld := ⟨0x5002, 0, 16⟩
def QM_REFUSED_COUNT : Fld := ⟨0x5003, 0, 16⟩
def QM_BPREF_COUNT : Fld := ⟨0x5004, 0, 36⟩
def QM_DBLOST_COUNT : Fld := ⟨0x5005, 0, 16⟩
def QM_DWAIT_COUNT : Fld := ⟨0x5006, 0, 16⟩
def QM_BUF_DATA (i w : Nat) : Fld := ⟨0x5100 + 32 * i + w, 0, 36⟩
def QM_CMD_OP (i : Nat) : Fld := ⟨0x5110 + 32 * i, 16, 2⟩
def QM_CMD_QUEUE (i : Nat) : Fld := ⟨0x5110 + 32 * i, 0, 16⟩
def QM_CHST_BUSY (i : Nat) : Fld := ⟨0x5111 + 32 * i, 35, 1⟩
def QM_CHST_ST (i : Nat) : Fld := ⟨0x5111 + 32 * i, 0, 3⟩
def CELL_QWINE_EN (c : Nat) : Fld := ⟨cellBase c + 0x68, 35, 1⟩
def CELL_QWIND_EN (c : Nat) : Fld := ⟨cellBase c + 0x69, 35, 1⟩
def CELL_QWINE_LAST (c : Nat) : Fld := ⟨cellBase c + 0x68, 16, 16⟩
def CELL_QWIND_LAST (c : Nat) : Fld := ⟨cellBase c + 0x69, 16, 16⟩
def CELL_QWINE_FIRST (c : Nat) : Fld := ⟨cellBase c + 0x68, 0, 16⟩
def CELL_QWIND_FIRST (c : Nat) : Fld := ⟨cellBase c + 0x69, 0, 16⟩
-- R438
def BP_CTRL_ABO (n : Nat) : Fld := ⟨bpBase n + 0x0, 5, 1⟩
def BP_CTRL_RECOVER (n : Nat) : Fld := ⟨bpBase n + 0x0, 4, 1⟩
def BP_CTRL_FDOE (n : Nat) : Fld := ⟨bpBase n + 0x0, 3, 1⟩
def BP_CTRL_BRSE (n : Nat) : Fld := ⟨bpBase n + 0x0, 2, 1⟩
def BP_CTRL_MON (n : Nat) : Fld := ⟨bpBase n + 0x0, 1, 1⟩
def BP_CTRL_EN (n : Nat) : Fld := ⟨bpBase n + 0x0, 0, 1⟩
def BP_STAT_LOCKTO (n : Nat) : Fld := ⟨bpBase n + 0x1, 4, 1⟩
def BP_STAT_WERR (n : Nat) : Fld := ⟨bpBase n + 0x1, 3, 1⟩
def BP_STAT_CFGERR (n : Nat) : Fld := ⟨bpBase n + 0x1, 2, 1⟩
def BP_STAT_RXONLY (n : Nat) : Fld := ⟨bpBase n + 0x1, 1, 1⟩
def BP_STAT_SYNC (n : Nat) : Fld := ⟨bpBase n + 0x1, 0, 1⟩
def BP_NBT_NBRP (n : Nat) : Fld := ⟨bpBase n + 0x2, 27, 5⟩
def BP_NBT_NTSEG1 (n : Nat) : Fld := ⟨bpBase n + 0x2, 19, 8⟩
def BP_NBT_NTSEG2 (n : Nat) : Fld := ⟨bpBase n + 0x2, 12, 7⟩
def BP_NBT_NSJW (n : Nat) : Fld := ⟨bpBase n + 0x2, 5, 7⟩
def BP_DBT_DBRP (n : Nat) : Fld := ⟨bpBase n + 0x3, 27, 5⟩
def BP_DBT_DTSEG1 (n : Nat) : Fld := ⟨bpBase n + 0x3, 22, 5⟩
def BP_DBT_DTSEG2 (n : Nat) : Fld := ⟨bpBase n + 0x3, 18, 4⟩
def BP_DBT_DSJW (n : Nat) : Fld := ⟨bpBase n + 0x3, 14, 4⟩
def BP_TDC_TDCE (n : Nat) : Fld := ⟨bpBase n + 0x4, 35, 1⟩
def BP_TDC_TDCV (n : Nat) : Fld := ⟨bpBase n + 0x4, 16, 7⟩
def BP_TDC_TDCO (n : Nat) : Fld := ⟨bpBase n + 0x4, 0, 7⟩
def BP_ERR_STATE (n : Nat) : Fld := ⟨bpBase n + 0x5, 19, 2⟩
def BP_ERR_TEC (n : Nat) : Fld := ⟨bpBase n + 0x5, 11, 8⟩
def BP_ERR_REC (n : Nat) : Fld := ⟨bpBase n + 0x5, 3, 8⟩
def BP_ERR_LEC (n : Nat) : Fld := ⟨bpBase n + 0x5, 0, 3⟩
def BP_IRQ_EV (n : Nat) : Fld := ⟨bpBase n + 0x6, 0, 8⟩
def BP_IEN_EN (n : Nat) : Fld := ⟨bpBase n + 0x7, 0, 8⟩
def BP_HOLDID_EN (n : Nat) : Fld := ⟨bpBase n + 0x8, 35, 1⟩
def BP_HOLDID_IDE (n : Nat) : Fld := ⟨bpBase n + 0x8, 34, 1⟩
def BP_HOLDID_ID (n : Nat) : Fld := ⟨bpBase n + 0x8, 0, 29⟩
def BP_RXDROP_COUNT (n : Nat) : Fld := ⟨bpBase n + 0x9, 0, 16⟩
def BP_LATE_COUNT (n : Nat) : Fld := ⟨bpBase n + 0xa, 0, 36⟩
def BP_TXMISS_COUNT (n : Nat) : Fld := ⟨bpBase n + 0xb, 0, 16⟩
def BP_OVR_COUNT (n : Nat) : Fld := ⟨bpBase n + 0xc, 0, 16⟩
def BP_QLOST_COUNT (n : Nat) : Fld := ⟨bpBase n + 0xd, 0, 16⟩
def BP_EFCNT_COUNT (n : Nat) : Fld := ⟨bpBase n + 0xe, 0, 16⟩
def BP_EGERR_COUNT (n : Nat) : Fld := ⟨bpBase n + 0xf, 0, 16⟩
-- R456
def KEEP_CFG_MODE : Fld := ⟨0x6000, 5, 2⟩
def KEEP_CFG_DIV : Fld := ⟨0x6000, 1, 4⟩
def KEEP_CFG_EN : Fld := ⟨0x6000, 0, 1⟩
def KEEP_STAT_FAIL : Fld := ⟨0x6001, 10, 2⟩
def KEEP_STAT_WERR : Fld := ⟨0x6001, 9, 1⟩
def KEEP_STAT_DEVERR : Fld := ⟨0x6001, 8, 1⟩
def KEEP_STAT_HOTSLOW : Fld := ⟨0x6001, 7, 1⟩
def KEEP_STAT_LOCKOUT : Fld := ⟨0x6001, 6, 1⟩
def KEEP_STAT_WUNL : Fld := ⟨0x6001, 5, 1⟩
def KEEP_STAT_RUNL : Fld := ⟨0x6001, 4, 1⟩
def KEEP_STAT_HOTLOST : Fld := ⟨0x6001, 3, 1⟩
def KEEP_STAT_HOTLOAD : Fld := ⟨0x6001, 2, 1⟩
def KEEP_STAT_READY : Fld := ⟨0x6001, 1, 1⟩
def KEEP_STAT_PH1 : Fld := ⟨0x6001, 0, 1⟩
def KEEP_CMD_OP : Fld := ⟨0x6002, 32, 4⟩
def KEEP_CMD_ARG : Fld := ⟨0x6002, 0, 13⟩
def KEEP_CSTAT_BUSY : Fld := ⟨0x6003, 35, 1⟩
def KEEP_CSTAT_ST : Fld := ⟨0x6003, 0, 4⟩
def KEEP_HOLDUP_US : Fld := ⟨0x6004, 0, 20⟩
def KEEP_HOTT_US : Fld := ⟨0x6005, 0, 20⟩
def KEEP_KEY0_KEY : Fld := ⟨0x6006, 0, 36⟩
def KEEP_KEY1_KEY : Fld := ⟨0x6007, 0, 36⟩
def KEEP_IRQ_ERR : Fld := ⟨0x6008, 2, 1⟩
def KEEP_IRQ_HOTDONE : Fld := ⟨0x6008, 1, 1⟩
def KEEP_IRQ_CDONE : Fld := ⟨0x6008, 0, 1⟩
def KEEP_IEN_EN : Fld := ⟨0x6009, 0, 3⟩
def KEEP_SEQ_SEQ : Fld := ⟨0x600a, 0, 36⟩
def KEEP_FREE_PAGES : Fld := ⟨0x600b, 0, 20⟩
def KEEP_SKIP_COUNT : Fld := ⟨0x600c, 0, 16⟩
def KEEP_TWINF_COUNT : Fld := ⟨0x600d, 0, 16⟩
def KEEP_REFUSE_COUNT : Fld := ⟨0x600e, 0, 16⟩
def KEEP_HOTSEQ_SEQ : Fld := ⟨0x600f, 0, 36⟩
def KEEP_WEAR_MAX : Fld := ⟨0x6010, 18, 18⟩
def KEEP_WEAR_MIN : Fld := ⟨0x6010, 0, 18⟩
-- R470
def MOR_CTRL_ESCU : Fld := ⟨0x2000, 2, 1⟩
def MOR_CTRL_ESCC : Fld := ⟨0x2000, 1, 1⟩
def MOR_CTRL_LOGEN : Fld := ⟨0x2000, 0, 1⟩
def MOR_STAT_FFLAGS : Fld := ⟨0x2001, 10, 2⟩
def MOR_STAT_FOCLASS : Fld := ⟨0x2001, 8, 2⟩
def MOR_STAT_OVF : Fld := ⟨0x2001, 7, 1⟩
def MOR_STAT_FVALID : Fld := ⟨0x2001, 6, 1⟩
def MOR_STAT_FREAD : Fld := ⟨0x2001, 5, 1⟩
def MOR_STAT_TRANS : Fld := ⟨0x2001, 4, 1⟩
def MOR_FIRST0_MSG : Fld := ⟨0x2002, 0, 36⟩
def MOR_FIRST1_MSG : Fld := ⟨0x2003, 0, 36⟩
def MOR_FIRSTF_FRAME : Fld := ⟨0x2004, 0, 36⟩
def MOR_ACK_FIRST : Fld := ⟨0x2005, 35, 1⟩
def MOR_ACK_ALL : Fld := ⟨0x2005, 34, 1⟩
def MOR_ACK_SRCV : Fld := ⟨0x2005, 33, 1⟩
def MOR_ACK_SRC : Fld := ⟨0x2005, 0, 12⟩
def MOR_CNTC_COUNT : Fld := ⟨0x2006, 0, 16⟩
def MOR_CNTU_COUNT : Fld := ⟨0x2007, 0, 16⟩
def MOR_CNTF_COUNT : Fld := ⟨0x2008, 0, 16⟩
def MOR_QUIET_FRAMES : Fld := ⟨0x2009, 0, 16⟩
def MOR_RECOV_COUNT : Fld := ⟨0x200a, 0, 16⟩
def MOR_IRQ_EV : Fld := ⟨0x200b, 0, 4⟩
def MOR_IEN_EN : Fld := ⟨0x200c, 0, 4⟩
def MOR_LOGHEAD_NEXT : Fld := ⟨0x200d, 0, 8⟩
def MOR_LOGTAIL_TAIL : Fld := ⟨0x200e, 0, 8⟩
def MOR_LOGCNT_COUNT : Fld := ⟨0x200f, 0, 9⟩
def MOR_LOGPOP_N : Fld := ⟨0x2010, 0, 9⟩
def MOR_LOGLOST_COUNT : Fld := ⟨0x2011, 0, 16⟩
def MOR_DROP_COUNT : Fld := ⟨0x2012, 0, 16⟩
def MOR_SRCST_FS (i : Nat) : Fld := ⟨0x2800 + i, 35, 1⟩
def MOR_SRCST_UF (i : Nat) : Fld := ⟨0x2800 + i, 34, 1⟩
def MOR_SRCST_UU (i : Nat) : Fld := ⟨0x2800 + i, 33, 1⟩
def MOR_SRCST_UC (i : Nat) : Fld := ⟨0x2800 + i, 32, 1⟩
def MOR_SRCST_QUIET (i : Nat) : Fld := ⟨0x2800 + i, 0, 16⟩
def CLU_CYC0_LO (k : Nat) : Fld := ⟨cluBase k + 0x20, 0, 36⟩
def CLU_CYC1_HI (k : Nat) : Fld := ⟨cluBase k + 0x21, 0, 36⟩
def CLU_FSTAT_CLU (k : Nat) : Fld := ⟨cluBase k + 0x31, 17, 1⟩
def CLU_FSTAT_SLOT (k : Nat) : Fld := ⟨cluBase k + 0x31, 0, 17⟩
def BLK_FSTAT_UNIT : Fld := ⟨0x10, 16, 20⟩
def BLK_FSTAT_CLU : Fld := ⟨0x10, 0, 16⟩
-- R498
def RPR_CTRL_CALEN : Fld := ⟨0x3000, 4, 1⟩
def RPR_CTRL_PMLOC : Fld := ⟨0x3000, 3, 1⟩
def RPR_CTRL_FREP : Fld := ⟨0x3000, 2, 1⟩
def RPR_CTRL_LKMIG : Fld := ⟨0x3000, 1, 1⟩
def RPR_CTRL_AUTO : Fld := ⟨0x3000, 0, 1⟩
def RPR_STAT_CMDERR : Fld := ⟨0x3001, 7, 1⟩
def RPR_STAT_TCRIT : Fld := ⟨0x3001, 6, 1⟩
def RPR_STAT_FLOORW : Fld := ⟨0x3001, 5, 1⟩
def RPR_STAT_REPFULL : Fld := ⟨0x3001, 4, 1⟩
def RPR_STAT_REPEXH : Fld := ⟨0x3001, 3, 1⟩
def RPR_STAT_NOSPARE : Fld := ⟨0x3001, 2, 1⟩
def RPR_STAT_DEFECT : Fld := ⟨0x3001, 1, 1⟩
def RPR_STAT_MIGABORT : Fld := ⟨0x3001, 0, 1⟩
def RPR_IRQ_EV : Fld := ⟨0x3002, 0, 6⟩
def RPR_IEN_EN : Fld := ⟨0x3003, 0, 6⟩
def RPR_CMD_OP : Fld := ⟨0x3004, 32, 4⟩
def RPR_CMD_CELL : Fld := ⟨0x3004, 13, 8⟩
def RPR_CMD_CLUSTER : Fld := ⟨0x3004, 9, 4⟩
def RPR_CMD_SLOT : Fld := ⟨0x3004, 4, 5⟩
def RPR_CSTAT_BUSY : Fld := ⟨0x3005, 35, 1⟩
def RPR_CSTAT_ST : Fld := ⟨0x3005, 0, 3⟩
def RPR_MIGCNT_COUNT : Fld := ⟨0x3006, 0, 16⟩
def RPR_MIGLAST_VALID : Fld := ⟨0x3007, 35, 1⟩
def RPR_MIGLAST_CAUSE : Fld := ⟨0x3007, 32, 3⟩
def RPR_MIGLAST_ARMED : Fld := ⟨0x3007, 31, 1⟩
def RPR_MIGLAST_CELL : Fld := ⟨0x3007, 23, 8⟩
def RPR_MIGLAST_OLD : Fld := ⟨0x3007, 18, 5⟩
def RPR_MIGLAST_NEW : Fld := ⟨0x3007, 13, 5⟩
def RPR_REPCNT_COUNT : Fld := ⟨0x3008, 0, 16⟩
def RPR_REPDROP_COUNT : Fld := ⟨0x3009, 0, 16⟩
def RPR_CALSTARVE_COUNT : Fld := ⟨0x300a, 0, 16⟩
def RPR_TLIM_WLIM : Fld := ⟨0x300b, 18, 6⟩
def RPR_TLIM_TCRIT : Fld := ⟨0x300b, 9, 9⟩
def RPR_TLIM_TWARN : Fld := ⟨0x300b, 0, 9⟩
def RPR_SLOT_STATE (i : Nat) : Fld := ⟨0x3040 + i, 0, 34⟩
def RPR_SP_ARMEN (i : Nat) : Fld := ⟨0x3050 + i, 35, 1⟩
def RPR_SP_STATE (i : Nat) : Fld := ⟨0x3050 + i, 32, 3⟩
def RPR_SP_ARMPOS (i : Nat) : Fld := ⟨0x3050 + i, 20, 4⟩
def RPR_SP_SLOT (i : Nat) : Fld := ⟨0x3050 + i, 0, 5⟩
def RPR_CLK_DCNT (i : Nat) : Fld := ⟨0x3060 + i, 12, 8⟩
def RPR_CLK_START (i : Nat) : Fld := ⟨0x3060 + i, 9, 3⟩
def RPR_CLK_FLOOR (i : Nat) : Fld := ⟨0x3060 + i, 6, 3⟩
def RPR_CLK_CUR (i : Nat) : Fld := ⟨0x3060 + i, 3, 3⟩
def RPR_SENS_TEMP (i : Nat) : Fld := ⟨0x3070 + i, 27, 9⟩
def RPR_SENS_TMAX (i : Nat) : Fld := ⟨0x3070 + i, 18, 9⟩
def RPR_SENS_MARGIN (i : Nat) : Fld := ⟨0x3070 + i, 12, 6⟩
def CELL_MAP_SLOT (c : Nat) : Fld := ⟨cellBase c + 0x70, 0, 5⟩
-- R514
def THAW_CTRL_MCDONE : Fld := ⟨0xa000, 0, 1⟩
def THAW_STATUS_PHASE : Fld := ⟨0xa001, 32, 4⟩
def THAW_STATUS_HOLD : Fld := ⟨0xa001, 31, 1⟩
def THAW_STATUS_CAUSE : Fld := ⟨0xa001, 24, 7⟩
def THAW_STATUS_UNIT : Fld := ⟨0xa001, 12, 12⟩
def THAW_STATUS_DETAIL : Fld := ⟨0xa001, 0, 12⟩
def THAW_MCTO_MS : Fld := ⟨0xa002, 0, 9⟩
def THAW_PEND_US (i : Nat) : Fld := ⟨0xa010 + i, 0, 19⟩
def THAW_BAD_SLOT (i : Nat) : Fld := ⟨0xa020 + i, 0, 34⟩
-- R535
def DBG_STAT_LEVEL : Fld := ⟨0x8000, 34, 2⟩
def DBG_STAT_FUSE : Fld := ⟨0x8000, 32, 2⟩
def DBG_STAT_GRANT : Fld := ⟨0x8000, 30, 2⟩
def DBG_STAT_ATT : Fld := ⟨0x8000, 29, 1⟩
def DBG_STAT_BLKON : Fld := ⟨0x8000, 28, 1⟩
def DBG_STAT_RST : Fld := ⟨0x8000, 27, 1⟩
def DBG_STAT_HOLD : Fld := ⟨0x8000, 26, 1⟩
def DBG_STAT_PHASE : Fld := ⟨0x8000, 22, 4⟩
def DBG_STAT_RATE : Fld := ⟨0x8000, 20, 2⟩
def DBG_STAT_EMUL : Fld := ⟨0x8000, 0, 16⟩
def DBG_GRANT_LEVEL : Fld := ⟨0x8001, 0, 2⟩
def DBG_PKTERR_COUNT : Fld := ⟨0x8002, 0, 16⟩
def DBG_DIST_DET_DISTURBED (i : Nat) : Fld := ⟨0x8008 + i, 0, 32⟩
def CELL_DCTL_STEP (c : Nat) : Fld := ⟨cellBase c + 0x1c0, 1, 1⟩
def CELL_DCTL_HALT (c : Nat) : Fld := ⟨cellBase c + 0x1c0, 0, 1⟩
def CELL_DCAUSE_V (c : Nat) : Fld := ⟨cellBase c + 0x1c1, 35, 1⟩
def CELL_DCAUSE_BANK (c : Nat) : Fld := ⟨cellBase c + 0x1c1, 4, 4⟩
def CELL_DCAUSE_INFO (c : Nat) : Fld := ⟨cellBase c + 0x1c1, 0, 4⟩
def CELL_DPC_PC (c : Nat) : Fld := ⟨cellBase c + 0x1c2, 0, 34⟩
def CELL_DBSEL_BANKS (c : Nat) : Fld := ⟨cellBase c + 0x1c3, 0, 9⟩
def CELL_DBRK_EN (c i : Nat) : Fld := ⟨cellBase c + 0x1c4 + i, 35, 1⟩
def CELL_DBRK_PC (c i : Nat) : Fld := ⟨cellBase c + 0x1c4 + i, 0, 34⟩
def CELL_DWATL_EN (c i : Nat) : Fld := ⟨cellBase c + 0x1c8 + 2 * i, 35, 1⟩
def CELL_DWATL_R (c i : Nat) : Fld := ⟨cellBase c + 0x1c8 + 2 * i, 34, 1⟩
def CELL_DWATL_W (c i : Nat) : Fld := ⟨cellBase c + 0x1c8 + 2 * i, 33, 1⟩
def CELL_DWATL_LO (c i : Nat) : Fld := ⟨cellBase c + 0x1c8 + 2 * i, 0, 32⟩
def CELL_DWATH_HI (c i : Nat) : Fld := ⟨cellBase c + 0x1c9 + 2 * i, 0, 32⟩
-- R549
def CLU_PWRCTL_WRST (k : Nat) : Fld := ⟨cluBase k + 0x12, 3, 1⟩
def CLU_PWRCTL_DOZEEN (k : Nat) : Fld := ⟨cluBase k + 0x12, 2, 1⟩
def CLU_PWRCTL_REQ (k : Nat) : Fld := ⟨cluBase k + 0x12, 0, 2⟩
def CLU_PWRSTAT_PERR (k : Nat) : Fld := ⟨cluBase k + 0x13, 2, 1⟩
def CLU_PWRSTAT_STATE (k : Nat) : Fld := ⟨cluBase k + 0x13, 0, 2⟩
-- R550
def CLU_RTICK_COUNT (k : Nat) : Fld := ⟨cluBase k + 0x14, 0, 36⟩
-- R558
def BLK_REV_PART : Fld := ⟨0x0, 24, 12⟩
def BLK_REV_MAJOR : Fld := ⟨0x0, 16, 8⟩
def BLK_REV_MINOR : Fld := ⟨0x0, 0, 16⟩

end Reg

/-- What a register word does on reset, read and write (R8, R10, R11): words `first` to `last` of an area. -/
structure RegRow where
  first : Nat
  last : Nat
  reset : Nat
  rw : Nat
  w1c : Nat
  w1s : Nat
  rtc : Nat
  wo : Nat
deriving DecidableEq, Repr

def cellRows0 : List RegRow := [
  ⟨0x40, 0x40, 0x0, 0x0, 0x0, 0x0, 0x0, 0x0⟩,  -- CELL_FCAUSE
  ⟨0x41, 0x41, 0x0, 0x0, 0x0, 0x0, 0x0, 0x0⟩,  -- CELL_FPC
  ⟨0x42, 0x42, 0x0, 0x3ffffffff, 0x0, 0x0, 0x0, 0x0⟩,  -- CELL_FRPC
  ⟨0x43, 0x43, 0x0, 0x0, 0x0, 0x0, 0x0, 0x0⟩,  -- CELL_FADDR
  ⟨0x44, 0x44, 0x0, 0x0, 0x0, 0x0, 0x0, 0x0⟩,  -- CELL_FPADDR0
  ⟨0x45, 0x45, 0x0, 0x0, 0x0, 0x0, 0x0, 0x0⟩,  -- CELL_FPADDR1
  ⟨0x46, 0x46, 0x0, 0x0, 0x0, 0x0, 0xffff, 0x0⟩,  -- CELL_FCOUNT
  ⟨0x47, 0x47, 0x0, 0x0, 0x800000000, 0x0, 0x0, 0x0⟩,  -- CELL_DFAULT
  ⟨0x48, 0x48, 0x0, 0x3, 0x0, 0x0, 0x0, 0x0⟩,  -- CELL_MASK
  ⟨0x49, 0x49, 0x0, 0xffffffff, 0x0, 0x0, 0x0, 0x0⟩,  -- CELL_IVBASE
  ⟨0x4a, 0x4a, 0x0, 0x0, 0x0, 0x0, 0x0, 0x1⟩,  -- CELL_FCTL
  ⟨0x60, 0x60, 0x0, 0x0, 0x0, 0x0, 0x0, 0x0⟩,  -- CELL_ISRV
  ⟨0x68, 0x68, 0x0, 0x8ffffffff, 0x0, 0x0, 0x0, 0x0⟩,  -- CELL_QWINE
  ⟨0x69, 0x69, 0x0, 0x8ffffffff, 0x0, 0x0, 0x0, 0x0⟩,  -- CELL_QWIND
  ⟨0x70, 0x70, 0x0, 0x0, 0x0, 0x0, 0x0, 0x0⟩,  -- CELL_MAP
  ⟨0x80, 0x80, 0x0, 0x3ffffffff, 0x0, 0x0, 0x0, 0x0⟩,  -- CELL_ENTRYn word 0
  ⟨0x81, 0x81, 0x0, 0x3f, 0x100, 0x0, 0x0, 0x0⟩,  -- CELL_ENTRYn word 1
  ⟨0x84, 0x85, 0x0, 0xfffffffff, 0x0, 0x0, 0x0, 0x0⟩,  -- CELL_ENTRYn words 4–5
  ⟨0x86, 0x87, 0x0, 0xfffffffff, 0x0, 0x0, 0x0, 0x0⟩,  -- CELL_ENTRYn words 6–7
  ⟨0xc0, 0xd7, 0x0, 0xfffffffff, 0x0, 0x0, 0x0, 0x0⟩,  -- CELL_SEED
  ⟨0xd8, 0xd8, 0x0, 0xfff, 0x0, 0x0, 0x0, 0x0⟩,  -- CELL_SEEDV
  ⟨0x100, 0x107, 0x0, 0xffffffff, 0x0, 0x0, 0x0, 0x0⟩,  -- CELL_LBUDn
  ⟨0x108, 0x10f, 0x0, 0x0, 0x0, 0x0, 0x0, 0x0⟩,  -- CELL_LUSEDn
  ⟨0x110, 0x110, 0x0, 0x0, 0x0, 0x0, 0xfffffff, 0x0⟩,  -- CELL_OVR
  ⟨0x120, 0x127, 0x0, 0xff87fc000, 0x0, 0x0, 0x0, 0x0⟩,  -- CELL_LCFGn
  ⟨0x128, 0x12f, 0x0, 0x0, 0x0, 0x0, 0xffff, 0x0⟩,  -- CELL_LSTATn
  ⟨0x130, 0x137, 0x0, 0x0, 0x0, 0x0, 0x0, 0x0⟩,  -- CELL_LEVn
  ⟨0x138, 0x13f, 0x0, 0x8ffffffff, 0x0, 0x0, 0x0, 0x0⟩,  -- CELL_TIMn
  ⟨0x140, 0x147, 0x0, 0xffffffff, 0x0, 0x0, 0x0, 0x0⟩,  -- CELL_TRELn
  ⟨0x148, 0x14f, 0x0, 0x0, 0x0, 0x0, 0xffff, 0x0⟩]  -- CELL_LDROPn
def cellRows1 : List RegRow := [
  ⟨0x150, 0x150, 0xf0, 0x0, 0xa00000000, 0x0, 0x0, 0x0⟩,  -- CELL_STATE
  ⟨0x151, 0x151, 0x0, 0x3ffff, 0x0, 0x0, 0x0, 0x0⟩,  -- CELL_HDOM
  ⟨0x152, 0x152, 0x0, 0x0, 0x0, 0x0, 0xffff, 0x0⟩,  -- CELL_POSTX
  ⟨0x158, 0x15f, 0x0, 0x0, 0x0, 0x0, 0x0, 0x0⟩,  -- CELL_LTASKn
  ⟨0x180, 0x180, 0x0, 0x3fc, 0x0, 0x0, 0x0, 0x3⟩,  -- EDIT_CTRL
  ⟨0x181, 0x181, 0x0, 0x0, 0x0, 0x0, 0x0, 0x0⟩,  -- EDIT_STAT
  ⟨0x182, 0x182, 0x0, 0x3ffc, 0x0, 0x0, 0x0, 0x0⟩,  -- EDIT_MAP
  ⟨0x183, 0x183, 0xfa0, 0xffff, 0x0, 0x0, 0x0, 0x0⟩,  -- EDIT_WINDOW
  ⟨0x184, 0x184, 0x3e8, 0xffff, 0x0, 0x0, 0x0, 0x0⟩,  -- EDIT_TIMEOUT
  ⟨0x185, 0x185, 0x0, 0xfffffffff, 0x0, 0x0, 0x0, 0x0⟩,  -- EDIT_AT
  ⟨0x186, 0x186, 0x0, 0xfffffffff, 0x0, 0x0, 0x0, 0x0⟩,  -- EDIT_TAG
  ⟨0x187, 0x187, 0x0, 0x0, 0x0, 0x0, 0x0, 0x0⟩,  -- EDIT_COST
  ⟨0x1c0, 0x1c0, 0x0, 0x2, 0x0, 0x1, 0x0, 0x0⟩,  -- CELL_DCTL
  ⟨0x1c1, 0x1c1, 0x0, 0x0, 0x0, 0x0, 0x0, 0x0⟩,  -- CELL_DCAUSE
  ⟨0x1c2, 0x1c2, 0x0, 0x0, 0x0, 0x0, 0x0, 0x0⟩,  -- CELL_DPC
  ⟨0x1c3, 0x1c3, 0x0, 0x1ff, 0x0, 0x0, 0x0, 0x0⟩,  -- CELL_DBSEL
  ⟨0x1c4, 0x1c7, 0x0, 0xbffffffff, 0x0, 0x0, 0x0, 0x0⟩,  -- CELL_DBRKj
  ⟨0x1c8, 0x1c8, 0x0, 0xeffffffff, 0x0, 0x0, 0x0, 0x0⟩,  -- CELL_DWATj LO
  ⟨0x1c9, 0x1c9, 0x0, 0xffffffff, 0x0, 0x0, 0x0, 0x0⟩]  -- CELL_DWATj HI
/-- Registers of a cell CSR window (R560), entry and watchpoint replicas normalised. -/
def cellRows : List RegRow := cellRows0 ++ cellRows1

def clusterRows0 : List RegRow := [
  ⟨0x10, 0x10, 0x4, 0xc, 0x0, 0x0, 0x0, 0x3⟩,  -- CLU_RUNCTL
  ⟨0x11, 0x11, 0x2, 0x0, 0x18, 0x0, 0x0, 0x0⟩,  -- CLU_RUNSTAT
  ⟨0x12, 0x12, 0x4, 0x7, 0x0, 0x0, 0x0, 0x8⟩,  -- CLU_PWRCTL
  ⟨0x13, 0x13, 0x0, 0x0, 0x4, 0x0, 0x0, 0x0⟩,  -- CLU_PWRSTAT
  ⟨0x14, 0x14, 0x0, 0x0, 0x0, 0x0, 0x0, 0x0⟩,  -- CLU_RTICK
  ⟨0x20, 0x20, 0x0, 0x0, 0x0, 0x0, 0x0, 0x0⟩,  -- CLU_CYC0
  ⟨0x21, 0x21, 0x0, 0x0, 0x0, 0x0, 0x0, 0x0⟩,  -- CLU_CYC1
  ⟨0x30, 0x30, 0x0, 0x0, 0x0, 0x0, 0x0, 0x0⟩,  -- CLU_LOCKUP
  ⟨0x31, 0x31, 0x0, 0x0, 0x3ffff, 0x0, 0x0, 0x0⟩]  -- CLU_FSTAT
/-- Registers of a cluster CSR window (R559). -/
def clusterRows : List RegRow := clusterRows0

def portRows0 : List RegRow := [
  ⟨0x0, 0x0, 0x2c, 0x2f, 0x0, 0x0, 0x0, 0x10⟩,  -- BP_CTRL
  ⟨0x1, 0x1, 0x2, 0x0, 0x18, 0x0, 0x0, 0x0⟩,  -- BP_STAT
  ⟨0x2, 0x2, 0x1f0f1e0, 0xffffffe0, 0x0, 0x0, 0x0, 0x0⟩,  -- BP_NBT
  ⟨0x3, 0x3, 0x28cc000, 0xffffc000, 0x0, 0x0, 0x0, 0x0⟩,  -- BP_DBT
  ⟨0x4, 0x4, 0x80000000c, 0x80000007f, 0x0, 0x0, 0x0, 0x0⟩,  -- BP_TDC
  ⟨0x5, 0x5, 0x180000, 0x0, 0x0, 0x0, 0x7, 0x0⟩,  -- BP_ERR
  ⟨0x6, 0x6, 0x0, 0x0, 0xff, 0x0, 0x0, 0x0⟩,  -- BP_IRQ
  ⟨0x7, 0x7, 0x0, 0xff, 0x0, 0x0, 0x0, 0x0⟩,  -- BP_IEN
  ⟨0x8, 0x8, 0x0, 0xc1fffffff, 0x0, 0x0, 0x0, 0x0⟩,  -- BP_HOLDID
  ⟨0x9, 0x9, 0x0, 0x0, 0x0, 0x0, 0xffff, 0x0⟩,  -- BP_RXDROP
  ⟨0xa, 0xa, 0x0, 0x0, 0x0, 0x0, 0xfffffffff, 0x0⟩,  -- BP_LATE
  ⟨0xb, 0xb, 0x0, 0x0, 0x0, 0x0, 0xffff, 0x0⟩,  -- BP_TXMISS
  ⟨0xc, 0xc, 0x0, 0x0, 0x0, 0x0, 0xffff, 0x0⟩,  -- BP_OVR
  ⟨0xd, 0xd, 0x0, 0x0, 0x0, 0x0, 0xffff, 0x0⟩,  -- BP_QLOST
  ⟨0xe, 0xe, 0x0, 0x0, 0x0, 0x0, 0xffff, 0x0⟩,  -- BP_EFCNT
  ⟨0xf, 0xf, 0x0, 0x0, 0x0, 0x0, 0xffff, 0x0⟩]  -- BP_EGERR
/-- Registers of a backplane port area (R438). -/
def portRows : List RegRow := portRows0

def blockRows0 : List RegRow := [
  ⟨0x0, 0x0, 0x256010000, 0x0, 0x0, 0x0, 0x0, 0x0⟩,  -- BLK_REV
  ⟨0x10, 0x10, 0x0, 0x0, 0xfffff0000, 0x0, 0x0, 0x0⟩,  -- BLK_FSTAT
  ⟨0x20, 0x20, 0x140, 0x1ff, 0x0, 0x0, 0x0, 0x0⟩,  -- BLK_SCRCTL
  ⟨0x21, 0x21, 0x0, 0x0, 0x0, 0x0, 0xfffffffff, 0x0⟩,  -- BLK_SCRCORR
  ⟨0x22, 0x22, 0x0, 0x0, 0x0, 0x0, 0xffff, 0x0⟩,  -- BLK_SCRUNC
  ⟨0x23, 0x23, 0x0, 0x0, 0x0, 0x0, 0xfffffffff, 0x0⟩,  -- BLK_SCRFORCE
  ⟨0x24, 0x24, 0x0, 0x0, 0x0, 0x0, 0xffff, 0x0⟩,  -- BLK_SCRSTARVE
  ⟨0x30, 0x30, 0x0, 0x0, 0x800000000, 0x0, 0x0, 0x0⟩,  -- BLK_RTERR
  ⟨0x40, 0x40, 0x10, 0xff, 0x0, 0x0, 0x0, 0x0⟩,  -- BLK_FMCTL
  ⟨0x44, 0x47, 0x0, 0x0, 0x0, 0x0, 0xffff, 0x0⟩,  -- BLK_FMERRp
  ⟨0x48, 0x4b, 0x0, 0x0, 0x0, 0x0, 0xffff, 0x0⟩,  -- BLK_FMLATEp
  ⟨0x4c, 0x4c, 0x0, 0x0, 0x0, 0x0, 0xffff, 0x0⟩,  -- BLK_SPERR
  ⟨0x1000, 0x1000, 0x2, 0x7, 0x0, 0x0, 0x0, 0x0⟩,  -- FRM_CTRL
  ⟨0x1001, 0x1001, 0x0, 0x0, 0xa0, 0x0, 0x0, 0x0⟩,  -- FRM_STAT
  ⟨0x1002, 0x1002, 0x32dcd5555, 0xfffffffff, 0x0, 0x0, 0x0, 0x0⟩,  -- FRM_PERIOD0
  ⟨0x1003, 0x1003, 0x0, 0x3ff, 0x0, 0x0, 0x0, 0x0⟩,  -- FRM_PERIOD1
  ⟨0x1004, 0x1004, 0x12c0, 0x7fff, 0x0, 0x0, 0x0, 0x0⟩,  -- FRM_TPS
  ⟨0x1005, 0x1005, 0x1, 0x3, 0x0, 0x0, 0x0, 0x0⟩,  -- FRM_DEPTH
  ⟨0x1006, 0x1006, 0x1388, 0xfffff, 0x0, 0x0, 0x0, 0x0⟩,  -- FRM_GUARD
  ⟨0x1007, 0x1007, 0x7d0, 0xfffff, 0x0, 0x0, 0x0, 0x0⟩,  -- FRM_CGUARD
  ⟨0x1008, 0x1008, 0x3, 0xff, 0x0, 0x0, 0x0, 0x0⟩,  -- FRM_OVR_LIMIT
  ⟨0x100a, 0x100a, 0x0, 0xfffffffff, 0x0, 0x0, 0x0, 0x0⟩,  -- FRM_ANCHOR0
  ⟨0x100b, 0x100b, 0x0, 0xfffffff, 0x0, 0x0, 0x0, 0x0⟩,  -- FRM_ANCHOR1
  ⟨0x100c, 0x100c, 0x0, 0x0, 0x0, 0x0, 0x0, 0x0⟩,  -- FRM_COUNT0
  ⟨0x100d, 0x100d, 0x0, 0x0, 0x0, 0x0, 0x0, 0x0⟩,  -- FRM_COUNT1
  ⟨0x100e, 0x100e, 0x0, 0x0, 0x0, 0x0, 0x0, 0x0⟩,  -- FRM_TIME0
  ⟨0x100f, 0x100f, 0x0, 0x0, 0x0, 0x0, 0x0, 0x0⟩,  -- FRM_TIME1
  ⟨0x1010, 0x1010, 0x0, 0x0, 0x0, 0x0, 0x0, 0x0⟩,  -- FRM_TICKT0
  ⟨0x1011, 0x1011, 0x0, 0x0, 0x0, 0x0, 0x0, 0x0⟩,  -- FRM_TICKT1
  ⟨0x1012, 0x1012, 0x0, 0x0, 0x0, 0x0, 0xfffffffff, 0x0⟩]  -- FRM_LATE
def blockRows1 : List RegRow := [
  ⟨0x1013, 0x1013, 0x0, 0x0, 0x0, 0x0, 0xfffffffff, 0x0⟩,  -- FRM_EARLY
  ⟨0x2000, 0x2000, 0x7, 0x7, 0x0, 0x0, 0x0, 0x0⟩,  -- MOR_CTRL
  ⟨0x2001, 0x2001, 0x0, 0x0, 0x80, 0x0, 0x0, 0x0⟩,  -- MOR_STAT
  ⟨0x2002, 0x2002, 0x0, 0x0, 0x0, 0x0, 0x0, 0x0⟩,  -- MOR_FIRST0
  ⟨0x2003, 0x2003, 0x0, 0x0, 0x0, 0x0, 0x0, 0x0⟩,  -- MOR_FIRST1
  ⟨0x2004, 0x2004, 0x0, 0x0, 0x0, 0x0, 0x0, 0x0⟩,  -- MOR_FIRSTF
  ⟨0x2005, 0x2005, 0x0, 0x0, 0x0, 0x0, 0x0, 0xe00000fff⟩,  -- MOR_ACK
  ⟨0x2006, 0x2006, 0x0, 0x0, 0x0, 0x0, 0xffff, 0x0⟩,  -- MOR_CNTC
  ⟨0x2007, 0x2007, 0x0, 0x0, 0x0, 0x0, 0xffff, 0x0⟩,  -- MOR_CNTU
  ⟨0x2008, 0x2008, 0x0, 0x0, 0x0, 0x0, 0xffff, 0x0⟩,  -- MOR_CNTF
  ⟨0x2009, 0x2009, 0x12c0, 0xffff, 0x0, 0x0, 0x0, 0x0⟩,  -- MOR_QUIET
  ⟨0x200a, 0x200a, 0x0, 0x0, 0x0, 0x0, 0xffff, 0x0⟩,  -- MOR_RECOV
  ⟨0x200b, 0x200b, 0x0, 0x0, 0xf, 0x0, 0x0, 0x0⟩,  -- MOR_IRQ
  ⟨0x200c, 0x200c, 0x0, 0xf, 0x0, 0x0, 0x0, 0x0⟩,  -- MOR_IEN
  ⟨0x200d, 0x200d, 0x0, 0x0, 0x0, 0x0, 0x0, 0x0⟩,  -- MOR_LOGHEAD
  ⟨0x200e, 0x200e, 0x0, 0x0, 0x0, 0x0, 0x0, 0x0⟩,  -- MOR_LOGTAIL
  ⟨0x200f, 0x200f, 0x0, 0x0, 0x0, 0x0, 0x0, 0x0⟩,  -- MOR_LOGCNT
  ⟨0x2010, 0x2010, 0x0, 0x0, 0x0, 0x0, 0x0, 0x1ff⟩,  -- MOR_LOGPOP
  ⟨0x2011, 0x2011, 0x0, 0x0, 0x0, 0x0, 0xffff, 0x0⟩,  -- MOR_LOGLOST
  ⟨0x2012, 0x2012, 0x0, 0x0, 0x0, 0x0, 0xffff, 0x0⟩,  -- MOR_DROP
  ⟨0x2800, 0x2c1f, 0x0, 0x0, 0x0, 0x0, 0x0, 0x0⟩,  -- MOR_SRCSTs
  ⟨0x3000, 0x3000, 0x1d, 0x1f, 0x0, 0x0, 0x0, 0x0⟩,  -- RPR_CTRL
  ⟨0x3001, 0x3001, 0x0, 0x0, 0x99, 0x0, 0x0, 0x0⟩,  -- RPR_STAT
  ⟨0x3002, 0x3002, 0x0, 0x0, 0x3f, 0x0, 0x0, 0x0⟩,  -- RPR_IRQ
  ⟨0x3003, 0x3003, 0x0, 0x3f, 0x0, 0x0, 0x0, 0x0⟩,  -- RPR_IEN
  ⟨0x3004, 0x3004, 0x0, 0x0, 0x0, 0x0, 0x0, 0xf001ffff0⟩,  -- RPR_CMD
  ⟨0x3005, 0x3005, 0x0, 0x0, 0x0, 0x0, 0x0, 0x0⟩,  -- RPR_CSTAT
  ⟨0x3006, 0x3006, 0x0, 0x0, 0x0, 0x0, 0xffff, 0x0⟩,  -- RPR_MIGCNT
  ⟨0x3007, 0x3007, 0x0, 0x0, 0x800000000, 0x0, 0x0, 0x0⟩,  -- RPR_MIGLAST
  ⟨0x3008, 0x3008, 0x0, 0x0, 0x0, 0x0, 0xffff, 0x0⟩]  -- RPR_REPCNT
def blockRows2 : List RegRow := [
  ⟨0x3009, 0x3009, 0x0, 0x0, 0x0, 0x0, 0xffff, 0x0⟩,  -- RPR_REPDROP
  ⟨0x300a, 0x300a, 0x0, 0x0, 0x0, 0x0, 0xffff, 0x0⟩,  -- RPR_CALSTARVE
  ⟨0x300b, 0x300b, 0x20fa6e, 0xffffff, 0x0, 0x0, 0x0, 0x0⟩,  -- RPR_TLIM
  ⟨0x3040, 0x304f, 0x100000000, 0x0, 0x0, 0x0, 0x0, 0x0⟩,  -- RPR_SLOTk
  ⟨0x3050, 0x305f, 0x10, 0x800f00000, 0x0, 0x0, 0x0, 0x0⟩,  -- RPR_SPk
  ⟨0x3060, 0x306f, 0xc0, 0xfc0, 0x0, 0x0, 0x0, 0x0⟩,  -- RPR_CLKk
  ⟨0x3070, 0x307f, 0x0, 0x0, 0x0, 0x0, 0x0, 0x0⟩,  -- RPR_SENSk
  ⟨0x4000, 0x4000, 0x3, 0x3, 0x0, 0x0, 0x0, 0x0⟩,  -- IMG_CTRL
  ⟨0x4001, 0x4001, 0x0, 0x0, 0xf, 0x0, 0x0, 0x0⟩,  -- IMG_STAT
  ⟨0x4002, 0x4002, 0x186, 0x0, 0x0, 0x0, 0x0, 0x0⟩,  -- IMG_PLANES
  ⟨0x4003, 0x4003, 0x7d0, 0xfffff, 0x0, 0x0, 0x0, 0x0⟩,  -- IMG_EGRESS_PHASE
  ⟨0x4004, 0x4004, 0x3, 0xff, 0x0, 0x0, 0x0, 0x0⟩,  -- IMG_DEBOUNCE
  ⟨0x4005, 0x4005, 0x0, 0xffffffff, 0x0, 0x0, 0x0, 0x0⟩,  -- IMG_TGACT
  ⟨0x4006, 0x4006, 0x0, 0x0, 0x0, 0x0, 0x0, 0x0⟩,  -- IMG_TGSTAT
  ⟨0x4007, 0x4007, 0x0, 0x0, 0x0, 0x0, 0x0, 0x0⟩,  -- IMG_HAND
  ⟨0x4008, 0x4008, 0x0, 0x0, 0x0, 0x0, 0xfffffffff, 0x0⟩,  -- IMG_INDISC
  ⟨0x4009, 0x4009, 0x0, 0x0, 0x0, 0x0, 0xffff, 0x0⟩,  -- IMG_OWNERR
  ⟨0x400a, 0x400a, 0x0, 0x0, 0x0, 0x0, 0xfffffffff, 0x0⟩,  -- IMG_EGBLK
  ⟨0x400b, 0x400b, 0x0, 0x0, 0x0, 0x0, 0xffff, 0x0⟩,  -- IMG_EGLATE
  ⟨0x400c, 0x400c, 0x0, 0x0, 0x0, 0x0, 0x0, 0x0⟩,  -- IMG_JHEAD
  ⟨0x400d, 0x400d, 0x0, 0x0, 0x0, 0x0, 0xffff, 0x0⟩,  -- IMG_PMCOUNT
  ⟨0x400e, 0x400e, 0x0, 0x0, 0x800000000, 0x0, 0x0, 0x0⟩,  -- IMG_PMLAST
  ⟨0x4020, 0x403f, 0x0, 0x8001fffff, 0x0, 0x0, 0x0, 0x0⟩,  -- IMG_HANDMAPh
  ⟨0x4040, 0x407e, 0x0, 0x800ffffff, 0x0, 0x0, 0x0, 0x0⟩,  -- IMG_INSRCn
  ⟨0x5000, 0x5000, 0x0, 0x0, 0x7, 0x0, 0x0, 0x0⟩,  -- QM_STAT
  ⟨0x5001, 0x5001, 0x0, 0x0, 0x0, 0x0, 0x0, 0x0⟩,  -- QM_DERRQ
  ⟨0x5002, 0x5002, 0x0, 0x0, 0x0, 0x0, 0xffff, 0x0⟩,  -- QM_WERR
  ⟨0x5003, 0x5003, 0x0, 0x0, 0x0, 0x0, 0xffff, 0x0⟩,  -- QM_REFUSED
  ⟨0x5004, 0x5004, 0x0, 0x0, 0x0, 0x0, 0xfffffffff, 0x0⟩,  -- QM_BPREF
  ⟨0x5005, 0x5005, 0x0, 0x0, 0x0, 0x0, 0xffff, 0x0⟩]  -- QM_DBLOST
def blockRows3 : List RegRow := [
  ⟨0x5006, 0x5006, 0x0, 0x0, 0x0, 0x0, 0xffff, 0x0⟩,  -- QM_DWAIT
  ⟨0x5100, 0x510f, 0x0, 0xfffffffff, 0x0, 0x0, 0x0, 0x0⟩,  -- QM_BUF
  ⟨0x5110, 0x5110, 0x0, 0x0, 0x0, 0x0, 0x0, 0x3ffff⟩,  -- QM_CMDc
  ⟨0x5111, 0x5111, 0x0, 0x0, 0x0, 0x0, 0x0, 0x0⟩,  -- QM_CHSTc
  ⟨0x6000, 0x6000, 0x6, 0x7f, 0x0, 0x0, 0x0, 0x0⟩,  -- KEEP_CFG
  ⟨0x6001, 0x6001, 0x0, 0x0, 0x208, 0x0, 0x0, 0x0⟩,  -- KEEP_STAT
  ⟨0x6002, 0x6002, 0x0, 0x0, 0x0, 0x0, 0x0, 0xf00001fff⟩,  -- KEEP_CMD
  ⟨0x6003, 0x6003, 0x0, 0x0, 0x0, 0x0, 0x0, 0x0⟩,  -- KEEP_CSTAT
  ⟨0x6004, 0x6004, 0x0, 0xfffff, 0x0, 0x0, 0x0, 0x0⟩,  -- KEEP_HOLDUP
  ⟨0x6005, 0x6005, 0x0, 0x0, 0x0, 0x0, 0x0, 0x0⟩,  -- KEEP_HOTT
  ⟨0x6006, 0x6006, 0x0, 0x0, 0x0, 0x0, 0x0, 0xfffffffff⟩,  -- KEEP_KEY0
  ⟨0x6007, 0x6007, 0x0, 0x0, 0x0, 0x0, 0x0, 0xfffffffff⟩,  -- KEEP_KEY1
  ⟨0x6008, 0x6008, 0x0, 0x0, 0x7, 0x0, 0x0, 0x0⟩,  -- KEEP_IRQ
  ⟨0x6009, 0x6009, 0x0, 0x7, 0x0, 0x0, 0x0, 0x0⟩,  -- KEEP_IEN
  ⟨0x600a, 0x600a, 0x0, 0x0, 0x0, 0x0, 0x0, 0x0⟩,  -- KEEP_SEQ
  ⟨0x600b, 0x600b, 0x0, 0x0, 0x0, 0x0, 0x0, 0x0⟩,  -- KEEP_FREE
  ⟨0x600c, 0x600c, 0x0, 0x0, 0x0, 0x0, 0xffff, 0x0⟩,  -- KEEP_SKIP
  ⟨0x600d, 0x600d, 0x0, 0x0, 0x0, 0x0, 0xffff, 0x0⟩,  -- KEEP_TWINF
  ⟨0x600e, 0x600e, 0x0, 0x0, 0x0, 0x0, 0xffff, 0x0⟩,  -- KEEP_REFUSE
  ⟨0x600f, 0x600f, 0x0, 0x0, 0x0, 0x0, 0x0, 0x0⟩,  -- KEEP_HOTSEQ
  ⟨0x6010, 0x6010, 0x0, 0x0, 0x0, 0x0, 0x0, 0x0⟩,  -- KEEP_WEAR
  ⟨0x8000, 0x8000, 0x0, 0x0, 0x0, 0x0, 0x0, 0x0⟩,  -- DBG_STAT
  ⟨0x8001, 0x8001, 0x0, 0x3, 0x0, 0x0, 0x0, 0x0⟩,  -- DBG_GRANT
  ⟨0x8002, 0x8002, 0x0, 0x0, 0x0, 0x0, 0xffff, 0x0⟩,  -- DBG_PKTERR
  ⟨0x8008, 0x800f, 0x0, 0x0, 0xffffffff, 0x0, 0x0, 0x0⟩,  -- DBG_DISTi
  ⟨0x9000, 0x9000, 0x0, 0xb, 0x0, 0x4, 0x0, 0x0⟩,  -- STBY_CTRL
  ⟨0x9001, 0x9001, 0x0, 0x0, 0xf0, 0x0, 0x0, 0x0⟩,  -- STBY_STAT
  ⟨0x9002, 0x9002, 0x0, 0xbffffffff, 0x0, 0x0, 0x0, 0x0⟩,  -- STBY_INRANGE
  ⟨0x9003, 0x9003, 0x400, 0x7ff, 0x0, 0x0, 0x0, 0x0⟩,  -- STBY_MAXL
  ⟨0x9004, 0x9004, 0x249f0, 0xfffff, 0x0, 0x0, 0x0, 0x0⟩]  -- STBY_CUTOFF
def blockRows4 : List RegRow := [
  ⟨0x9005, 0x9005, 0x2010, 0xffff, 0x0, 0x0, 0x0, 0x0⟩,  -- STBY_WINDOW
  ⟨0x9006, 0x9006, 0x3, 0xf, 0x0, 0x0, 0x0, 0x0⟩,  -- STBY_MISS_LIMIT
  ⟨0x9007, 0x9007, 0x0, 0x0, 0x0, 0x0, 0x0, 0x0⟩,  -- STBY_WORDS
  ⟨0x9008, 0x9008, 0x0, 0x0, 0x0, 0x0, 0x0, 0x0⟩,  -- STBY_LINES
  ⟨0x9009, 0x9009, 0x0, 0x0, 0x0, 0x0, 0x0, 0x0⟩,  -- STBY_BACKLOG
  ⟨0x900a, 0x900a, 0x0, 0x0, 0x0, 0x0, 0xffff, 0x0⟩,  -- STBY_MISSCNT
  ⟨0x900b, 0x900b, 0x0, 0x0, 0x0, 0x0, 0xffff, 0x0⟩,  -- STBY_CRCERR
  ⟨0x900c, 0x900c, 0x0, 0x0, 0x0, 0x0, 0xffff, 0x0⟩,  -- STBY_LRETRY
  ⟨0x900d, 0x900d, 0x0, 0x0, 0x0, 0x0, 0xfffffffff, 0x0⟩,  -- STBY_UNTRK
  ⟨0x900e, 0x900e, 0x0, 0x0, 0x0, 0x0, 0x0, 0x0⟩,  -- STBY_LASTF
  ⟨0xa000, 0xa000, 0x0, 0x0, 0x0, 0x0, 0x0, 0x1⟩,  -- THAW_CTRL
  ⟨0xa001, 0xa001, 0x100000000, 0x0, 0x0, 0x0, 0x0, 0x0⟩,  -- THAW_STATUS
  ⟨0xa002, 0xa002, 0xaf, 0x1ff, 0x0, 0x0, 0x0, 0x0⟩,  -- THAW_MCTO
  ⟨0xa011, 0xa015, 0x0, 0x0, 0x0, 0x0, 0x0, 0x0⟩,  -- THAW_PENDi
  ⟨0xa020, 0xa02f, 0x0, 0x0, 0x0, 0x0, 0x0, 0x0⟩,  -- THAW_BADk
  ⟨0xa100, 0xa100, 0x0, 0x3fffc, 0x0, 0x0, 0x0, 0x3⟩,  -- LDV_CTRL
  ⟨0xa101, 0xa101, 0x0, 0x0, 0x0, 0x0, 0x0, 0x0⟩,  -- LDV_STAT
  ⟨0xa102, 0xa102, 0x0, 0x0, 0x0, 0x0, 0x0, 0xfffffffff⟩,  -- LDV_DATA
  ⟨0xa103, 0xa103, 0x0, 0x3ffff, 0x0, 0x0, 0x0, 0x0⟩,  -- LDV_MINSEQ
  ⟨0xa104, 0xa104, 0x0, 0x0, 0x0, 0x0, 0x0, 0x0⟩,  -- LDV_VALID
  ⟨0xa110, 0xa11f, 0x0, 0x0, 0x0, 0x0, 0x0, 0x0⟩,  -- LDV_CLSEQk
  ⟨0x10000, 0x10000, 0x0, 0xe0000ffff, 0x0, 0x0, 0x0, 0x0⟩,  -- IRQ_CFGs
  ⟨0x10001, 0x10001, 0x0, 0x0, 0x10, 0x0, 0x0, 0x0⟩,  -- IRQ_STs
  ⟨0x12000, 0x12000, 0x0, 0x0, 0x0, 0x0, 0x0, 0xfff⟩,  -- IRQ_ASSERT
  ⟨0x12001, 0x12001, 0x0, 0x0, 0x0, 0x0, 0x0, 0xfff⟩,  -- IRQ_DEASSERT
  ⟨0x12002, 0x12002, 0x0, 0x0, 0x0, 0x0, 0x0, 0xfff⟩,  -- IRQ_PULSE
  ⟨0x12003, 0x12003, 0x0, 0x0, 0x0, 0x0, 0x0, 0xfff⟩,  -- IRQ_PENDSET
  ⟨0x12004, 0x12004, 0x0, 0x0, 0x0, 0x0, 0x0, 0xfff⟩,  -- IRQ_PENDCLR
  ⟨0x12005, 0x12005, 0x0, 0x0, 0x3, 0x0, 0x0, 0x0⟩,  -- IRQ_STAT
  ⟨0x12006, 0x12006, 0x0, 0x0, 0x0, 0x0, 0xfffffffff, 0x0⟩]  -- IRQ_LOST
def blockRows5 : List RegRow := [
  ⟨0x12007, 0x12007, 0x0, 0x0, 0x0, 0x0, 0xffff, 0x0⟩]  -- IRQ_SPUR
/-- The other registers of block control space, at their offsets, channel and source replicas normalised. -/
def blockRows : List RegRow := blockRows0 ++ blockRows1 ++ blockRows2 ++ blockRows3 ++ blockRows4 ++ blockRows5

def findRow (off : Nat) (l : List RegRow) : Option RegRow := l.find? (fun r => decide (r.first ≤ off ∧ off ≤ r.last))

/-- A control-space offset split into its area's rows and the offset there, replicas brought to the first one
(R555): IRQ source words, channels, entry registers and watchpoints. -/
def regRow (off : Nat) : Option RegRow :=
  if 0xC0000 ≤ off then
    let o := (off - 0xC0000) % 0x400
    if 0x80 ≤ o ∧ o < 0xC0 then findRow (0x80 + o % 8) cellRows
    else if 0x1C8 ≤ o ∧ o ≤ 0x1CB then findRow (0x1C8 + o % 2) cellRows
    else findRow o cellRows
  else if 0x80000 ≤ off ∧ off < 0x90000 then findRow ((off - 0x80000) % 0x1000) clusterRows
  else if 0x30000 ≤ off ∧ off < 0x34000 then
    some ⟨0, 0, 0, 0xFFFFFFFFF, 0, 0, 0, 0⟩
  else if 0x20000 ≤ off ∧ off < 0x20800 then
    -- region table (R305)
    match off % 4 with
    | 0 => some ⟨0, 0, 0, 0x8FFFFFFC0, 0, 0, 0, 0⟩
    | 1 => some ⟨0, 0, 0, 0x007FFFFFF, 0, 0, 0, 0⟩
    | 2 => some ⟨0, 0, 0, 0xFFFFFFFC0, 0, 0, 0, 0⟩
    | _ => some ⟨0, 0, 0, 0xF00003FFF, 0, 0, 0, 0⟩
  else if 0x10002 ≤ off ∧ off < 0x12000 then findRow (0x10000 + off % 2) blockRows
  else if 0x7000 ≤ off ∧ off < 0x8000 then
    let o := (off - 0x7000) % 0x200
    if 0x100 ≤ o then
      -- acceptance filters (R418)
      if o % 2 = 0 then some ⟨0, 0, 0, 0xF9FFFFFFF, 0, 0, 0, 0⟩ else some ⟨0, 0, 0, 0xFDFFFFFFF, 0, 0, 0, 0⟩
    else findRow o portRows
  else if 0x5100 ≤ off ∧ off < 0x5500 then findRow (0x5100 + off % 32) blockRows
  else if 0x2400 ≤ off ∧ off < 0x2800 then some ⟨0, 0, 0, 0, 0, 0, 0, 0⟩
  else if off = 0x10000 ∨ off = 0x10001 then none
  else findRow off blockRows

/-- The value of a register word after a block reset (R11), which an unlisted word of control space reads as. -/
def resetWord (off : Nat) : Word :=
  let base : Word := match regRow off with
    | some r => BitVec.ofNat 36 r.reset
    | none => 0
  if 0xC0000 ≤ off then
    let o := (off - 0xC0000) % 0x400
    if o = 0x120 then setFld base 34 1 1
    else if o = 0x70 then BitVec.ofNat 36 ((off - 0xC0000) / 0x400 % 16)
    else base
  else base

end Sys2Proof.Machine
end

