-- ==== Sys2Proof/Machine/Sparse.lean ====
section
/-! DEFINITION. Sparse.lean: sparse tables as lists of (key, value) pairs in one canonical form: keys strictly
rising, no entry equal to what an unlisted key reads as; and sorted sets of keys. -/

namespace Sys2Proof.Machine

/-- The entry listed for a key. -/
def slookup {α : Type} (k : Nat) : List (Nat × α) → Option α
  | [] => none
  | (k', v) :: l => if k' = k then some v else slookup k l

/-- Lists `v` for `k`, keeping the keys rising. -/
def sinsert {α : Type} (k : Nat) (v : α) : List (Nat × α) → List (Nat × α)
  | [] => [(k, v)]
  | (k', v') :: l =>
    if k < k' then (k, v) :: (k', v') :: l
    else if k = k' then (k, v) :: l
    else (k', v') :: sinsert k v l

/-- Removes the entry of a key. -/
def serase {α : Type} (k : Nat) (l : List (Nat × α)) : List (Nat × α) := l.filter (fun e => e.1 ≠ k)

/-- Reads a key; an unlisted key reads as `d`. -/
def sget {α : Type} (d : α) (k : Nat) (l : List (Nat × α)) : α := (slookup k l).getD d

/-- Writes a key; a value equal to `d` leaves the key unlisted. -/
def sput {α : Type} [DecidableEq α] (d : α) (k : Nat) (v : α) (l : List (Nat × α)) : List (Nat × α) :=
  if v = d then serase k l else sinsert k v l

/-- Keys strictly rising, and no entry equal to its default `d k`. -/
def swf {α : Type} [DecidableEq α] (d : Nat → α) : List (Nat × α) → Bool
  | [] => true
  | (k, v) :: l => decide (v ≠ d k) && l.all (fun e => decide (k < e.1)) && swf d l

/-- Adds a member to a sorted set. -/
def setInsert (k : Nat) : List Nat → List Nat
  | [] => [k]
  | k' :: l => if k < k' then k :: k' :: l else if k = k' then k' :: l else k' :: setInsert k l

def setErase (k : Nat) (l : List Nat) : List Nat := l.filter (fun e => e ≠ k)

/-- Member or not, as asked. -/
def setPut (k : Nat) (b : Bool) (l : List Nat) : List Nat := if b then setInsert k l else setErase k l

/-- A sorted set: members strictly rising. -/
def setWf : List Nat → Bool
  | [] => true
  | k :: l => l.all (fun e => decide (k < e)) && setWf l

end Sys2Proof.Machine
end

