-- ==== Sys2Proof/Machine/State.lean ====
section
/-! DEFINITION. State.lean: the state of the block as plain data, and its value right after a block reset.
Registers of block control space live in `ctl`, memories in `mem`, each listed sparsely: an unlisted register
reads as its reset word (R11), an unlisted memory word as 0 (R502). -/

namespace Sys2Proof.Machine

open Sys2Proof

/-- What stops the model as a whole. No command of this block does: every case has one result in the spec. -/
inductive Fault where
  /-- Raised by no command: the spec gives every access an answer (R16, R297). Safe. -/
  | none
deriving DecidableEq, Repr

/-- Why a command has no meaning. -/
inductive Refusal where
  /-- Raised by a command whose meaning is not written yet. Safe: nothing can be proved of it. -/
  | notModelled (mnemonic : String)
deriving DecidableEq, Repr

/-! ## Cells -/

/-- A capability with its hidden tag (R243). -/
structure Cap where
  lo : Word
  hi : Word
  tag : Bool
deriving DecidableEq, Repr

def Cap.null : Cap := ⟨0, 0, false⟩

/-- The LINK register (R266). -/
structure Link where
  occ : Bool
  n : BitVec 3
  args : BitVec 3
  res : BitVec 3
  pc : SylAddr
  dsp : VAddr
  rsp : VAddr
  c2 : Cap
  c3 : Cap
deriving DecidableEq, Repr

def Link.empty : Link := ⟨false, 0, 0, 0, 0, 0, 0, Cap.null, Cap.null⟩

/-- Why a window slot is marked (R112, R192): fault code, INFO, and the addresses the fault record names. -/
structure SlotMark where
  slot : Nat
  code : BitVec 4
  info : BitVec 8
  va : VAddr
  pa : Nat
deriving DecidableEq, Repr

/-- A register bank (R271). -/
structure Bank where
  /-- data window: ring slots (R110) and occupancy -/
  dwin : Vector Word 16
  dw : Nat
  /-- return window (R115) and occupancy -/
  rwin : Vector Word 8
  rw : Nat
  pc : SylAddr
  dsp : VAddr
  rsp : VAddr
  a : Vector VAddr 4
  c : Vector Cap 4
  /-- P0 to P7; bit 0 is always 1 -/
  p : BitVec 8
  flags : Word
  rc : Word
  acc0 : Acc
  acc1 : Acc
  link : Link
  mask : BitVec 2
  dom : BitVec 6
  /-- pending load shadow: data-window slot and the old value it still shows (R120, R122) -/
  shadow : List (Nat × Word)
  /-- data-window slots that wait for a load's data (R191), with the load's number -/
  pend : List (Nat × Nat)
  /-- marked data-window slots and return-window slots -/
  dmark : List SlotMark
  rmark : List SlotMark
deriving DecidableEq, Repr

/-- A bank after a block reset (R123, R247, R273). -/
def Bank.reset : Bank :=
  { dwin := Vector.replicate 16 0, dw := 0, rwin := Vector.replicate 8 0, rw := 0, pc := 0, dsp := 0, rsp := 0,
    a := Vector.replicate 4 0, c := Vector.replicate 4 Cap.null, p := 1, flags := 0, rc := 0, acc0 := 0, acc1 := 0,
    link := Link.empty, mask := 0, dom := 0, shadow := [], pend := [], dmark := [], rmark := [] }

/-- A store-buffer entry (R201, R203): one word, or the two words of a WIDE store or CST, which drain together. -/
structure SbEntry where
  pa : Nat
  words : List (Word × BitVec 4)
  tag : Bool
  dev : Bool
  /-- the store went through a region with RET = 1 (R372) -/
  ret : Bool
  /-- bank that stored it (R205) -/
  bank : Nat
  /-- sent to the fabric, its response awaited -/
  issued : Bool
  /-- a doubleword store by CST or WIDE -/
  dbl : Bool
  /-- a block unit has answered the drain with RETRY (R206) -/
  waited : Bool := false
deriving DecidableEq, Repr

/-- One word of a load: its virtual and physical address, what has come (nothing yet, an error `some none`, or the word), and
whether it is a device access. -/
structure LoadWord where
  va : Nat
  pa : Nat
  got : Option (Option Word)
  dev : Bool := false
deriving DecidableEq, Repr

/-- A word that a microroutine has staged for memory (R215): virtual and physical address, word, nonets, the hidden tag, and
whether it is half of a doubleword write. -/
structure StagedWord where
  va : Nat
  pa : Nat
  via : Option Nat
  dev : Bool
  word : Word
  en : BitVec 4
  tag : Bool
  dbl : Bool
deriving DecidableEq, Repr

/-- What a microword has computed, on which its condition is evaluated (R219): the operands A and B, the ALU's result with its carry
and its signed overflow, the overflow of S80, the result that DST takes, and what stands for the wheel slot. -/
structure MicroRes where
  a : Nat
  b : Nat
  r : Nat
  carry : Bool
  ovf : Bool
  macOvf : Bool
  v : Nat
  free : Nat
deriving DecidableEq, Repr

/-- A microroutine in progress (R214-R217): the next microaddress, the internal resources, the carry of the microword
before, the bank with the staged writes and the staged memory words. -/
structure Micro where
  upc : Nat
  t : Vector (BitVec 72) 4
  lc : BitVec 9
  /-- return microaddresses, the last one first -/
  stack : List Nat
  md : BitVec 72
  mdTag : Bool
  /-- the memory access of the routine has returned (COND 0o20), and the last capability check passed (COND 0o22) -/
  mdOk : Bool
  capOk : Bool
  carry : Bool
  bank : Bank
  mem : List StagedWord
  /-- a WAIT microword has acted and waits for its condition (R220), with what it has computed -/
  hold : Option MicroRes
  /-- a task control word whose save is staged: level, task and registers (R215, R229) -/
  tcw : Option (Nat × Nat × Bank)
  /-- address of the instruction -/
  pc : SylAddr
  /-- the routine has written the PC -/
  jumped : Bool
  /-- cycles of the microwords so far (R216) -/
  spent : Nat
  /-- the queue operation of the routine: queue, and whether it dequeues (R229) -/
  queue : Option (Nat × Bool)
deriving DecidableEq, Repr

/-- A load that has left the cell and whose data have not come back (R191, R199). -/
structure PendLoad where
  id : Nat
  bank : Nat
  /-- data-window slots and the word of the load each one takes -/
  slots : List (Nat × Nat)
  /-- the nonet a nonet load takes -/
  nonet : Option (BitVec 2)
  words : List LoadWord
  /-- words merged from the store buffer: index, word, nonets -/
  fwd : List (Nat × Word × BitVec 4)
deriving DecidableEq, Repr

/-- A line of the data cache (R302): line address (physical address / 8), region entry it was filled through,
and, for the fabric, its words; a line of cluster memory is coherent (R303) and keeps no copy. -/
structure CacheLine where
  line : Nat
  via : Nat
  words : List Word
  /-- words of the line that the cache holds with an error (R320): true for an uncorrectable one -/
  err : List (Nat × Bool) := []
deriving DecidableEq, Repr

/-- An asynchronous fault that waits to be raised (R257, R276). -/
structure HeldFault where
  code : BitVec 4
  info : BitVec 8
  /-- level whose work the fault concerns -/
  level : Nat
  fa : VAddr
  pa : Nat
deriving DecidableEq, Repr

/-- The staging set (R291). -/
structure Staging where
  level : Nat
  task : Nat
  bank : Bank
deriving DecidableEq, Repr

/-- A translated address: physical word address, region entry used (none: home region), device class, CACHE (R304-R307). -/
structure Phys where
  pa : Nat
  via : Option Nat
  dev : Bool
  cache : Nat
deriving DecidableEq, Repr

/-- A cell's own state beside its CSR window. -/
structure Cell where
  /-- banks 0-7 L0-L7, 8 I, 9 F, 10 D; an unlisted bank is `Bank.reset` -/
  banks : List (Nat × Bank)
  staging : Option Staging
  /-- banks from which the I-bank and the D-bank were entered (R263); 15 idle -/
  iFrom : Nat
  dFrom : Nat
  /-- level whose bank was left to enter the handlers, to which their cycles count (R259); 15 none -/
  hLevel : Nat
  /-- the cell is entering the F-bank: accepted, no F-bank instruction has completed yet (R264) -/
  entF : Bool
  /-- pending cold entry (R252): 0 none, 1 from a cold reset, 2 from a warm reset -/
  cold : Nat
  held : List HeldFault
  sb : List SbEntry
  /-- branch history counters that are not 01 (R194) -/
  bht : List (Nat × Nat)
  /-- data cache, most recently used line first -/
  dcache : List CacheLine
  /-- instruction cache (R302), most recently used line first: each line with its words as they were filled (R208) -/
  icache : List CacheLine
  /-- code words of the last four fetched whose fetch cost something, by physical address, newest first (R210) -/
  pq : List Nat
  /-- region sets that are filled (R308): bank (11 the staging set), and the domain whose installed entries it holds -/
  sets : List (Nat × BitVec 6)
  loads : List PendLoad
  /-- a load on which a Deterministic cell waits (R190): the bank as it stood before it -/
  stall : Option (Nat × Bank)
  /-- fabric words read for the instruction in progress: address, and the word or an error -/
  got : List (Nat × Option Word)
  /-- addresses to which the instruction in progress has already copied a word: a SAVEM item, DEQ's buffer, ENQ's ring -/
  sent : List Nat
  /-- words of its instance that the function block in progress has read and been charged for, by virtual address (R151) -/
  seen : List (Nat × Word)
  /-- translations under which the instruction in progress has made requests: they keep their old physical addresses when the
  region table changes (R309) -/
  xlat : List (Nat × Phys)
  /-- an access of the instruction in progress hit a watchpoint, reported when the instruction completes (R529) -/
  watch : Bool
  /-- a REPN, an item of SAVEM or LOADM, or the writes of a function block's instance have begun and wait for memory: no switch
  is accepted (R29, R155, R200) -/
  hold : Bool
  /-- levels whose work was abandoned for their cycle budget and start no activation before a tick (R49) -/
  noStart : BitVec 8
  /-- levels whose last activation became DONE through FEND (R357) -/
  fended : BitVec 8
  /-- level 0 executed FEND in this frame (R50) -/
  fend : Bool
  /-- level 0 overran in this frame (R52) -/
  late : Bool
  /-- DRET resumed at a breakpoint, which does not match again there (R530); armed single step (R531) -/
  skipBrk : Bool
  step : Bool
  /-- a debug entry was requested and waits (R529): its INFO -/
  dreq : Option (BitVec 4)
  /-- a warm reset waits until the store buffer has drained (R205) -/
  resetDue : Bool
  /-- a swap window of an online edit waits to open in the cell, and step 5 of the tick waits for it (R18, R358) -/
  win : Bool
  tickDue : Bool
  /-- dispatch index of the instruction in DE (R213), and its routine in progress; kept while the cluster's image is not
  Onaed's (R216) -/
  opc : Nat
  micro : Option Micro
deriving DecidableEq, Repr

/-- A cell right after a block reset: idle, with a cold entry pending (R252). -/
def Cell.reset : Cell :=
  { banks := [], staging := none, iFrom := 15, dFrom := 15, hLevel := 15, entF := false, cold := 1, held := [], sb := [], bht := [],
    dcache := [], icache := [], pq := [], sets := [], loads := [], stall := none, got := [], sent := [], seen := [], xlat := [],
    watch := false, hold := false, noStart := 0, fended := 0, fend := false, late := false, skipBrk := false, step := false, dreq := none, resetDue := false, win := false, tickDue := false, opc := 0,
    micro := none }

/-! ## Messages, fabric -/

/-- A fault message (R457). -/
structure Msg where
  src : Nat
  kind : BitVec 8
  /-- 1 C, 2 U, 3 F -/
  cls : Nat
  av : Bool
  pers : Bool
  info : Nat
deriving DecidableEq, Repr

/-- What a fabric transaction serves (R315). -/
inductive FabUse where
  /-- a pending load of a cell, by number; `line` when the whole cache line is read -/
  | load (id : Nat) (line : Option Nat)
  /-- words for a blocking instruction of the cell; `line` when a whole line of the data cache is read (R302) -/
  | words (line : Option Nat)
  /-- the same, for an instruction that was abandoned -/
  | dropped
  /-- the head entry of the cell's store buffer -/
  | drain
  /-- a spill or another write whose completion nothing awaits -/
  | write
  /-- a speculative line fill through a region entry -/
  | prefetch (via : Nat)
  /-- a line of the instruction cache, filled through a region entry (R302) -/
  | code (via : Nat)
deriving DecidableEq, Repr

/-- A transaction of a fabric master port (R314, R315). -/
structure FabTx where
  port : Nat
  tag : Nat
  cell : Nat
  addr : Nat
  beats : Nat
  wr : Bool
  dev : Bool
  spec : Bool
  dw : Bool
  data : List (Word × BitVec 4)
  purpose : FabUse
  /-- request-lane beats not sent yet (R313) -/
  unsent : Nat
  /-- answered RETRY, to be issued again (R317) -/
  retry : Bool
deriving DecidableEq, Repr

/-- The fabric master ports (R313-R317). -/
structure Fabric where
  txs : List FabTx
  credits : Vector Nat 4
  qinit : Vector Bool 4
  /-- TAGs (port, tag) whose transaction timed out and whose response has not come -/
  retired : List (Nat × Nat)
deriving DecidableEq, Repr

def Fabric.reset : Fabric :=
  { txs := [], credits := Vector.replicate 4 0, qinit := Vector.replicate 4 true, retired := [] }

/-- A region-table entry as installed (R306). -/
structure Region where
  vbase : Nat
  size : Nat
  pbase : Nat
  ret : Bool
  dev : Bool
  cache : BitVec 2
deriving DecidableEq, Repr

/-- The answer to a transaction at the slave port (R318), with the beats of a read. -/
inductive Answer where
  | okay (d : List DWord)
  | retry
  | error
deriving DecidableEq, Repr

/-- The slave port (R318): the credits that the chip holds of the block's grant of 32, SP_QINIT, and the last response with its
TAG. -/
structure SlavePort where
  credits : Nat
  qinit : Bool
  last : Option (BitVec 8 × Answer)
deriving DecidableEq, Repr

def SlavePort.reset : SlavePort := { credits := 0, qinit := true, last := none }

/-- A scrubber (R320, R321): the word it reads next, and its consecutive yields. -/
structure Scrubber where
  pos : Nat
  yields : Nat
deriving DecidableEq, Repr

def Scrubber.reset : Scrubber := { pos := 0, yields := 0 }

/-! ## Frame clock (02) -/

/-- The frame settings that were checked when EN last went from 0 to 1 (R39, R40): the period in 2^-16 ns, the
others as their registers. -/
structure Timeline where
  period : Nat
  tps : Nat
  anchor : Nat
  depth : Nat
  guard : Nat
  cguard : Nat
deriving DecidableEq, Repr

/-- The frame clock beside its registers. Instants are counts of 2^-16 ns. -/
structure FrameClock where
  /-- frame time (R30) and the time port's value at its last update -/
  now : Nat
  port : Nat
  /-- settings in use; none before the checks of R40 pass -/
  line : Option Timeline
  /-- since when EN = 1 and LOCK = 1 both hold, before the first tick (R40) -/
  since : Option Nat
  /-- number of the next tick, once the first one is placed, and of the first one -/
  next : Option Nat
  first : Nat
  /-- ideal instant of the last tick -/
  tickAt : Nat
  /-- difference that a slew still absorbs (R31) and SLEW as it applies to the frame in progress (R39) -/
  slew : Int
  rate : Nat
  /-- frame time at the last update or at the beginning of holdover, and the fabric cycles since then that a read of FRM_TIME has
  already found passed (R30, R33, R540) -/
  base : Nat
  cyc : Nat
  /-- advance of the port between the last two updates, and the fabric cycles in which it advanced (R540) -/
  pace : Nat × Nat
  /-- difference that frame time absorbs from `base` on, and over how many fabric cycles (R30) -/
  absorb : Int
  span : Nat
  /-- offset from the port that R32 keeps -/
  keep : Option Int
  /-- TP_LOCK at its last change, and whether the PPS check passes (R540) -/
  lockPin : Bool
  ppsOk : Bool
  /-- LEVEL0_DEADLINE has come in this frame (R50) -/
  dlSeen : Bool
  /-- clusters that were outside RUN at some time in this frame (R365) -/
  outRun : List Nat
deriving DecidableEq, Repr

def FrameClock.reset : FrameClock :=
  { now := 0, port := 0, line := none, since := none, next := none, first := 0, tickAt := 0, slew := 0, rate := 1, base := 0,
    cyc := 0, pace := (81920, 1), absorb := 0, span := 12800, keep := none, lockPin := false, ppsOk := true, dlSeen := false, outRun := [] }

/-! ## Rime (12) -/

/-- The marks that Rime fixed at a plane's edge (R330): force entries of the plane's direction in increasing entry
number, word ranges of the active test groups, stale ingress sources, and cells whose outputs are held (1 at least
questionable, 2 invalid) with the ownership table at the edge. -/
structure Marks where
  forces : List (Word × Word)
  ranges : List (Nat × Nat)
  stale : List Nat
  held : List (Nat × Nat)
  owners : List (Nat × Word)
  /-- range of input words that a missed standby frame makes at least questionable (R377) -/
  missed : Option (Nat × Nat)
deriving DecidableEq, Repr

def Marks.none : Marks := ⟨[], [], [], [], [], .none⟩

/-- A plane: whether unlisted words hold the initial values of R327, or 0 before the first start; the words that
differ; and its marks. -/
structure Plane where
  init : Bool
  words : List (Nat × Word)
  marks : Marks
deriving DecidableEq, Repr

def Plane.empty : Plane := ⟨false, [], Marks.none⟩

/-- An accepted image store of a Paired cell, for the comparison of R339: word index, lane (15 for STIM), data. -/
structure PairStore where
  index : Nat
  lane : Nat
  data : Word
deriving DecidableEq, Repr

/-- An egress pass (R349): frame number of the committed outputs, ideal instant of the commit edge's tick, and EGEN and
phi in ns as they apply to the pass (R352), and whether the pass was prepared before its commit edge (R349, D = 2). -/
structure EgressPass where
  frame : Nat
  stamp : Nat
  egen : Bool
  phi : Nat
  ready : Bool
deriving DecidableEq, Repr

structure Rime where
  fill : Plane
  lat : Plane
  prev : Plane
  /-- E(N-1): output content of the frame before (R329) -/
  ebase : Plane
  /-- last accepted store of the frame to each output word: word, value, writing cell -/
  stores : List (Nat × Word × Nat)
  comm : Plane
  prevComm : Plane
  /-- words of the ingress map and the output type table at the start (R327) -/
  types : List (Nat × Word)
  /-- no commit has been made since the start -/
  first : Bool
  /-- cells whose writes of this frame are excluded, and how their outputs are held (R331); the same of the frame
  before, whose commit is still to come with D = 2 -/
  excl : List (Nat × Nat)
  exclPrev : List (Nat × Nat)
  /-- accepted stores of Paired cells in this frame, oldest first -/
  pairs : List (Nat × List PairStore)
  /-- pairs that have mismatched in this frame -/
  mismatched : List Nat
  /-- ticks since an entry of a source was last latched (R336), and sources that wrote into the filling plane -/
  age : List (Nat × Nat)
  wrote : List Nat
  /-- sources that failed their check (R332), and sources whose queue became unusable -/
  failed : List Nat
  unusable : List Nat
  /-- a pass that waits for its publication (R349) -/
  egress : Option EgressPass
  /-- hand inputs whose changed state enters the frame after the next tick (R46, R347): input, state -/
  hand : List (Nat × Bool)
  /-- inputs whose last sample differs from their debounced state, their counts c (R344), and IMG_DEBOUNCE as it stood at the
  last tick (R352) -/
  differs : List Nat
  counts : List (Nat × Nat)
  frames : Nat
  /-- IMG_EGRESS_PHASE.NS as it stood at the last tick (R352) -/
  phase : Nat
deriving DecidableEq, Repr

def Rime.reset : Rime :=
  { fill := Plane.empty, lat := Plane.empty, prev := Plane.empty, ebase := Plane.empty, stores := [],
    comm := Plane.empty, prevComm := Plane.empty, types := [], first := true, excl := [], exclPrev := [], pairs := [],
    mismatched := [], age := [], wrote := [], failed := [], unusable := [], egress := none, hand := [],
    differs := [], counts := [], frames := 3, phase := 2000 }

/-! ## Queue manager (15) -/

/-- Who asks for a reservation (R403). -/
inductive QAgent where
  /-- Rime's egress: the record, the frame number of the pass and the entry it publishes -/
  | rime (record frame : Nat) (entry : List Word)
  /-- a backplane port and the ingress entry it forwards (R424) -/
  | port (n : Nat) (entry : List Word)
  | channel (ch : Nat)
  | cell (c : Nat)
deriving DecidableEq, Repr

/-- What an operation finds at its grant (R403, R404): it proceeds, it proceeds by discarding the head of a full
queue, or it ends with a status value and changes no entry. -/
inductive QPlan where
  | go
  | dropOld
  | status (st : Nat)
deriving DecidableEq, Repr

/-- A reservation held or asked for: queue, dequeue or enqueue, agent, and the plan of its grant. -/
structure QReq where
  queue : Nat
  deq : Bool
  agent : QAgent
  plan : QPlan
deriving DecidableEq, Repr

structure Queues where
  held : List QReq
  /-- requests in the order in which they reached the manager -/
  waiting : List QReq
  /-- queues with an uncorrectable descriptor, and which words have been written since (R401) -/
  broken : List (Nat × Nat)
deriving DecidableEq, Repr

def Queues.reset : Queues := ⟨[], [], []⟩

/-! ## Repair controller (19) -/

/-- A snapshot of an armed cell (R477): banks, staging set, region sets, and the words and tags of its CSR window by offset. -/
structure Snapshot where
  banks : List (Nat × Bank)
  staging : Option Staging
  sets : List (Nat × BitVec 6)
  regs : List (Nat × Word)
  tags : List Nat
deriving DecidableEq, Repr

/-- A migration that has started (R475, R479, R480): cause as RPR_MIGLAST.CAUSE; due once the spare holds the state. -/
structure Migration where
  cluster : Nat
  cell : Nat
  old : Nat
  new : Nat
  cause : Nat
  armed : Bool
  due : Bool
deriving DecidableEq, Repr

/-- The localisation of a pair mismatch (R485): a pair, whether its self-test has begun, slots' results so far. -/
structure Localise where
  pair : Nat
  begun : Bool
  results : List (Nat × Bool)
deriving DecidableEq, Repr

structure Repair where
  migs : List Migration
  /-- clusters that become DEFECTIVE at the next tick (R475, R482) -/
  doomed : List Nat
  /-- per cluster: the latest snapshot that has drained, and the one that drains (R477) -/
  snaps : List (Nat × Snapshot)
  drains : List (Nat × Snapshot)
  /-- slot under TEST: cluster, slot; physical slots that passed TEST since their retirement (R486) -/
  test : Option (Nat × Nat)
  passed : List Nat
  /-- the last 64 corrected addresses, newest first, and whether a scrubber's corrected write-back followed (R488) -/
  corr : List (Nat × Bool)
  /-- rows that wait for repair, by the address found (R489) -/
  cands : List Nat
  /-- spare rows and spare columns in use, by macro (class * 512 + instance) (R487) -/
  rows : List (Nat × Nat)
  cols : List (Nat × Nat)
  /-- records that wait for Firn (R492): word 0 of each -/
  records : List Word
  loc : List Localise
  /-- cells whose source sent a message of class U or F in this frame and in the frame before (R485) -/
  sent : List Nat
  sentPrev : List Nat
  /-- clusters with a lowering due at FLOOR, and at or above TCRIT (R494) -/
  slow : List Nat
  hot : List Nat
deriving DecidableEq, Repr

def Repair.reset : Repair :=
  { migs := [], doomed := [], snaps := [], drains := [], test := none, passed := [], corr := [], cands := [], rows := [], cols := [],
    records := [], loc := [], sent := [], sentPrev := [], slow := [], hot := [] }

/-! ## Backplane ports (16) -/

/-- A frame that a port sends (R425, R436). -/
structure TxFrame where
  ide : Bool
  fdf : Bool
  brs : Bool
  rtr : Bool
  esi : Bool
  id : Nat
  dlc : Nat
  data : List Nat
deriving DecidableEq, Repr

/-- The frame in progress: its buffer (64: the Hold status frame, R436), the copy taken at its start, whether its buffer was
requested again since (R426), whether its window has closed since (R427), whether a further request was pending at that close
(R430), and whether an error frame has met it (R434). -/
structure TxNow where
  buf : Nat
  frame : TxFrame
  again : Bool
  closed : Bool
  missed : Bool
  failed : Bool
deriving DecidableEq, Repr

/-- An untransferred frame in a buffer's shadow (R420): the filter that matched and its LATE flag. -/
structure Shadow where
  frame : CanFrame
  filt : Nat
  late : Bool
deriving DecidableEq, Repr

structure Port where
  /-- buffer on which the port's lock is set (R422) -/
  lock : Option Nat
  shadows : List (Nat × Shadow)
  tx : Option TxNow
  /-- last frame that the port started -/
  last : Option TxFrame
  /-- bus-off recovery has started (R435) -/
  recovering : Bool
  /-- Hold status frames sent, mod 65,536 (R436) -/
  status : Nat
  /-- a Hold status frame waits for the bus (R436) -/
  statusDue : Bool
  /-- EN has been cleared, and the port stops at the next bus-idle point (R438) -/
  leaving : Bool
  /-- what the filter words written since the last reception held before, newest first (R419): offset and word -/
  undo : List (Nat × Word)
deriving DecidableEq, Repr

def Port.reset : Port :=
  { lock := none, shadows := [], tx := none, last := none, recovering := false, status := 0, statusDue := false,
    leaving := false, undo := [] }

/-! ## Firn (17) -/

/-- A record being written (R447): the half, its words, its pages still to be programmed, and the block and page at which they
go on once the first is programmed. -/
structure FlashWrite where
  halfB : Bool
  words : List Word
  left : Nat
  place : Option (Nat × Nat)
deriving DecidableEq, Repr

/-- A command that flash operations carry out: a commit's writes in order, or the erases of FORMAT from a block on. -/
inductive FirnJob where
  | commit (todo : List FlashWrite)
  | format (next : Nat)
deriving DecidableEq, Repr

/-- Background work on the log (R452, R454): COPY records still to be written and the block that is erased after them, or that
erase. -/
inductive FirnTask where
  | copy (todo : List FlashWrite) (block : Option Nat)
  | erase (block : Nat)
deriving DecidableEq, Repr

/-- A command that waits for background work to yield (R452): OP and ARG, and which halves a READ finds damaged. -/
structure FirnHeld where
  op : Nat
  arg : Nat
  badA : Bool
  badB : Bool
deriving DecidableEq, Repr

/-- A hot save in progress (R449): the record's words, its slot once one is prepared, its pages still to be programmed, and
whether a HOTSAVE command waits for it. -/
structure HotWrite where
  words : List Word
  slot : Option Nat
  left : Nat
  cmd : Bool
deriving DecidableEq, Repr

structure Firn where
  /-- the device, once accepted (R439) -/
  dev : Option FlashParams
  /-- log blocks that are not fresh from the factory, by number (R441) -/
  blocks : List FlashBlock
  /-- the key index: SEQ of the live record by key (R448) -/
  index : List (Nat × Word)
  /-- slots of the hot area that are not blank; prepared slots in the order of use; slots of an erased hot block that are still to
  be read; the hot block that is to be erased (R449) -/
  hot : List HotSlot
  prepared : List Nat
  unread : List Nat
  hotErase : Option Nat
  /-- entry places of blocks 2 and 3, none where a page was skipped; block 2 holds the queue's first record already (R491, R492) -/
  area2 : List (Option RepairEntry)
  area3 : List (Option RepairEntry)
  half : Bool
  job : Option FirnJob
  task : Option FirnTask
  held : Option FirnHeld
  /-- a hot save is requested and waits for the flash operation's boundary (R449), which is reached; a HOTSAVE command waits
  for it -/
  saveDue : Bool
  saveReady : Bool
  saveCmd : Bool
  /-- the hot save that is being written -/
  save : Option HotWrite
  /-- the start-up scan runs (R454) -/
  scan : Bool
  /-- filtered levels of PF_OK and PF_WARN (R545) -/
  pfOk : Bool
  pfWarn : Bool
deriving DecidableEq, Repr

def Firn.reset : Firn :=
  { dev := none, blocks := [], index := [], hot := [], prepared := [], unread := [], hotErase := none, area2 := [], area3 := [],
    half := false, job := none, task := none, held := none, saveDue := false, saveReady := false, saveCmd := false, save := none,
    scan := false, pfOk := false, pfWarn := false }

/-! ## Standby port (13) -/

/-- The frame of the stream as received so far (R371, R376): the FRAME record's number, the words before the heartbeat,
lines, EDIT records, whether the record order or a check has failed, and whether its heartbeat has come good. -/
structure StreamRx where
  frame : Option Nat
  words : List Word
  inputs : Bool
  lines : List (Nat × List Word)
  edits : List (Nat × Word)
  bad : Bool
  good : Bool
  /-- a beat came in error and was discarded (R543): the frame's check cannot agree -/
  lost : Bool
deriving DecidableEq, Repr

def StreamRx.empty : StreamRx :=
  { frame := none, words := [], inputs := false, lines := [], edits := [], bad := false, good := false, lost := false }

structure Standby where
  /-- lines with their dirty bit set, by line address (R372) -/
  dirty : List Nat
  rx : StreamRx
  /-- the frame in progress began in the standby role -/
  whole : Bool
  /-- software wrote ROLE = active in TRACKING: takeover at the next tick (R379) -/
  takeDue : Bool
  /-- the stream of the last frame sent (R371), in beats of two words (R370) -/
  sent : List DWord
deriving DecidableEq, Repr

def Standby.reset : Standby :=
  { dirty := [], rx := StreamRx.empty, whole := false, takeDue := false, sent := [] }

/-! ## Load verifier (08) -/

/-- A cluster's control stores and dispatch tables (R213, R232): the 17 slots are written together and hold the same
content; unlisted microwords and entries are zero. -/
structure MicroStore where
  words : List (Nat × BitVec 144)
  disp : List (Nat × Nat)
  /-- every image loaded is Onaed's, whose routines have the listed effect and count (R216); without effect while nothing
  is loaded, since no cell of the cluster then runs (R240) -/
  listed : Bool
  /-- microwords and dispatch entries with an error in store, by slot (R231): true for an uncorrectable one -/
  wordErr : List (Nat × Nat × Bool)
  dispErr : List (Nat × Nat × Bool)
deriving DecidableEq, Repr

def MicroStore.empty : MicroStore := ⟨[], [], true, [], []⟩

structure Verifier where
  /-- the receive buffer's words in order of arrival (R237) -/
  buf : List Word
  /-- words of the buffer with an error in store (R237, R320) -/
  bufErr : List (Nat × Bool)
  /-- TARGET as taken at START (R237) -/
  target : Nat
  /-- deliveries of the key port (R541): the AES key and the public-key hash -/
  aes : Option (List (BitVec 32))
  hash : Option (List (BitVec 32))
  stores : List (Nat × MicroStore)
deriving DecidableEq, Repr

def Verifier.reset : Verifier := { buf := [], bufErr := [], target := 0, aes := none, hash := none, stores := [] }

/-! ## Thaw (20) -/

structure Thaw where
  /-- Thaw runs (R499): from power-good or the end of a block reset -/
  started : Bool
  /-- RF_REQ is high, and the fuse repairs received (R542) -/
  fuseReq : Bool
  fuses : List Word
  /-- clusters found failing in phase 2 (R502), and block units whose test failed (R508) -/
  badClusters : List Nat
  failed : List Nat
  /-- the first LDV START of phase 4 has come (R499) -/
  loading : Bool
deriving DecidableEq, Repr

def Thaw.reset : Thaw := { started := false, fuseReq := false, fuses := [], badClusters := [], failed := [], loading := false }

/-! ## Debug domain (21) -/

/-- An operation that the debug domain may hold (R519, R522). -/
inductive DbgOp where
  | rdphy (addr : Nat)
  | wrphy (addr : Nat) (w : Word)
  | wrcap (addr : Nat) (d : DWord) (tag : Bool)
  | rdbnk (c b ix : Nat)
  | wrbnk (c b ix : Nat) (w : Word) (tag : Bool)
  | event (c : Nat)
deriving DecidableEq, Repr

/-- The answer to a packet (R518): OK with a word and its tag, WAIT, or FAULT with its code. -/
inductive DbgAnswer where
  | ok (w : Word) (tag : Bool)
  | wait
  | fault (code : Nat)
deriving DecidableEq, Repr

structure Debug where
  /-- the boundary input DBG_FUSE (R523) -/
  fuse : BitVec 2
  /-- the request held, and its answer once it has been performed (R522) -/
  held : Option (DbgOp × Option DbgAnswer)
  /-- held requests whose result was discarded before they were performed, oldest first -/
  owed : List DbgOp
  last : Option DbgAnswer
  /-- the bits that the target sends in the read slots of the last packet (R518) -/
  slots : List Bool
  /-- the block domain is powered (R521, R535) -/
  powered : Bool
  /-- writes of the debug registers of cells of DEFECTIVE clusters, oldest first, which take effect at the next block reset
  (R560) -/
  late : List (Nat × Word)
deriving DecidableEq, Repr

def Debug.reset : Debug := { fuse := 0, held := none, owed := [], last := none, slots := [], powered := false, late := [] }

/-! ## Power (22) -/

structure Power where
  /-- clusters that drain for Retain or for Off (R25, R547) -/
  retainDue : List Nat
  offDue : List Nat
  /-- clusters that power up after Off (R547) -/
  upDue : List Nat
  /-- clusters woken from Retain, whose cells resume at the next tick (R26); a cluster that the debug port emulates stands in
  DBG_STAT.EMUL (R533) -/
  woken : List Nat
deriving DecidableEq, Repr

def Power.reset : Power := { retainDue := [], offDue := [], upDue := [], woken := [] }

/-! ## The block -/

structure State where
  /-- the model's own: commands that wait, first in first out -/
  pending : List Instr
  /-- registers and table memories of block control space that differ from their reset words, by word offset -/
  ctl : List (Nat × Word)
  /-- the two copies of the hidden tags of the entry registers' doublewords (R245, R266): offsets whose tag is 1 -/
  ctlTagA : List Nat
  ctlTagB : List Nat
  /-- memory words that are not 0, by physical word address; cell stores under their slot view (R296) -/
  mem : List (Nat × Word)
  /-- the two copies of the hidden tags: even word addresses whose tag is 1 (R245) -/
  tagA : List Nat
  tagB : List Nat
  /-- words with an error in store: true for an uncorrectable one (R320) -/
  ecc : List (Nat × Bool)
  cells : List (Nat × Cell)
  /-- posts on their way (R280): sender, target cell, level -/
  posts : List (Nat × Nat × Nat)
  /-- doorbells on their way (R407): target cell, level -/
  bells : List (Nat × Nat)
  /-- messages that Moraine has not taken, oldest first (R460), with the fabric cycles a source was passed over -/
  msgs : List Msg
  passed : List (Nat × Nat)
  /-- error pins held high by a persisting condition (R465): sources -/
  pins : List Nat
  fab : Fabric
  /-- installed region entries by 8 * domain + region (R306) -/
  installed : List (Nat × Region)
  /-- source that the distributor presents to a cell (R387): cell, source -/
  presented : List (Nat × Nat)
  /-- cells whose presented source was withdrawn and whose next source took its place (R393) -/
  withdrawn : List Nat
  /-- KIND in force of the sources in service whose KIND has been written since their acceptance (R386) -/
  kinds : List (Nat × Bool)
  frm : FrameClock
  rime : Rime
  qm : Queues
  rpr : Repair
  ports : List (Nat × Port)
  firn : Firn
  stby : Standby
  ldv : Verifier
  thaw : Thaw
  dbg : Debug
  pwr : Power
  /-- the model's own: index of the next free value -/
  fresh : Nat
  slave : SlavePort
  /-- scrubbers that are not at their start, by memory -/
  scrubbers : List (Nat × Scrubber)
deriving DecidableEq, Repr

/-- The block right after a block reset (R11). -/
def State.reset : State :=
  { pending := [], ctl := [], ctlTagA := [], ctlTagB := [], mem := [], tagA := [], tagB := [], ecc := [], cells := [],
    posts := [], bells := [], msgs := [], passed := [], pins := [], fab := Fabric.reset, installed := [],
    presented := [], withdrawn := [], kinds := [],
    frm := FrameClock.reset,
    rime := Rime.reset,
    qm := Queues.reset,
    rpr := Repair.reset,
    ports := [],
    firn := Firn.reset,
    stby := Standby.reset,
    ldv := Verifier.reset,
    thaw := Thaw.reset,
    dbg := Debug.reset,
    pwr := Power.reset,
    fresh := 0, slave := SlavePort.reset, scrubbers := [] }

end Sys2Proof.Machine
end

