-- ==== Sys2Proof/Machine/Ops.lean ====
section
/-! DEFINITION. Ops.lean: the named operations over registers, cells, banks, memory words and messages. -/

namespace Sys2Proof.Machine

open Sys2Proof

/-! ## Registers of block control space -/

/-- A word of control space as it stands, without side effects (R8, R11). -/
def State.reg (s : State) (off : Nat) : Word := sget (resetWord off) off s.ctl

def State.setReg (s : State) (off : Nat) (w : Word) : State := { s with ctl := sput (resetWord off) off w s.ctl }

/-- A register field. -/
def State.get (s : State) (f : Fld) : Nat := fld (s.reg f.off) f.lo f.len

def State.put (s : State) (f : Fld) (v : Nat) : State := s.setReg f.off (setFld (s.reg f.off) f.lo f.len v)

/-- A one-bit field. -/
def State.on (s : State) (f : Fld) : Bool := s.get f = 1

def State.putB (s : State) (f : Fld) (b : Bool) : State := s.put f (b2n b)

def State.raise (s : State) (f : Fld) : State := s.put f 1

/-- Saturating count (R8). -/
def State.bump (s : State) (f : Fld) : State := s.put f (satInc (s.get f) f.len)

/-- Saturating addition. -/
def State.bumpBy (s : State) (f : Fld) (n : Nat) : State := s.put f (min (s.get f + n) (2 ^ f.len - 1))

/-! ## Cells and banks -/

def State.cell (s : State) (c : Nat) : Cell := sget Cell.reset c s.cells

def State.setCell (s : State) (c : Nat) (x : Cell) : State := { s with cells := sput Cell.reset c x s.cells }

def State.modCell (s : State) (c : Nat) (f : Cell → Cell) : State := s.setCell c (f (s.cell c))

def Cell.bank (x : Cell) (b : Nat) : Bank := sget Bank.reset b x.banks

def Cell.setBank (x : Cell) (b : Nat) (k : Bank) : Cell := { x with banks := sput Bank.reset b k x.banks }

def State.bank (s : State) (c b : Nat) : Bank := (s.cell c).bank b

def State.setBank (s : State) (c b : Nat) (k : Bank) : State := s.setCell c ((s.cell c).setBank b k)

def State.modBank (s : State) (c b : Nat) (f : Bank → Bank) : State := s.setBank c b (f (s.bank c b))

/-- The running bank (CELL_STATE.BANK, R295): 0-7 L, 8 I, 9 F, 10 D, 15 idle or locked up. -/
def State.running (s : State) (c : Nat) : Nat := s.get (Reg.CELL_STATE_BANK c)

def bankI : Nat := 8
def bankF : Nat := 9
def bankD : Nat := 10
def bankIdle : Nat := 15

/-- The running bank's registers. -/
def State.cur (s : State) (c : Nat) : Bank := s.bank c (s.running c)

def State.setCur (s : State) (c : Nat) (k : Bank) : State := s.setBank c (s.running c) k

def State.modCur (s : State) (c : Nat) (f : Bank → Bank) : State := s.setCur c (f (s.cur c))

/-! ## Where a cell runs -/

def clusterOf (c : Nat) : Nat := c / 16

/-- Physical slot of a logical cell in its cluster (CELL_MAP, R471). -/
def State.slotOf (s : State) (c : Nat) : Nat := s.get (Reg.CELL_MAP_SLOT c)

/-- Physical slot number 17k + s (R458). -/
def State.physOf (s : State) (c : Nat) : Nat := 17 * clusterOf c + s.slotOf c

/-- The logical cell that a physical slot holds, if any. -/
def State.cellAt (s : State) (k slot : Nat) : Option Nat :=
  ((List.range 16).map (fun i => 16 * k + i)).find? (fun c => s.slotOf c = slot)

/-- Run states of R363. -/
def runRun : Nat := 0
def runStopping : Nat := 1
def runStopped : Nat := 2
def runStarting : Nat := 3
def runDefective : Nat := 4

def State.runState (s : State) (k : Nat) : Nat := s.get (Reg.CLU_RUNSTAT_STATE k)

/-- Power states of R549: 0 Run, 1 Doze, 2 Retain, 3 Off. -/
def State.power (s : State) (k : Nat) : Nat := s.get (Reg.CLU_PWRSTAT_STATE k)

def State.mode (s : State) (k : Nat) : Nat := s.get (Reg.CLU_RUNCTL_MODE k)

/-- Throughput mode (R23). -/
def State.throughput (s : State) (c : Nat) : Bool := s.mode (clusterOf c) = 0

def State.paired (s : State) (c : Nat) : Bool := s.mode (clusterOf c) = 2

/-- The cell's slot is locked up (R265). -/
def State.locked (s : State) (c : Nat) : Bool := bit (s.reg (cluBase (clusterOf c) + 0x30)) (s.slotOf c)

/-- Slot states of R472: 0 in use, 1 spare, 2 retired, 3 failed. -/
def slotFld (k slot : Nat) : Fld := ⟨(Reg.RPR_SLOT_STATE k).off, 2 * slot, 2⟩
def State.slotState (s : State) (k slot : Nat) : Nat := s.get (slotFld k slot)

/-- The cell's slot has failed (R474). -/
def State.failed (s : State) (c : Nat) : Bool := decide (s.slotState (clusterOf c) (s.slotOf c) = 3)

/-- Both cells of a pair run the field self-test (R485). -/
def State.selfTest (s : State) (c : Nat) : Bool := s.rpr.loc.any (fun l => decide (l.pair = c / 2) && l.begun)

/-- Locked up or failed: the cell behaves as the second list of R265 gives. -/
def State.dead (s : State) (c : Nat) : Bool := s.locked c || s.failed c

/-- The cell's cluster is in RUN, in Run or Doze (R286); after a wake from Retain it resumes at the next tick (R26). -/
def State.live (s : State) (c : Nat) : Bool :=
  s.runState (clusterOf c) = runRun && decide (s.power (clusterOf c) ≤ 1) && !s.pwr.woken.contains (clusterOf c)

/-- The cell's cluster runs or is STOPPING with its clocks on: what holds events back in the cell can go on (R200, R364). -/
def State.holding (s : State) (c : Nat) : Bool :=
  s.live c || (s.runState (clusterOf c) = runStopping && decide (s.power (clusterOf c) ≤ 1))

def pwRun : Nat := 0
def pwDoze : Nat := 1
def pwRetain : Nat := 2
def pwOff : Nat := 3

/-- An emulated Retain or Off of a cluster, which keeps its power (R533). -/
def emulFld (k : Nat) : Fld := ⟨Reg.DBG_STAT_EMUL.off, k, 1⟩

/-- Beats leave a port while it holds credits; none while its clusters are all in Retain or Off (R313). -/
def State.pump (s : State) (p : Nat) : State :=
  if (List.range 4).all (fun i => decide (s.power (4 * p + i) ≥ 2)) then s
  else
    let have0 := s.fab.credits.toList.getD p 0
    let sent := s.fab.txs.foldl (fun (acc : List FabTx × Nat) t =>
      if t.port = p then
        (acc.1 ++ [{ t with unsent := t.unsent - min acc.2 t.unsent }], acc.2 - min acc.2 t.unsent)
      else (acc.1 ++ [t], acc.2)) ([], have0)
    { s with fab := { s.fab with txs := sent.1, credits := s.fab.credits.setIfInBounds p sent.2 } }

/-- A wake from Retain (R26, R547): REQ becomes 00, the cells resume at the next tick, and the port sends what it has held
(R313). -/
def State.wakeRetain (s : State) (k : Nat) : State :=
  let s := ((s.put (Reg.CLU_PWRCTL_REQ k) 0).put (emulFld k) 0).put (Reg.CLU_PWRSTAT_STATE k) pwRun
  let s := s.pump (k / 4)
  { s with pwr := { s.pwr with woken := setInsert k s.pwr.woken, retainDue := setErase k s.pwr.retainDue } }

/-- A cluster in Doze ungates its clock (R25). -/
def State.undoze (s : State) (k : Nat) : State := if s.power k = 1 then s.put (Reg.CLU_PWRSTAT_STATE k) 0 else s

/-- Bits [35:0] of the frame number (R461). -/
def State.frame36 (s : State) : Word := s.reg Reg.FRM_COUNT0_LO.off

/-- The frame number (R37). -/
def State.frame (s : State) : DWord := dword (s.reg Reg.FRM_COUNT0_LO.off) (s.reg Reg.FRM_COUNT1_HI.off)

def State.rimeRun (s : State) : Bool := s.on Reg.FRM_STAT_RUN

/-! ## Messages to Moraine -/

/-- The status bit of a source's error pin (R465). -/
def pinFld (src : Nat) : Fld :=
  if src < 0x110 then ⟨cluBase (src / 17) + 0x31, src % 17, 1⟩
  else if src < 0x400 then Reg.CLU_FSTAT_CLU (src - 0x200)
  else ⟨0x10, 16 + (src - 0x400), 1⟩

/-- Sends a message (R460, R465): it waits for Moraine, or is counted in MOR_DROP when its source already has four
waiting; a message of class U or F pulses the error pin, which stays high while its condition persists. -/
def State.send (s : State) (m : Msg) : State :=
  let s := if m.cls ≥ 2 then s.raise (pinFld m.src) else s
  let s := if m.pers then { s with pins := setInsert m.src s.pins } else s
  let s := if m.cls ≥ 2 ∧ m.src < 0x110 then { s with rpr := { s.rpr with sent := setInsert m.src s.rpr.sent } } else s
  if (s.msgs.filter (fun x => x.src = m.src)).length < 4 then { s with msgs := s.msgs ++ [m] }
  else s.bump Reg.MOR_DROP_COUNT

def clsC : Nat := 1
def clsU : Nat := 2
def clsF : Nat := 3

/-- A message that carries INFO. -/
def State.sendInfo (s : State) (src kind cls info : Nat) : State :=
  s.send { src := src, kind := BitVec.ofNat 8 kind, cls := cls, av := false, pers := false, info := info }

/-- A message that carries a physical word address. -/
def State.sendAddr (s : State) (src kind cls pa : Nat) : State :=
  s.send { src := src, kind := BitVec.ofNat 8 kind, cls := cls, av := true, pers := false, info := pa }

def srcFrame : Nat := 0x400
def srcRime : Nat := 0x401
def srcIrq : Nat := 0x402
def srcQueue : Nat := 0x403
def srcPort (n : Nat) : Nat := 0x404 + n
def srcFirn : Nat := 0x40C
def srcRepair : Nat := 0x40D
def srcStandby : Nat := 0x40E
def srcThaw : Nat := 0x40F
def srcVerifier : Nat := 0x410
def srcFabric : Nat := 0x411
def srcControl : Nat := 0x412
def srcMoraine : Nat := 0x413
def srcCell (s : State) (c : Nat) : Nat := s.physOf c
def srcCluster (k : Nat) : Nat := 0x200 + k

/-! ## Failure events (R474-R478) -/

/-- The logical cells of a cluster. -/
def clusterCells (k : Nat) : List Nat := (List.range 16).map (fun i => 16 * k + i)

/-- Applies an operation to every logical cell of a cluster. -/
def State.eachCell (s : State) (k : Nat) (f : State → Nat → State) : State := (clusterCells k).foldl f s

/-- Cancels the queue reservations and requests of a cell (R175, R403). -/
def State.cancelQueues (s : State) (c : Nat) : State :=
  { s with qm := { s.qm with
      held := s.qm.held.filter (fun q => decide (q.agent ≠ .cell c)),
      waiting := s.qm.waiting.filter (fun q => decide (q.agent ≠ .cell c)) } }

/-- The transaction serves a blocking instruction. -/
def FabUse.blocks (u : FabUse) : Bool := match u with
  | .words _ => true
  | .code _ => true
  | _ => false

/-- What the instruction in progress has read, copied and translated is forgotten: it has ended, or begins again. -/
def Cell.settled (x : Cell) : Cell := { x with got := [], sent := [], seen := [], xlat := [] }

/-- A load on which a Deterministic cell waits retires at a switch with its slots pending (R199): the cell no longer
waits, and a later failure of the load is reported at the slots (R192). -/
def State.retireLoad (s : State) (c : Nat) : State :=
  let txs := s.fab.txs.map (fun t => if t.cell = c ∧ t.purpose.blocks then { t with purpose := .dropped } else t)
  let s := { s with fab := { s.fab with txs := txs } }
  (s.cancelQueues c).modCell c (fun x => { x.settled with stall := none, watch := false, hold := false, micro := none })

/-- The migration that a cluster's spare serves. -/
def State.migOf (s : State) (k : Nat) : Option Migration := s.rpr.migs.find? (fun m => decide (m.cluster = k))

/-- A cluster that becomes DEFECTIVE at the next tick. -/
def State.doom (s : State) (k : Nat) : State := { s with rpr := { s.rpr with doomed := setInsert k s.rpr.doomed } }

/-- The cluster has a spare that no migration uses (R472, R475). -/
def State.spareFree (s : State) (k : Nat) : Bool :=
  let b := s.get (Reg.RPR_SP_SLOT k)
  decide (b ≤ 16) && decide (s.slotState k b = 1) && (s.migOf k).isNone

/-- Starts the migration of a cell into its cluster's spare (R479, R480): armed when the spare mirrors this cell and
holds a complete snapshot. A TEST of the spare is aborted (R486). -/
def State.beginMigration (s : State) (c cause : Nat) : State :=
  let k := clusterOf c
  let armed := decide (s.get (Reg.RPR_SP_STATE k) = 3) && decide (s.get (Reg.RPR_SP_ARMPOS k) = c % 16) &&
    (slookup k s.rpr.snaps).isSome
  let m : Migration := ⟨k, c, s.slotOf c, s.get (Reg.RPR_SP_SLOT k), cause, armed, armed⟩
  let s := if s.rpr.test = some (k, m.new) then
      ({ s with rpr := { s.rpr with test := none } }.put Reg.RPR_CSTAT_BUSY 0).put Reg.RPR_CSTAT_ST 5
    else s
  let s := if armed then s else s.put (Reg.RPR_SP_STATE k) 4
  { s with rpr := { s.rpr with migs := s.rpr.migs ++ [m] } }

/-- A cell that a MIGRATE command moves fails before the tick: its migration goes on as one of the failure, and the command
ends with ST 5 (DESIGN CHOICE, log entry 72). -/
def State.takeMigration (s : State) (m : Migration) (cause : Nat) : State :=
  let s := { s with rpr := { s.rpr with migs := s.rpr.migs.map (fun x => if x = m then { m with cause := cause } else x) } }
  if m.cause = 7 then (s.put Reg.RPR_CSTAT_BUSY 0).put Reg.RPR_CSTAT_ST 5 else s

/-- A cell stops (R474): its slot becomes failed, with its error pin high. -/
def State.failCell (s : State) (c : Nat) : State :=
  let s := (s.retireLoad c).modCell c (fun x => { x with dreq := none })
  let s := s.put (slotFld (clusterOf c) (s.slotOf c)) 3
  let s := s.raise (pinFld (srcCell s c))
  { s with pins := setInsert (srcCell s c) s.pins }

/-- The block domain is powered and out of block reset: Thaw has started since (R499, R521). -/
def State.blockUp (s : State) : Bool := s.dbg.powered && s.thaw.started

/-- A boundary input acts on the block; in block reset it is ignored (R539). -/
def State.heard (s : State) (f : State → State) : State := if s.blockUp then f s else s

/-- Thaw has reached RUN-READY (R507). -/
def State.runReady (s : State) : Bool := decide (s.get Reg.THAW_STATUS_PHASE = 6)

/-- A failed cell migrates where AUTO asks for it (R475, R482); before RUN-READY no migration runs (R511). -/
def State.moveFailed (s : State) (c cause : Nat) : State :=
  let k := clusterOf c
  if ¬ s.runReady then s
  else match s.migOf k with
    | some m =>
      if m.cell = c then s.takeMigration m cause
      else if s.on Reg.RPR_CTRL_AUTO ∨ m.cause ≠ 7 then s.doom k else s
    | none =>
      if s.on Reg.RPR_CTRL_AUTO then
        if s.spareFree k then s.beginMigration c cause else s.doom k
      else s

/-- A failure event of the cell in a slot in use (R474, R475). -/
def State.failureEvent (s : State) (c cause : Nat) : State :=
  if s.slotState (clusterOf c) (s.slotOf c) ≠ 0 ∨ s.runState (clusterOf c) = runDefective then s
  else (s.failCell c).moveFailed c cause

/-- Sets RPR_STAT.NOSPARE from the clusters' spares (R478). -/
def State.noteSpares (s : State) : State :=
  s.putB Reg.RPR_STAT_NOSPARE ((List.range 16).any (fun k =>
    decide (s.runState k ≠ runDefective) && decide (s.get (Reg.RPR_SP_SLOT k) = 31)))

/-- A migration is given up; a MIGRATE command that it carried out ends with ST 5 (R486). -/
def State.endMigration (s : State) (m : Migration) : State :=
  let s := { s with rpr := { s.rpr with migs := s.rpr.migs.erase m } }
  if m.cause = 7 then (s.put Reg.RPR_CSTAT_BUSY 0).put Reg.RPR_CSTAT_ST 5 else s

/-- A slot becomes retired (R472): a TEST that it passed before no longer counts for RESTORE (R486). -/
def State.retireSlot (s : State) (k slot : Nat) : State :=
  ({ s with rpr := { s.rpr with passed := setErase (17 * k + slot) s.rpr.passed } }).put (slotFld k slot) 2

/-- A failure event in the spare retires it (R478, R482); nothing of a DEFECTIVE cluster is retired (R483). -/
def State.retireSpare (s : State) (k : Nat) : State :=
  if s.runState k = runDefective then s
  else
  let b := s.get (Reg.RPR_SP_SLOT k)
  let s := match s.migOf k with
    | some m => (s.endMigration m).doom k
    | none => s
  let s := { s with rpr := { s.rpr with snaps := serase k s.rpr.snaps, drains := serase k s.rpr.drains },
                    pins := setErase (17 * k + b) s.pins }
  let s := ((s.retireSlot k b).put (Reg.RPR_SP_SLOT k) 31).put (Reg.RPR_SP_STATE k) 0
  let s := s.noteSpares
  s.sendInfo srcRepair 0x81 clsC ((16 * k + s.get (Reg.RPR_SP_ARMPOS k)) * 2 ^ 13 + b * 2 ^ 5 + 31)

/-! ## Physical memory (R296, R297) -/

/-- The area that holds a physical word address. -/
inductive Area where
  | control
  /-- cell store, with its slot-view address -/
  | store (key : Nat)
  | cluster (k : Nat)
  | image
  | queues
  | firn
  | fabric
  | hole
deriving DecidableEq, Repr

def storeKey (k slot w : Nat) : Nat := 0x8000000 + (17 * k + slot) * 0x10000 + w

def imageBase : Nat := 0x3000000
def queueBase : Nat := 0x3100000
def firnBase : Nat := 0x3200000
def fabricBase : Nat := 0x100000000

def State.area (s : State) (pa : Nat) : Area :=
  if pa < 0x100000 then .control
  else if pa < 0x1100000 then
    let n := (pa - 0x100000) / 0x10000
    let w := pa % 0x10000
    if w < 0x4000 then .store (storeKey (clusterOf n) (s.slotOf n) w) else .hole
  else if 0x2000000 ≤ pa ∧ pa < 0x2400000 then .cluster ((pa - 0x2000000) / 0x40000)
  else if 0x3000000 ≤ pa ∧ pa < 0x3100000 then .image
  else if 0x3100000 ≤ pa ∧ pa < 0x3140000 then .queues
  else if 0x3200000 ≤ pa ∧ pa < 0x3201200 then .firn
  else if 0x8000000 ≤ pa ∧ pa < 0x8000000 + 272 * 0x10000 then
    if pa % 0x10000 < 0x4000 then .store pa else .hole
  else if fabricBase ≤ pa ∧ pa < 2 ^ 50 then .fabric
  else .hole

/-- The physical word address of word `w` of a cell's own store, through its logical window. -/
def ownStore (c w : Nat) : Nat := 0x100000 + c * 0x10000 + w

/-- The region-target area of R296 that wholly holds the words from `lo` on, each cell store and cluster memory being
an area of its own: its first address. -/
def targetArea (lo len : Nat) : Option Nat :=
  let hi := lo + len
  if len = 0 then none
  else if hi ≤ 0x100000 then some 0
  else if 0x100000 ≤ lo ∧ hi ≤ 0x1100000 then
    if lo % 0x10000 + len ≤ 0x4000 then some (lo - lo % 0x10000) else none
  else if 0x2000000 ≤ lo ∧ hi ≤ 0x2400000 then
    if lo % 0x40000 + len ≤ 0x40000 then some (lo - lo % 0x40000) else none
  else if 0x3000000 ≤ lo ∧ hi ≤ 0x3100000 then some 0x3000000
  else if 0x3100000 ≤ lo ∧ hi ≤ 0x3140000 then some 0x3100000
  else if 0x3200000 ≤ lo ∧ hi ≤ 0x3201200 then some 0x3200000
  else if fabricBase ≤ lo ∧ hi ≤ 2 ^ 50 then some fabricBase
  else none

/-- The key under which a word of a block memory is listed: a cell store's slot view, otherwise the address. -/
def State.key (s : State) (pa : Nat) : Nat :=
  match s.area pa with
  | .store k => k
  | _ => pa

/-- A word of a block memory by its key; nothing listed reads 0 (R502). -/
def State.word (s : State) (key : Nat) : Word := sget 0 key s.mem

def State.setWord (s : State) (key : Nat) (w : Word) : State := { s with mem := sput 0 key w s.mem }

/-- The hidden tag of the doubleword that holds a word: 1 only when both copies are 1 (R245). -/
def State.tagOf (s : State) (key : Nat) : Bool :=
  let d := key - key % 2
  s.tagA.contains d && s.tagB.contains d

/-- Writes both copies of a tag. -/
def State.setTag (s : State) (key : Nat) (b : Bool) : State :=
  let d := key - key % 2
  { s with tagA := setPut d b s.tagA, tagB := setPut d b s.tagB }

def State.eccAt (s : State) (key : Nat) : Option Bool := slookup key s.ecc

def State.setEcc (s : State) (key : Nat) (b : Bool) : State := { s with ecc := sinsert key b s.ecc }

def State.clearEcc (s : State) (key : Nat) : State := { s with ecc := serase key s.ecc }

/-- The Moraine source of a memory (R458): a cell's slot, a cluster, or the unit that holds it. -/
def memSource (key : Nat) : Nat :=
  if 0x8000000 ≤ key then (key - 0x8000000) / 0x10000
  else if key < 0x100000 then
    if key < 0x2000 then srcControl
    else if key < 0x3000 then srcMoraine
    else if 0x5000 ≤ key ∧ key < 0x6000 then srcQueue
    else if 0x7000 ≤ key ∧ key < 0x8000 then srcPort ((key - 0x7000) / 0x200)
    else if 0x10000 ≤ key ∧ key < 0x12000 then srcIrq
    else if 0x30000 ≤ key ∧ key < 0x34000 then srcPort ((key - 0x30000) / 0x800)
    else srcControl
  else if key < 0x3000000 then srcCluster ((key - 0x2000000) / 0x40000)
  else if key < 0x3100000 then srcRime
  else if key < 0x3200000 then srcQueue
  else srcFirn

/-! ## Candidates for row repair (R488-R490) -/

/-- The key of a word without an address: entry `index` of a macro of a class and instance (R491). -/
def hiddenKey (cls inst index : Nat) : Nat := 2 ^ 60 + (cls * 512 + inst) * 2 ^ 24 + index

/-- Macro of a word (R491): class * 512 + instance. -/
def macroOf (key : Nat) : Nat :=
  if 2 ^ 60 ≤ key then (key - 2 ^ 60) / 2 ^ 24
  else if 0x8000000 ≤ key then (key - 0x8000000) / 0x10000
  else if 0x2000000 ≤ key ∧ key < 0x2400000 then
    5 * 512 + 16 * ((key - 0x2000000) / 0x40000) + Config.macroBank key % 16
  else if 0x3000000 ≤ key ∧ key < 0x3100000 then 7 * 512 + Config.macroBank key % 512
  else if 0x3100000 ≤ key ∧ key < 0x3140000 then 8 * 512 + Config.macroBank key % 512
  else if 0x3200000 ≤ key then 9 * 512 + Config.macroBank key % 512
  else if 0x2000 ≤ key ∧ key < 0x3000 then 12 * 512 + Config.macroBank key % 512
  else if 0x30000 ≤ key ∧ key < 0x34000 then 13 * 512 + Config.macroBank key % 512
  else 10 * 512 + Config.macroBank key % 512

/-- A message of the repair controller about a row (R497): its physical address, or its class, instance and index where the macro
has none. -/
def State.sendRow (s : State) (kind cls key pa : Nat) : State :=
  if 2 ^ 60 ≤ key then
    s.sendInfo srcRepair kind cls (setFld (setFld 0 18 14 (macroOf key)) 8 10 (Config.macroRow key)).toNat
  else s.sendAddr srcRepair kind cls pa

/-- Spare rows of a macro in use, of 8 (R487). -/
def State.rowsUsed (s : State) (m : Nat) : Nat := sget 0 m s.rpr.rows

/-- No spare row is left for a candidate (R490). -/
def State.noRow (s : State) (m : Nat) : State :=
  if m < 5 * 512 then
    let phys := m % 512
    match s.cellAt (phys / 17) (phys % 17) with
    | some c => s.failureEvent c 6
    | none => if s.get (Reg.RPR_SP_SLOT (phys / 17)) = phys % 17 then s.retireSpare (phys / 17) else s
  else s

/-- The row of an address becomes a candidate (R488-R490): it waits for its repair, or finds no spare row. With FREP = 0 it waits
in the queue unrepaired (R489). -/
def State.candidate (s : State) (key pa : Nat) : State :=
  if s.rowsUsed (macroOf key) ≥ 8 then
    let s := (s.raise Reg.RPR_STAT_REPEXH).sendRow 0x85 clsU key pa
    s.noRow (macroOf key)
  else if s.rpr.cands.any (fun k => decide (macroOf k = macroOf key ∧ Config.macroRow k = Config.macroRow key)) then s
  else if s.rpr.cands.length ≥ 16 then s.bump Reg.RPR_REPDROP_COUNT
  else { s with rpr := { s.rpr with cands := s.rpr.cands ++ [key] } }

/-- A corrected error at a word (R488): a second one after the scrubber's corrected write-back makes its row a
candidate; the last 64 addresses are kept. -/
def State.corrected (s : State) (key pa : Nat) (scrub : Bool) : State :=
  let again := s.rpr.corr.contains (key, true)
  let s := if again then s.candidate key pa else s
  let rest := s.rpr.corr.filter (fun e => decide (e.1 ≠ key))
  { s with rpr := { s.rpr with corr := ((key, scrub) :: rest).take 64 } }

/-- The hidden tag of an entry register's doubleword at `pa` (R245, R266): 1 only when both copies are 1; copies that
disagree are written 0, with the class U message of the cell's slot. -/
def State.entryTag (s : State) (pa : Nat) : Bool := s.ctlTagA.contains (pa - pa % 2) && s.ctlTagB.contains (pa - pa % 2)
def State.setEntryTag (s : State) (pa : Nat) (b : Bool) : State :=
  { s with ctlTagA := setPut (pa - pa % 2) b s.ctlTagA, ctlTagB := setPut (pa - pa % 2) b s.ctlTagB }
def State.entryCheck (s : State) (pa : Nat) : State :=
  if s.ctlTagA.contains (pa - pa % 2) = s.ctlTagB.contains (pa - pa % 2) then s
  else (s.setEntryTag pa false).sendAddr (srcCell s ((pa - 0xC0000) / 0x400)) 0x03 clsU (pa - pa % 2)

/-- The row of the tag array that holds the tag of a word (R245, R491). -/
def tagKey (key : Nat) : Nat :=
  if 0x8000000 ≤ key then hiddenKey 1 ((key - 0x8000000) / 0x10000) (key % 0x4000 / 2)
  else hiddenKey 6 (16 * ((key - 0x2000000) / 0x40000) + Config.macroBank key % 16) (key % 0x40000 / 2)

/-- The spare's copy of a cell-store word that the mirroring stream or a migration's copy keeps current (R477, R480). -/
def State.mirrorOf (s : State) (key : Nat) : Option Nat :=
  if 0x8000000 ≤ key then
    let phys := (key - 0x8000000) / 0x10000
    let k := phys / 17
    let st := s.get (Reg.RPR_SP_STATE k)
    let a := if st = 2 ∨ st = 3 then some (s.slotOf (16 * k + s.get (Reg.RPR_SP_ARMPOS k)))
      else if st = 4 then (s.migOf k).map (fun m => m.old) else none
    if a = some (phys % 17) then some (storeKey k (s.get (Reg.RPR_SP_SLOT k)) (key % 0x10000)) else none
  else none

/-- The position of a word of a cached line in its cache: way, the most recently used first, set and word (R302). -/
def linePos (ls : List CacheLine) (l : CacheLine) (w : Nat) : Nat :=
  1024 * (ls.filter (fun x => decide (x.line % 128 = l.line % 128))).findIdx (fun x => decide (x.line = l.line)) +
    8 * (l.line % 128) + w

/-- The key of a word of a slot's caches (R491): the instruction cache from position 0, the data cache from 2,048 on. -/
def cacheKey (phys from_ : Nat) (ls : List CacheLine) (l : CacheLine) (w : Nat) : Nat := hiddenKey 4 phys (from_ + linePos ls l w)

/-- A cell reads a cached word with an error in store (R320): a single-bit one is corrected and reported, an uncorrectable one is
reported and makes its row a candidate (R488). -/
def State.cacheError (s : State) (c key pa : Nat) (bad : Bool) : State :=
  if bad then (s.sendAddr (srcCell s c) 0x02 clsU pa).candidate key pa
  else (s.sendAddr (srcCell s c) 0x01 clsC pa).corrected key pa false

/-- Reading a tag writes both copies 0 when they disagree, with a class U message (R245); a spare that mirrors the cell takes the
write too (R477). -/
def State.tagCheck (s : State) (key src pa : Nat) : State :=
  let d := key - key % 2
  if s.tagA.contains d = s.tagB.contains d then s
  else
    let s := match s.mirrorOf d with
      | some k => s.setTag k false
      | none => s
    ((s.setTag d false).sendAddr src 0x03 clsU (pa - pa % 2)).candidate (tagKey key) pa

/-- A foreground read of a block memory word (R320): a single-bit error is corrected in the data and reported, an
uncorrectable one gives no word and is reported. -/
def State.readWord (s : State) (key pa : Nat) : Option Word × State :=
  match s.eccAt key with
  | none => (some (s.word key), s)
  | some false => (some (s.word key), (s.sendAddr (memSource key) 0x01 clsC pa).corrected key pa false)
  | some true => (none, (s.sendAddr (memSource key) 0x02 clsU pa).candidate key pa)

/-- Writes one stored word under nonet enables: its tag becomes `tag`; a word that stays uncorrectable is one of which
only some nonets are written (R161, R246). -/
def State.writeCopy (s : State) (key : Nat) (w : Word) (en : BitVec 4) (tag : Bool) : State :=
  let s := s.setTag key tag
  if en = 0xF then (s.setWord key w).clearEcc key
  else
    let s := s.setWord key (mergeNonets (s.word key) w en)
    if s.eccAt key = some true then s else s.clearEcc key

/-- A foreground write of a block memory word under nonet enables (R160, R161, R246), repeated into the spare that
mirrors it (R477). -/
def State.writeWord (s : State) (key : Nat) (w : Word) (en : BitVec 4) (tag : Bool) : State :=
  let s := match s.mirrorOf key with
    | some k => s.writeCopy k w en tag
    | none => s
  s.writeCopy key w en tag

/-- A write to a cluster-memory word invalidates the line that holds it in the data caches of the cluster's other
cells (R303). -/
def State.coherent (s : State) (pa : Nat) (except : Option Nat) : State :=
  if 0x2000000 ≤ pa ∧ pa < 0x2400000 then
    (List.range 16).foldl (fun s i =>
      let c := 16 * ((pa - 0x2000000) / 0x40000) + i
      if except = some c ∨ (s.cell c).dcache = [] then s
      else s.modCell c (fun x => { x with dcache := x.dcache.filter (fun l => decide (l.line ≠ pa / 8)) })) s
  else s

/-- A whole word written to a block memory by its physical address, with tag 0 (R246). -/
def State.writeRaw (s : State) (pa : Nat) (w : Word) : State :=
  (s.writeWord (s.key pa) w 0xF false).coherent pa none

/-! ## Capabilities (R243, R248) -/

def Cap.perm (k : Cap) : Nat := fld k.lo 32 4
def Cap.base (k : Cap) : Nat := fld k.lo 0 32
def Cap.lock (k : Cap) : Nat := fld k.hi 28 8
def Cap.len (k : Cap) : Nat := fld k.hi 0 28
def Cap.r (k : Cap) : Bool := bit k.lo 32
def Cap.w (k : Cap) : Bool := bit k.lo 33
def Cap.x (k : Cap) : Bool := bit k.lo 34
def Cap.m (k : Cap) : Bool := bit k.lo 35
/-- First address past a capability's range; TOP of a stack capability (R108). -/
def Cap.top (k : Cap) : Nat := k.base + k.len
def Cap.usable (k : Cap) : Bool := k.tag && decide (k.lock = 0)
def Cap.isKey (k : Cap) : Bool := k.tag && decide (k.lock = 255)
def Cap.withLock (k : Cap) (t : Nat) : Cap := { k with hi := setFld k.hi 28 8 t }
def Cap.ofDword (d : DWord) (tag : Bool) : Cap := ⟨dlo d, dhi d, tag⟩
def Cap.dword (k : Cap) : DWord := Machine.dword k.lo k.hi

/-- The check of R118 with the INFO of R254 in the order of R166: tag, lock, permission, bounds. -/
def Cap.check (k : Cap) (perm : Bool) (ea size : Nat) : Option Nat :=
  if k.tag = false then some 1
  else if k.lock ≠ 0 then some 2
  else if perm = false then some 3
  else if k.base ≤ ea ∧ ea + size ≤ k.top then none
  else some 4

/-! ## Faults of a cell and entry into a bank (09) -/

/-- A fault as raised: code, INFO, virtual word address, physical word address (R253-R255). -/
structure CellFault where
  code : Nat
  info : Nat
  va : Nat := 0
  pa : Nat := 0
deriving DecidableEq, Repr

/-- FLAGS.MP (R273). -/
def Bank.mp (k : Bank) : Nat := fld k.flags 6 4

/-- The state an entered handler bank takes (R256, R274): empty stacks over its C3, LINK empty, MP 0. -/
def Bank.enter (k : Bank) (pc : SylAddr) (dom : BitVec 6) : Bank :=
  { k with
    pc := pc, dsp := BitVec.ofNat 32 (k.c[3]).top, rsp := BitVec.ofNat 32 (k.c[3]).base,
    dwin := Vector.replicate 16 0, dw := 0, rwin := Vector.replicate 8 0, rw := 0,
    shadow := [], pend := [], dmark := [], rmark := [],
    link := Link.empty, flags := setFld k.flags 6 4 0, dom := dom }

/-- Domain of a handler bank (CELL_HDOM, R274). -/
def State.handlerDom (s : State) (c b : Nat) : BitVec 6 :=
  BitVec.ofNat 6 (if b = bankF then s.get (Reg.CELL_HDOM_F c) else if b = bankI then s.get (Reg.CELL_HDOM_I c)
    else s.get (Reg.CELL_HDOM_D c))

/-- The number of the level whose bank runs or was left to enter the handlers; 15 from idle. -/
def State.levelNum (s : State) (c : Nat) : Nat :=
  if s.running c < 8 then s.running c else if s.running c = bankIdle then 15 else (s.cell c).hLevel

/-- The level to which a cell's cycles count: the running level, or the one whose bank was left to enter the
handlers (R259); none from idle. -/
def State.levelOf (s : State) (c : Nat) : Option Nat := if s.levelNum c < 8 then some (s.levelNum c) else none

/-- Counts `n` cycles in CELL_LUSEDn (R48). -/
def State.charge (s : State) (c n : Nat) : State :=
  match s.levelOf c with
  | some l => s.bumpBy (Reg.CELL_LUSED_CYC c l) n
  | none => s

/-- Enters the I-, F- or D-bank (R256): the bank that is left keeps its registers, and the refill counts to the level
whose bank was left (R198, R259). -/
def State.enterBank (s : State) (c b : Nat) (pc : SylAddr) : State :=
  let lvl := s.levelNum c
  let s := ((s.retireLoad c).undoze (clusterOf c)).modCell c (fun x => { x with hLevel := lvl, pq := [] })
  let s := s.setBank c b ((s.bank c b).enter pc (s.handlerDom c b))
  (s.put (Reg.CELL_STATE_BANK c) b).charge c 8

/-- Lockup of a cell (R265) by a fault of code `second`. -/
def State.lockup (s : State) (c second : Nat) : State :=
  let ent := (s.cell c).entF
  let k := clusterOf c
  let s :=
    if s.on (Reg.CELL_DFAULT_VALID c) then s
    else ((((s.raise (Reg.CELL_DFAULT_VALID c)).put (Reg.CELL_DFAULT_BANK c) (s.get (Reg.CELL_FCAUSE_BANK c))).putB
      (Reg.CELL_DFAULT_ENT c) ent).put (Reg.CELL_DFAULT_FIRST c) (s.get (Reg.CELL_FCAUSE_CODE c))).put
      (Reg.CELL_DFAULT_SECOND c) second
  let s := (s.retireLoad c).modCell c (fun x => { x with entF := false, dreq := none })
  let s := s.put (Reg.CELL_STATE_BANK c) bankIdle
  let s := s.raise ⟨cluBase k + 0x30, s.slotOf c, 1⟩
  let s := s.send { src := srcCell s c, kind := 0x23, cls := clsF, av := false, pers := true, info := c }
  if s.on Reg.RPR_CTRL_LKMIG then s.failureEvent c 4 else s

/-- The code under which a bank's mask lets a fault through (R260, R261). -/
def escalates (mask : BitVec 2) (code : Nat) : Bool :=
  ((code = 3 || code = 4) && decide (mask.toNat ≥ 2)) || ((code = 8 || code = 11) && decide (mask.toNat = 3))

/-- Writes the fault record (R255): FPC and FRPC take the PC of the bank that is left, which for fault 7 with INFO 7 need not
be the level's bank that BANK names (R276). DESIGN CHOICE (log entry 77): FPADDR is 0 for codes 2 and 6, for which the rule gives no
physical address, and for code 7 with INFO 5 and 6, which have none. -/
def State.faultRecord (s : State) (c : Nat) (f : CellFault) (code orig bank : Nat) (async : Bool) : State :=
  let pc := s.cur c |>.pc.toNat
  let cause : Word :=
    setFld (setFld (setFld (setFld (setFld (setFld 0 0 4 code) 4 4 bank) 8 4 orig) 12 8 f.info) 20 1 (b2n async)) 21 1
      (b2n (s.bank c bank).link.occ)
  let adr := f.code = 2 || f.code = 6 || f.code = 7
  let s := s.setReg (Reg.CELL_FCAUSE_CODE c).off cause
  let s := s.put (Reg.CELL_FPC_PC c) pc
  let s := s.put (Reg.CELL_FRPC_PC c) pc
  let s := s.put (Reg.CELL_FADDR_VA c) (if adr then f.va else 0)
  let s := s.put (Reg.CELL_FPADDR0_LO c) (if f.code = 7 then f.pa else 0)
  let s := s.put (Reg.CELL_FPADDR1_HI c) (if f.code = 7 then f.pa / 2 ^ 36 else 0)
  s.bump (Reg.CELL_FCOUNT_COUNT c)

/-- TAKING A FAULT (R255, R256, R260, R261, R264) recorded for bank `rec`: the fault record is written and the
F-bank entered at syllable address 32 x code, in place of that code 9 when the bank's mask escalates it; a fault in
the F-bank locks the cell up. DESIGN CHOICE (R265): a masked fault 3 or 4 of the F-bank is recorded in CELL_DFAULT.SECOND
under its own code, and no escalation is reported. -/
def State.takeFaultFor (s : State) (c : Nat) (f : CellFault) (rec : Nat) (async : Bool) : State :=
  if s.running c = bankF then s.lockup c f.code
  else
    let esc := escalates (s.bank c rec).mask f.code
    let code := if esc then 9 else f.code
    let s := if esc then s.sendInfo (srcCell s c) 0x22 clsU (f.code * 256 + c) else s
    let s := s.faultRecord c f code (if esc then f.code else 0) rec async
    let s := s.enterBank c bankF (BitVec.ofNat 34 (32 * code))
    s.modCell c (fun x => { x with entF := true })

/-- The prefetch queue is flushed (R193). -/
def State.flushPq (s : State) (c : Nat) : State := s.modCell c (fun x => { x with pq := [] })

/-- A synchronous fault of the running bank. -/
def State.takeFault (s : State) (c : Nat) (f : CellFault) : State := s.takeFaultFor c f (s.running c) false

/-- Raises an asynchronous fault (R257): it waits until FAULT_ENTRY accepts it in a level's bank; code 8 is not raised
while the F- or the D-bank runs (R54), and a locked-up cell raises none (R265). DESIGN CHOICE: a code 8 that arises while the
cell is idle waits in the same way (R257), and one that arises while the F-bank is being entered waits, or for code 8 is not
raised, and locks nothing up (R264). -/
def State.raiseAsync (s : State) (c : Nat) (f : HeldFault) : State :=
  let b := s.running c
  if s.dead c || (decide (f.code = 8) && (b = bankF || b = bankD)) then s
  else s.modCell c (fun x => { x with held := x.held ++ [f] })

/-- The oldest held asynchronous fault is accepted in a level's bank (R257). -/
def State.takeHeld (s : State) (c : Nat) : State :=
  match (s.cell c).held with
  | [] => s
  | f :: rest =>
    if s.running c < 8 then
      let s := s.modCell c (fun x => { x with held := rest, dreq := if x.dreq = some 1 then none else x.dreq })
      let rec' := if f.code = 7 then f.level else s.running c
      s.takeFaultFor c { code := f.code.toNat, info := f.info.toNat, va := f.fa.toNat, pa := f.pa } rec' true
    else s

/-- Resumes a bank after IRET, FRET or DRET (R263). -/
def State.resume (s : State) (c b : Nat) : State := (s.flushPq c).put (Reg.CELL_STATE_BANK c) b

/-! ## Translation (R304-R307) -/

def Region.covers (e : Region) (va : Nat) : Bool :=
  decide (e.vbase * 64 ≤ va) && decide (va < e.vbase * 64 + e.size * 64)

/-- The running bank's region set holds its domain (R308). A set is filled from the installed entries and dropped by every
broadcast for its domain (R309), so what a filled set holds is what is installed. -/
def State.setHeld (s : State) (c : Nat) : Bool := decide (slookup (s.running c) (s.cell c).sets = some (s.cur c).dom)

/-- The refill of R308, which a translation of `va` by the running bank waits for: 64 cycles, charged outside Throughput mode;
the home region needs no set. -/
def State.refill (s : State) (c va : Nat) : State :=
  if va < 0x4000 ∨ s.setHeld c then s
  else
    let dom := (s.cur c).dom
    let s := s.modCell c (fun x => { x with sets := sinsert (s.running c) dom x.sets })
    if s.throughput c then s else s.charge c 64

/-- Translates a virtual word address of cell `c` through domain `dom`; none is a region miss (R307). -/
def State.translate (s : State) (c dom va : Nat) : Option Phys :=
  if va < 0x4000 then some ⟨ownStore c va, none, false, 0⟩
  else
    match (List.range 8).find? (fun r => match slookup (8 * dom + r) s.installed with
      | some e => e.covers va
      | none => false) with
    | none => none
    | some r => match slookup (8 * dom + r) s.installed with
      | none => none
      | some e => some ⟨e.pbase + (va - e.vbase * 64), some (8 * dom + r), e.dev, e.cache.toNat⟩

/-- The translation under which the instruction in progress works: the one of its own earlier requests (R309), or a new one. -/
def State.place (s : State) (c dom va : Nat) : Option Phys :=
  match slookup va (s.cell c).xlat with
  | some p => some p
  | none => s.translate c dom va

/-- The instruction in progress keeps a translation under which it has made a request (R309). -/
def State.keepPlace (s : State) (c va : Nat) (p : Phys) : State := s.modCell c (fun x => { x with xlat := sinsert va p x.xlat })

/-- A fresh free value index (the model's own). -/
def State.tickFresh (s : State) : State := { s with fresh := s.fresh + 1 }

/-- CLU_CYC0 and CLU_CYC1 of a cluster take free values, as they stand now (R559). -/
def State.takeCycles (s : State) (k : Nat) : State :=
  let s := s.setReg (Reg.CLU_CYC0_LO k).off (Config.cluCycles s.fresh)
  let s := s.setReg (Reg.CLU_CYC1_HI k).off (Config.cluCycles (s.fresh + 1))
  { s with fresh := s.fresh + 2 }

end Sys2Proof.Machine
end

