-- ==== Sys2Proof/Machine/Clock.lean ====
section
/-! DEFINITION. Clock.lean: the frame clock's timeline, start and stop, lock, time port and holdover (02 R30-R42,
22 R540). Instants are counts of 2^-16 ns. -/

namespace Sys2Proof.Machine

open Sys2Proof

def ns (n : Nat) : Nat := n * 65536
def second : Nat := ns 1000000000

/-! ## Settings and timeline (R34-R36, R40) -/

def State.frmPeriod (s : State) : Nat := s.get Reg.FRM_PERIOD0_LO + s.get Reg.FRM_PERIOD1_HI * 2 ^ 36
def State.frmAnchor (s : State) : Nat := s.get Reg.FRM_ANCHOR0_LO + s.get Reg.FRM_ANCHOR1_HI * 2 ^ 36

/-- The settings as their registers stand. -/
def State.settings (s : State) : Timeline :=
  { period := s.frmPeriod, tps := s.get Reg.FRM_TPS_TPS, anchor := s.frmAnchor, depth := s.get Reg.FRM_DEPTH_D,
    guard := s.get Reg.FRM_GUARD_NS, cguard := s.get Reg.FRM_CGUARD_NS }

/-- The checks of R40. -/
def Timeline.sound (t : Timeline) : Bool :=
  let p := t.period / 65536
  decide (3276800000 ≤ t.period ∧ t.period ≤ 65536000000000) &&
  (decide (t.tps = 0) || (decide (t.tps ≤ 20000) &&
    decide (2 * (t.tps * t.period - second) ≤ t.tps ∧ 2 * (second - t.tps * t.period) ≤ t.tps))) &&
  decide (t.depth = 1 ∨ t.depth = 2) && decide (2 * t.guard ≤ p) &&
  decide ((if t.depth = 1 then 500 else 0) ≤ t.cguard ∧ 2 * t.cguard ≤ p)

/-- T(n): the ideal instant of tick n (R35, R36). -/
def Timeline.instant (t : Timeline) (n : Nat) : Nat :=
  if t.tps = 0 then ns t.anchor + n * t.period else n / t.tps * second + n % t.tps * t.period

/-- The number of the first tick whose ideal instant is at or after `x`. -/
def Timeline.firstAt (t : Timeline) (x : Nat) : Nat :=
  if t.tps = 0 then (x - ns t.anchor + t.period - 1) / t.period
  else
    let s := x / second
    let k := (x % second + t.period - 1) / t.period
    if k < t.tps then s * t.tps + k else (s + 1) * t.tps

/-- Thaw has ended, at RUN-READY or in Hold (R507, R508). -/
def State.thawOver (s : State) : Bool := decide (s.get Reg.THAW_STATUS_PHASE = 6) || s.on Reg.THAW_STATUS_HOLD

/-- Every cluster is STOPPED or DEFECTIVE (R39). -/
def State.allStopped (s : State) : Bool :=
  (List.range 16).all (fun k => decide (s.runState k = runStopped) || decide (s.runState k = runDefective))

/-! ## Start and stop (R39, R40, R42) -/

/-- EN goes from 0 to 1: the settings are checked. -/
def State.clockEnable (s : State) : State :=
  let s := s.raise Reg.FRM_CTRL_EN
  let t := s.settings
  if t.sound then
    let s := s.raise Reg.FRM_STAT_WAITLOCK
    { s with frm := { s.frm with line := some t, next := none,
                                 since := if s.on Reg.FRM_STAT_LOCK then some s.frm.now else none } }
  else
    let s := s.raise Reg.FRM_STAT_CFGERR
    { s with frm := { s.frm with line := none, next := none, since := none } }

/-- EN goes from 1 to 0: no further tick; frame time may return to the port (R30, R42). -/
def State.clockDisable (s : State) : State :=
  let s := s.put Reg.FRM_CTRL_EN 0
  let s := ((s.put Reg.FRM_STAT_RUN 0).put Reg.FRM_STAT_CFGERR 0).put Reg.FRM_STAT_WAITLOCK 0
  let s := s.put Reg.FRM_STAT_SLEWING 0
  { s with frm := { s.frm with next := none, since := none, slew := 0, keep := none } }

/-- A write of FRM_CTRL (R39, R500). -/
def State.writeFrmCtrl (s : State) (v : Word) : State :=
  let s := s.put Reg.FRM_CTRL_SLEW (fld v 1 2)
  let en := bit v 0
  if en = s.on Reg.FRM_CTRL_EN then s
  else if ¬ s.allStopped ∨ (en ∧ ¬ s.thawOver) then s.raise Reg.FRM_STAT_WERR
  else if en then s.clockEnable else s.clockDisable

/-! ## Lock, holdover, time (R30-R33, R540) -/

/-- The lock indication: TP_LOCK and the PPS check. -/
def State.lockSeen (s : State) : Bool := s.frm.lockPin && s.frm.ppsOk

/-- LOCK follows the indication, with a message for each change once Thaw is over (R30); a change restarts or ends the
wait for the first tick (R40). -/
def State.followLock (s : State) : State :=
  if s.thawOver && (s.on Reg.FRM_STAT_LOCK != s.lockSeen) then
    let b := s.lockSeen
    let s := s.putB Reg.FRM_STAT_LOCK b
    let s := s.sendInfo srcFrame 0x30 clsC (b2n b)
    if s.on Reg.FRM_STAT_WAITLOCK then
      { s with frm := { s.frm with since := if b then some s.frm.now else none } }
    else s
  else s

/-- TIME_LOCK_CHANGE: the TP_LOCK level; the block takes no notice of it in block reset (R539). -/
def State.timeLock (s : State) (b : Bool) : State := ({ s with frm := { s.frm with lockPin := b } }).heard State.followLock

/-- PPS_EDGE: passes within 2 fabric cycles of the whole second (R540). -/
def State.ppsEdge (s : State) (off : Nat) : State :=
  s.heard fun s => ({ s with frm := { s.frm with ppsOk := decide (off ≤ 2) } }).followLock

/-- A fabric cycle of 1.25 ns (R6), and the 16 us of R30 and the 2 us of R33 in fabric cycles. -/
def fabricCycle : Nat := 81920
def absorbCycles : Nat := 12800
def holdCycles : Nat := 1600

/-- Frame time `x` fabric cycles after its base (R30, R540): it advances at the rate of the last two updates and absorbs the
difference found at the last one uniformly; it never runs backwards. -/
def FrameClock.timeAt (f : FrameClock) (x : Nat) : Nat :=
  max f.now (((f.base + x * f.pace.1 / f.pace.2 : Nat) : Int) + f.absorb * (min x f.span : Nat) / f.span).toNat

/-- Frame time stands at `t` and goes on from there. -/
def FrameClock.rebase (f : FrameClock) (t : Nat) : FrameClock :=
  { f with now := t, base := t, cyc := 0, absorb := 0, span := absorbCycles }

/-- The rate after an update (R540): that of the last two updates. One that comes with a time step, at which the port does not
advance, or in the cycle of the one before, gives no rate, and the last one stays. -/
def FrameClock.paced (f : FrameClock) (x tai : Nat) : Nat × Nat :=
  if 0 < x ∧ f.port < tai ∧ tai - f.port ≤ x * f.pace.1 / f.pace.2 + ns 1000 then (tai - f.port, x) else f.pace

/-- HOLDOVER (R33): 2 us after the port's last advance frame time goes on at the nominal rate of the fabric clock; what it has
not absorbed yet it goes on absorbing. -/
def State.holdover (s : State) : State :=
  if s.thawOver && !s.on Reg.FRM_STAT_HOLD then
    let s := (s.raise Reg.FRM_STAT_HOLD).sendInfo srcFrame 0x32 clsU 0
    let f := s.frm
    let x := max f.cyc holdCycles
    let left := f.span - min x f.span
    { s with frm := { f.rebase (f.timeAt x) with pace := (fabricCycle, 1), absorb := f.absorb * left / f.span, span := max 1 left } }
  else s

def absDiff (a b : Nat) : Nat := (a - b) + (b - a)

/-- Frame time as a read of FRM_TIME finds it: some fabric cycles after it was last found, and before the next tick. -/
def State.readTime (s : State) : State :=
  if s.thawOver then
    let f := s.frm
    let x := f.cyc + Config.elapsedCycles s.fresh
    let bound := match f.line, f.next with
      | some t, some n => if s.on Reg.FRM_STAT_RUN then t.instant n else f.timeAt x
      | _, _ => f.timeAt x
    ({ s with frm := { f with now := max f.now (min bound (f.timeAt x)), cyc := if f.timeAt x ≤ bound then x else f.cyc } }).tickFresh
  else s

/-- Sets frame time. -/
def State.setNow (s : State) (t : Nat) : State := { s with frm := s.frm.rebase t }

/-- Frame time runs on and absorbs a difference of at most 1,000 ns over the following 16 us (R30). -/
def State.absorb (s : State) (t goal : Nat) : State :=
  let s := (s.setNow t).put Reg.FRM_STAT_SLEWING 0
  { s with frm := { s.frm with slew := 0, absorb := (goal : Int) - (t : Int) } }

/-- Frame time takes the port's value while RUN = 0 (R30); what has passed of the wait for the first tick stays passed (R40). -/
def State.jumpTime (s : State) (t tai : Nat) : State :=
  { s with frm := { s.frm.rebase tai with since := s.frm.since.map (fun x => x + tai - t) } }

/-- A time step while RUN = 1 (R31, R32): it is slewed, or refused with frame time keeping its offset. -/
def State.timeStep (s : State) (t port : Nat) : State :=
  let s := s.setNow t
  if absDiff t port ≤ second ∧ s.get Reg.FRM_CTRL_SLEW ≠ 0 ∧ s.frm.keep = none then
    let s := s.raise Reg.FRM_STAT_SLEWING
    { s with frm := { s.frm with slew := (port : Int) - (t : Int) } }
  else
    let s := (s.raise Reg.FRM_STAT_TIMEERR).sendInfo srcFrame 0x31 clsU 0
    let s := s.put Reg.FRM_STAT_SLEWING 0
    { s with frm := { s.frm with slew := 0, keep := some ((t : Int) - (s.frm.port : Int)) } }

/-- TIME_UPDATE (R30-R33, R540): the port carries `tai`, `cycles` fabric cycles after the last update or the beginning of
holdover. -/
def State.timeUpdate (s : State) (tai cycles : Nat) : State :=
  if s.thawOver then
    let x := max s.frm.cyc cycles
    let t := s.frm.timeAt x
    let s := s.put Reg.FRM_STAT_HOLD 0
    let s := { s with frm := { s.frm with port := tai, pace := s.frm.paced x tai } }
    if s.on Reg.FRM_STAT_RUN then
      let goal := match s.frm.keep with
        | some o => ((tai : Int) + o).toNat
        | none => tai
      if absDiff t goal ≤ ns 1000 then s.absorb t goal else s.timeStep t goal
    else if absDiff t tai ≤ ns 1000 then s.absorb t tai
    else s.jumpTime t tai
  else s

/-- Largest change of a frame's length by the slew (R31): the fraction of the period that SLEW selects. -/
def slewStep (rate period : Nat) : Nat :=
  if rate = 1 then period / 4096 else if rate = 2 then period / 1024 else if rate = 3 then period / 256 else 0

/-- The slew's progress in the frame that ends at a tick (R31), by which frame time comes nearer to the port; holdover suspends
it (R33). -/
def State.slewFrame (s : State) : State :=
  if s.on Reg.FRM_STAT_SLEWING && !s.on Reg.FRM_STAT_HOLD then
    let p := match s.frm.line with
      | some t => t.period
      | none => 0
    let d : Int := slewStep s.frm.rate p
    let left : Int := if s.frm.slew > d then s.frm.slew - d else if s.frm.slew < -d then s.frm.slew + d else 0
    let s := if left = 0 then s.put Reg.FRM_STAT_SLEWING 0 else s
    { s with frm := { s.frm with slew := left, base := ((s.frm.base : Int) + (s.frm.slew - left)).toNat } }
  else s

/-- The tick that the clock may place next (R40): its number, and whether it is the first one. -/
def State.dueTick (s : State) : Option (Nat × Bool) :=
  if s.on Reg.FRM_CTRL_EN then
    match s.frm.line with
    | none => none
    | some t =>
      match s.frm.next with
      | some n => some (n, false)
      | none =>
        match s.frm.since with
        | some x => if s.on Reg.FRM_STAT_LOCK then some (t.firstAt (max (x + ns 100000) s.frm.now), true) else none
        | none => none
  else none

/-- Places tick `n` (R18 step 1, R37): the count, the instant, frame time, which never runs backwards (R30), and the slew of the
frame before. -/
def State.placeTick (s : State) (n : Nat) (first : Bool) : State :=
  let at_ := match s.frm.line with
    | some t => t.instant n
    | none => 0
  let s := if first then (s.put Reg.FRM_STAT_WAITLOCK 0).raise Reg.FRM_STAT_RUN else s.slewFrame
  let s := s.setReg Reg.FRM_COUNT0_LO.off (BitVec.ofNat 36 n)
  let s := s.setReg Reg.FRM_COUNT1_HI.off (BitVec.ofNat 36 (n / 2 ^ 36))
  let s := s.setReg Reg.FRM_TICKT0_LO.off (BitVec.ofNat 36 (at_ / 65536))
  let s := s.setReg Reg.FRM_TICKT1_HI.off (BitVec.ofNat 36 (at_ / 65536 / 2 ^ 36 % 2 ^ 28))
  { s with frm := { s.frm with next := some (n + 1), first := if first then n else s.frm.first, since := none, tickAt := at_, now := max at_ s.frm.now,
                               rate := s.get Reg.FRM_CTRL_SLEW } }

/-- Commit depth in use (R39). -/
def State.depth (s : State) : Nat :=
  match s.frm.line with
  | some t => t.depth
  | none => 1

end Sys2Proof.Machine
end

