-- ==== Sys2Proof/Machine/Irq.lean ====
section
/-! DEFINITION. Irq.lean: the interrupt distributor (14 R381-R397). -/

namespace Sys2Proof.Machine

open Sys2Proof

/-- Sources exist from 1 to 4,095 (R381). -/
def State.irqEn (s : State) (src : Nat) : Bool := s.on (Reg.IRQ_CFG_EN src)
/-- Level-resample: a KIND written while the source is in service applies from its completion on (R386). -/
def State.irqLevel (s : State) (src : Nat) : Bool := (slookup src s.kinds).getD (s.on (Reg.IRQ_CFG_KIND src))
def State.irqTarget (s : State) (src : Nat) : Nat := s.get (Reg.IRQ_CFG_TARGET src)
def State.irqLvec (s : State) (src : Nat) : Nat := s.get (Reg.IRQ_CFG_LVEC src)
def State.irqPend (s : State) (src : Nat) : Bool := s.on (Reg.IRQ_ST_PEND src)
def State.irqInsv (s : State) (src : Nat) : Bool := s.on (Reg.IRQ_ST_INSV src)
def State.irqLine (s : State) (src : Nat) : Bool := s.on (Reg.IRQ_ST_LINE src)

/-- R384: eligible for presentation. -/
def State.eligible (s : State) (src : Nat) : Bool :=
  s.irqEn src && s.irqPend src && !s.irqInsv src && decide (s.irqLvec src ≠ 0)

/-- The source a listed configuration word belongs to. -/
def cfgSource (off : Nat) : Option Nat :=
  if 0x10002 ≤ off ∧ off < 0x12000 ∧ off % 2 = 0 then some ((off - 0x10000) / 2) else none

/-- The lowest-numbered eligible source whose TARGET is `c` (R387). -/
def State.choose (s : State) (c : Nat) : Option Nat :=
  (s.ctl.filterMap (fun e => cfgSource e.1)).find? (fun src => s.eligible src && decide (s.irqTarget src = c))

/-- A cell has a source in service (R389). -/
def State.inService (s : State) (c : Nat) : Bool := s.on (Reg.CELL_ISRV_V c)

/-- A source that wakes a cluster in Retain (R394): eligible, with WAKE = 1, and one of its cells its target. -/
def State.wakes (s : State) (k : Nat) : Bool :=
  (s.ctl.filterMap (fun e => cfgSource e.1)).any (fun src =>
    s.eligible src && s.on (Reg.IRQ_CFG_WAKE src) && decide (clusterOf (s.irqTarget src) = k))

/-- A source that the distributor may still deliver to a cell: eligible, with the cell its target (R384, R391). -/
def State.deliverable (s : State) (c src : Nat) : Bool := s.eligible src && decide (s.irqTarget src = c)

/-- Chooses again for a cell (R387, R389, R395): a withdrawn source stays presented until another takes its place,
which is what makes a delivery spurious (R391); where another does, the cell is noted as one whose acceptance the withdrawal may
have met (R393). A presentation ungates a cluster in Doze (R394); a cluster in Retain is presented nothing, and one in Off holds no
presentation. -/
def State.presentTo (s : State) (c : Nat) : State :=
  let k := clusterOf c
  if s.inService c || decide (s.runState k = runDefective) || decide (s.power k = pwRetain) ||
      (decide (s.power k = pwOff) && !s.on (emulFld k)) then s
  else match s.choose c with
    | some src =>
      let s := match slookup c s.presented with
        | some old => if s.deliverable c old then s else { s with withdrawn := setInsert c s.withdrawn }
        | none => s
      { s with presented := sinsert c src s.presented }.undoze k
    | none => s

/-- A cluster leaves Retain: the distributor presents to each of its cells what waited (R394). -/
def State.leaveRetain (s : State) (k : Nat) : State := (clusterCells k).foldl State.presentTo (s.wakeRetain k)

/-- Chooses again for a cell; a source with WAKE = 1 wakes a cluster in Retain first (R394). -/
def State.present (s : State) (c : Nat) : State :=
  if s.power (clusterOf c) = pwRetain ∧ s.wakes (clusterOf c) then s.leaveRetain (clusterOf c) else s.presentTo c

/-- A cell of a cluster that loses its delivery state holds no presentation (R394, R395). -/
def State.dropPresented (s : State) (k : Nat) : State :=
  { s with presented := s.presented.filter (fun e => decide (clusterOf e.1 ≠ k)),
           withdrawn := s.withdrawn.filter (fun c => decide (clusterOf c ≠ k)) }

/-- Applies a change to a source's words, notes that it became eligible for a cell that is unavailable (R395), and
chooses again for the target before and after (R387). -/
def State.irqChange (s : State) (src : Nat) (f : State → State) : State :=
  let t := f s
  let t := if !s.eligible src && t.eligible src && decide (t.runState (clusterOf (t.irqTarget src)) = runDefective)
    then t.raise Reg.IRQ_STAT_NOTGT else t
  let t := t.present (t.irqTarget src)
  if s.irqTarget src = t.irqTarget src then t else t.present (s.irqTarget src)

/-- An arrival (R383, R385). -/
def State.arrival (s : State) (src : Nat) : State :=
  s.irqChange src fun s =>
    if s.irqLevel src then s.raise (Reg.IRQ_ST_PEND src)
    else if !s.irqPend src && !s.irqInsv src then s.raise (Reg.IRQ_ST_PEND src)
    else if s.get (Reg.IRQ_ST_CNT src) < 15 then s.put (Reg.IRQ_ST_CNT src) (s.get (Reg.IRQ_ST_CNT src) + 1)
    else (s.raise (Reg.IRQ_ST_SAT src)).bump Reg.IRQ_LOST_COUNT

/-- A write of IRQ_CFGs (R386): a source in service keeps its KIND until its completion. -/
def State.irqConfigure (s : State) (src : Nat) (write : State → State) : State :=
  s.irqChange src fun s =>
    let old := s.irqLevel src
    let s := write s
    if s.irqInsv src then { s with kinds := sinsert src old s.kinds } else s

/-- Drives a source's line (R382, R383): a rising edge is an arrival. -/
def State.setLine (s : State) (src : Nat) (b : Bool) : State :=
  let was := s.irqLine src
  let s := s.putB (Reg.IRQ_ST_LINE src) b
  if b && !was then s.arrival src else s

/-- IRQ_PENDCLR (R385). -/
def State.pendClr (s : State) (src : Nat) : State :=
  s.irqChange src fun s =>
    let s := s.put (Reg.IRQ_ST_PEND src) 0
    if s.irqLevel src then s else s.put (Reg.IRQ_ST_CNT src) 0

/-- A line write (R382): one that names a source below 16 is refused. -/
def State.irqWrite (s : State) (src : Nat) (f : State → State) : State :=
  if src < 16 then s.raise Reg.IRQ_STAT_BADSRC else f s

def State.irqAssert (s : State) (src : Nat) : State := s.irqWrite src (fun s => s.setLine src true)
def State.irqDeassert (s : State) (src : Nat) : State := s.irqWrite src (fun s => s.setLine src false)
/-- A pulse sets the line and clears it in the following cycle (R382). -/
def State.irqPulse (s : State) (src : Nat) : State :=
  s.irqWrite src (fun s => (s.setLine src true).setLine src false)
/-- IRQ_PENDSET and IRQ_PENDCLR act on the sources 1 to 4,095; a write that names source 0 is ignored. -/
def State.irqPendset (s : State) (src : Nat) : State := if src = 0 then s else s.arrival src
def State.irqPendclr (s : State) (src : Nat) : State := if src = 0 then s else s.pendClr src

/-- Completion of the interrupt in service (R385, R392): by the cell that accepted it; a spurious delivery
completes nothing. -/
def State.irqComplete (s : State) (c : Nat) : State :=
  if s.inService c then
    let src := s.get (Reg.CELL_ISRV_SRC c)
    let s := s.setReg (Reg.CELL_ISRV_V c).off 0
    let s := if src = 0 then s else s.irqChange src fun s =>
      let s := { s with kinds := serase src s.kinds }.put (Reg.IRQ_ST_INSV src) 0
      if s.irqLevel src then s.putB (Reg.IRQ_ST_PEND src) (s.irqPend src || s.irqLine src)
      else if s.get (Reg.IRQ_ST_CNT src) ≠ 0 then
        (s.put (Reg.IRQ_ST_CNT src) (s.get (Reg.IRQ_ST_CNT src) - 1)).raise (Reg.IRQ_ST_PEND src)
      else s
    s.present c
  else s

/-- The levels of the lines that block units drive (R381): sources 1 to 7. -/
def State.unitLine (s : State) (src : Nat) : Bool :=
  match src with
  | 1 => decide (s.get Reg.MOR_IRQ_EV &&& s.get Reg.MOR_IEN_EN ≠ 0)
  | 2 => s.on Reg.FRM_STAT_WERR || s.on Reg.FRM_STAT_CFGERR || s.on Reg.FRM_STAT_TIMEERR || s.on Reg.FRM_STAT_HOLD
  | 3 => s.on Reg.IMG_STAT_WERR || s.on Reg.IMG_STAT_INERR || s.on Reg.IMG_STAT_EGLATE || s.on Reg.IMG_STAT_PMM
  | 4 => decide (fld (s.reg Reg.KEEP_IRQ_CDONE.off) 0 3 &&& s.get Reg.KEEP_IEN_EN ≠ 0)
  | 5 => decide (s.get Reg.RPR_IRQ_EV &&& s.get Reg.RPR_IEN_EN ≠ 0)
  | 6 => s.on Reg.STBY_STAT_FRMIS || s.on Reg.STBY_STAT_EDMIS || s.on Reg.STBY_STAT_TAKEN ||
      decide (s.get Reg.STBY_STAT_STATE = 5)
  | 7 => (List.range 8).any (fun n => decide (s.get (Reg.BP_IRQ_EV n) &&& s.get (Reg.BP_IEN_EN n) ≠ 0))
  | _ => false

/-- Brings the unit-driven lines up to date (R381). -/
def State.settle (s : State) : State :=
  [1, 2, 3, 4, 5, 6, 7].foldl (fun s src => if s.irqLine src = s.unitLine src then s else s.setLine src (s.unitLine src)) s

/-- A debug event waits for its entry (R529). -/
def State.debugDue (s : State) (c : Nat) : Bool := (s.cell c).dreq.isSome || s.on (Reg.CELL_DCTL_HALT c)

/-- The conditions of R388 and R257 under which a cell accepts a presentation, with the precedence of R258. -/
def State.acceptsIrq (s : State) (c : Nat) : Bool :=
  let b := s.running c
  let x := s.cell c
  s.live c && !s.dead c && !s.selfTest c && !s.inService c && !x.hold && !x.win && !x.resetDue && decide (x.cold = 0) &&
    (b = bankIdle || ((b < 8 || b = bankD) && decide ((s.bank c b).mask = 0) && (b = bankD || x.held.isEmpty))) &&
    (b = bankD || !s.debugDue c)

/-- INTERRUPT_ENTRY (R388-R391): the cell accepts the presented source and enters the I-bank at its vector; a source withdrawn
since its presentation is delivered as LVEC 0. Where another source has taken a withdrawn one's place since the cell's last
acceptance, a free value says whether the withdrawal met the acceptance in one cycle, which counts it as after the
presentation and makes the delivery spurious (R393). -/
def State.interruptEntry (s : State) (c : Nat) : State :=
  match slookup c s.presented with
  | none => s
  | some src =>
    if s.acceptsIrq c then
      let met := s.withdrawn.contains c && Config.withdrawalMeets s.fresh
      let s := if s.withdrawn.contains c then s.tickFresh else s
      let good := s.deliverable c src && !met
      let lvec := if good then s.irqLvec src else 0
      let s := { s with presented := serase c s.presented, withdrawn := setErase c s.withdrawn }
      let s := if good then (s.put (Reg.IRQ_ST_PEND src) 0).put (Reg.IRQ_ST_INSV src) 1
        else s.bump Reg.IRQ_SPUR_COUNT
      let s := s.setReg (Reg.CELL_ISRV_V c).off
        (setFld (setFld (setFld 0 35 1 1) 8 12 (if good then src else 0)) 0 8 lvec)
      let b := s.running c
      let s := s.modCell c (fun x => { x with iFrom := b })
      let va := (s.get (Reg.CELL_IVBASE_VA c) + 4 * lvec) % 2 ^ 32
      s.enterBank c bankI (BitVec.ofNat 34 (4 * va))
    else s

end Sys2Proof.Machine
end

