-- ==== Sys2Proof/Machine/Sched.lean ====
section
/-! DEFINITION. Sched.lean: the hardware scheduler of a cell (10 R271-R295) and the overrun of level 0 (02 R49-R55). -/

namespace Sys2Proof.Machine

open Sys2Proof

/-! ## Level and task states (R283, R284) -/

def lvOff : Nat := 0
def lvDone : Nat := 1
def lvActive : Nat := 2
def lvLoading : Nat := 3

def tkDone : Nat := 0
def tkEntry : Nat := 1
def tkResume : Nat := 2
def tkWaiting : Nat := 3

def State.lvState (s : State) (c n : Nat) : Nat := s.get (Reg.CELL_LSTAT_STATE c n)
def State.lvEn (s : State) (c n : Nat) : Bool := s.on (Reg.CELL_LCFG_EN c n)
def State.curTask (s : State) (c n : Nat) : Nat := s.get (Reg.CELL_LSTAT_CUR c n)
def taskFld (c n j : Nat) : Fld := ⟨cellBase c + 0x158 + n, 2 * j, 2⟩
def State.task (s : State) (c n j : Nat) : Nat := s.get (taskFld c n j)
def State.setTask (s : State) (c n j v : Nat) : State := s.put (taskFld c n j) v

/-- Highest task number that the level runs: task 0 only outside Throughput mode (R277). -/
def State.lastTask (s : State) (c n : Nat) : Nat := if s.throughput c then s.get (Reg.CELL_LCFG_NTASK c n) else 0

/-- Some pending count of the level is non-zero (R279). -/
def State.pendingEvent (s : State) (c n : Nat) : Bool :=
  decide (s.get (Reg.CELL_LEV_POST c n) + s.get (Reg.CELL_LEV_DB c n) + s.get (Reg.CELL_LEV_TIM c n) ≠ 0)

/-- A task that may run (R284). -/
def State.runnable (s : State) (c n j : Nat) : Bool :=
  let t := s.task c n j
  t = tkEntry || t = tkResume || (t = tkWaiting && s.pendingEvent c n)

/-- The tasks of a level in cyclic order after task `j`, `j` itself last. -/
def State.cyclic (s : State) (c n j : Nat) : List Nat :=
  let m := s.lastTask c n + 1
  (List.range m).map (fun i => (j + 1 + i) % m)

/-- R284: the first task after the current one that may run, the current one excepted. -/
def State.nextTask (s : State) (c n : Nat) : Option Nat :=
  ((s.cyclic c n (s.curTask c n)).filter (fun j => decide (j ≠ s.curTask c n))).find? (fun j => s.runnable c n j)

/-- The task that a dispatch of the level runs: task 0 at the start of an activation (R283), later the task in the bank while it
may run, and otherwise the next. DESIGN CHOICE (R284): where an event makes a level ready whose tasks all wait, the task in
the bank comes before the cyclic next one. -/
def State.dispatchTask (s : State) (c n : Nat) : Option Nat :=
  if (List.range (s.lastTask c n + 1)).all (fun j => decide (s.task c n j = tkEntry)) then some 0
  else if s.runnable c n (s.curTask c n) then some (s.curTask c n) else s.nextTask c n

/-- R286: a level is ready. -/
def State.ready (s : State) (c n : Nat) : Bool :=
  s.lvEn c n && decide (s.lvState c n = lvActive) && !s.dead c && decide (s.power (clusterOf c) ≤ 1) && (s.dispatchTask c n).isSome

/-- The most urgent ready level of a cell that runs. -/
def State.urgent (s : State) (c : Nat) : Option Nat := if s.live c then (List.range 8).find? (fun n => s.ready c n) else none

/-! ## Task control words (R276) -/

def State.tcwBase (s : State) (c n j : Nat) : Nat := s.get (Reg.CELL_LCFG_TCWB c n) * 32 + 32 * j

def State.storeWordKey (s : State) (c w : Nat) : Nat := storeKey (clusterOf c) (s.slotOf c) w

/-- sext(ACC[79:72], 8) as a word. -/
def accGuard (a : Acc) : Word := BitVec.ofNat 36 (wrapNat (sextNat (a.toNat / 2 ^ 72) 8) 36)
def accLo (a : Acc) : Word := a.extractLsb' 0 36
def accMid (a : Acc) : Word := a.extractLsb' 36 36
/-- An accumulator from its three saved words. -/
def accOf (lo mid g : Word) : Acc :=
  let g8 : BitVec 8 := g.extractLsb' 0 8
  g8 ++ (dword lo mid)

/-- Fields of FLAGS; its other bits are reserved and read 0 (R273). -/
def flagMask : Word := 0x3CF

/-- TCW word 18: DOM, MASK, P1-P7 and 1. -/
def Bank.ctlWord (k : Bank) : Word :=
  setFld (setFld (setFld 1 16 6 k.dom.toNat) 8 2 k.mask.toNat) 1 7 (k.p.toNat / 2)

def Bank.withCtlWord (k : Bank) (w : Word) : Bank :=
  { k with dom := BitVec.ofNat 6 (fld w 16 6), mask := BitVec.ofNat 2 (fld w 8 2),
           p := BitVec.ofNat 8 (2 * fld w 1 7 + 1) }

/-- The words of a TCW that the scheduler saves: offset, word, and the tag written with it (R246, R276). -/
def Bank.saveWords (k : Bank) (pos : Bool) : List (Nat × Word × Bool) :=
  ((List.range 4).flatMap (fun i =>
    let q := k.c[i % 4]'(Nat.mod_lt _ (by decide))
    [(2 * i, q.lo, q.tag), (2 * i + 1, q.hi, q.tag)])) ++
  ((List.range 4).map (fun i => (8 + i, (k.a[i % 4]'(Nat.mod_lt _ (by decide))).setWidth 36, false))) ++
  (if pos then [(12, k.pc.setWidth 36, false), (14, k.dsp.setWidth 36, false), (15, k.rsp.setWidth 36, false)] else []) ++
  [(16, k.flags, false), (17, k.rc, false), (18, k.ctlWord, false),
   (19, accLo k.acc0, false), (20, accMid k.acc0, false), (21, accGuard k.acc0, false),
   (22, accLo k.acc1, false), (23, accMid k.acc1, false), (24, accGuard k.acc1, false)]

/-- Saves a task's registers to its TCW. -/
def State.saveTcw (s : State) (c n j : Nat) (k : Bank) (pos : Bool) : State :=
  (k.saveWords pos).foldl (fun s (o, w, t) => s.writeWord (s.storeWordKey c (s.tcwBase c n j + o)) w 0xF t) s

/-- Words 0 to 24 of a TCW read at a restore, with the first word that reads with an uncorrectable error. DESIGN CHOICE (R276, log
entry 78): words 12, 14 and 15 are read whether the task resumes or starts at its entry, so that an error in one counts in both. -/
def State.readTcw (s : State) (c n j : Nat) : List (Word × Bool) × Option Nat × State :=
  (List.range 25).foldl (fun (acc : List (Word × Bool) × Option Nat × State) o =>
    let (ws, bad, s) := acc
    let w := s.tcwBase c n j + o
    let (r, s) := s.readWord (s.storeWordKey c w) (ownStore c w)
    let tag := s.tagOf (s.storeWordKey c w)
    let s := if o < 8 then s.tagCheck (s.storeWordKey c w) (srcCell s c) (ownStore c w) else s
    match r with
    | some v => (ws ++ [(v, tag)], bad, s)
    | none => (ws ++ [(0, false)], (if bad.isSome then bad else some w), s)) ([], none, s)

/-- A bank restored from the words of a TCW (R123, R276): its windows are empty with their ring slots zero. -/
def Bank.restore (k : Bank) (ws : List (Word × Bool)) (resumed : Bool) : Bank :=
  let w (i : Nat) : Word := (ws.getD i (0, false)).1
  let cap (i : Nat) : Cap := ⟨w (2 * i), w (2 * i + 1), (ws.getD (2 * i) (0, false)).2⟩
  let k := { k with
    c := #v[cap 0, cap 1, cap 2, cap 3],
    a := #v[(w 8).setWidth 32, (w 9).setWidth 32, (w 10).setWidth 32, (w 11).setWidth 32],
    flags := w 16 &&& flagMask, rc := w 17,
    acc0 := accOf (w 19) (w 20) (w 21), acc1 := accOf (w 22) (w 23) (w 24),
    dwin := Vector.replicate 16 0, dw := 0, rwin := Vector.replicate 8 0, rw := 0,
    shadow := [], pend := [], dmark := [], rmark := [], link := Link.empty }
  let k := k.withCtlWord (w 18)
  if resumed then { k with pc := (w 12).setWidth 34, dsp := (w 14).setWidth 32, rsp := (w 15).setWidth 32 } else k

/-- The bank of a task that starts at entry (R287). -/
def Bank.startAt (k : Bank) (entry : SylAddr) : Bank :=
  { k with
    pc := entry, dsp := BitVec.ofNat 32 (k.c[3]).top, rsp := BitVec.ofNat 32 (k.c[3]).base,
    dwin := Vector.replicate 16 0, dw := 0, rwin := Vector.replicate 8 0, rw := 0,
    shadow := [], pend := [], dmark := [], rmark := [],
    link := Link.empty, flags := setFld k.flags 6 4 0 }

/-! ## Activations and events -/

/-- Starts an activation (R283): every task RUNNABLE at entry, task 0 first. -/
def State.activate (s : State) (c n : Nat) : State :=
  let m := s.lastTask c n
  let s := (List.range (m + 1)).foldl (fun s j => s.setTask c n j tkEntry) s
  s.put (Reg.CELL_LSTAT_STATE c n) lvActive

/-- A level exhausted its cycle budget and starts nothing before the next tick (R49). -/
def State.barred (s : State) (c n : Nat) : Bool := (s.cell c).noStart.getLsbD n

/-- R283: a DONE level with TICK = 0 starts an activation while a pending count is non-zero. -/
def State.wakeLevel (s : State) (c n : Nat) : State :=
  if s.lvEn c n && decide (s.lvState c n = lvDone) && !s.on (Reg.CELL_LCFG_TICK c n) && s.pendingEvent c n && !s.barred c n
  then s.activate c n else s

/-- A level becomes DONE (R283): a waiting tick or a pending count starts the next activation. -/
def State.levelDone (s : State) (c n : Nat) : State :=
  let s := s.put (Reg.CELL_LSTAT_STATE c n) lvDone
  if s.barred c n then s
  else if s.on (Reg.CELL_LCFG_TICK c n) && s.on (Reg.CELL_LSTAT_TPEND c n) then
    (s.put (Reg.CELL_LSTAT_TPEND c n) 0).activate c n
  else s.wakeLevel c n

/-- The tick reaches a level (R278). -/
def State.levelTick (s : State) (c n : Nat) : State :=
  if s.lvEn c n && s.on (Reg.CELL_LCFG_TICK c n) then
    if s.lvState c n = lvDone then s.activate c n
    else if s.on (Reg.CELL_LSTAT_TPEND c n) then s.bump (Reg.CELL_LSTAT_TMISS c n)
    else if s.lvState c n = lvLoading ∨ 1 ≤ n then s.raise (Reg.CELL_LSTAT_TPEND c n)
    else s
  else s

/-- The three kinds of counted events (R279). -/
inductive EventKind where
  | post
  | doorbell
  | timer
deriving DecidableEq, Repr

def EventKind.count (e : EventKind) (c n : Nat) : Fld :=
  match e with
  | .post => Reg.CELL_LEV_POST c n
  | .doorbell => Reg.CELL_LEV_DB c n
  | .timer => Reg.CELL_LEV_TIM c n

def EventKind.enable (e : EventKind) (c n : Nat) : Fld :=
  match e with
  | .post => Reg.CELL_LCFG_POSTE c n
  | .doorbell => Reg.CELL_LCFG_DBE c n
  | .timer => Reg.CELL_LCFG_TIME c n

/-- The cell migrates: events that reach it are held and counted at the new slot (R294). -/
def State.moving (s : State) (c : Nat) : Bool := s.rpr.migs.any (fun m => decide (m.cell = c))

/-- R279: the target accepts an event of this kind; a locked-up or failed cell accepts none (R265). -/
def State.takesEvent (s : State) (e : EventKind) (c n : Nat) : Bool :=
  s.lvEn c n && s.on (e.enable c n) && (!s.dead c || s.moving c) && decide (s.runState (clusterOf c) = runRun)

/-- An event reaches a level (R279). -/
def State.event (s : State) (e : EventKind) (c n : Nat) : State :=
  if s.takesEvent e c n then
    let s := s.undoze (clusterOf c)
    let s := if s.get (e.count c n) < 255 then s.put (e.count c n) (s.get (e.count c n) + 1)
      else (s.raise (Reg.CELL_LEV_SAT c n)).bump (Reg.CELL_LDROP_COUNT c n)
    s.wakeLevel c n
  else s.bump (Reg.CELL_LDROP_COUNT c n)

/-- The event word of WAIT (R285), and its consumption. -/
def State.eventWord (s : State) (c n : Nat) : Word := s.reg (Reg.CELL_LEV_SAT c n).off
def State.consume (s : State) (c n : Nat) : State := s.setReg (Reg.CELL_LEV_SAT c n).off 0

/-! ## Abandonment (R288) and overrun (R49, R52-R55) -/

/-- The level has used its cycle budget (R49): its work ends there. -/
def State.spentOut (s : State) (c n : Nat) : Bool :=
  let b := s.get (Reg.CELL_LBUD_CYC c n)
  decide (b ≠ 0) && decide (b ≤ s.get (Reg.CELL_LUSED_CYC c n))

/-- Empties a bank's LINK and clears the BUSY bit of the entry it names (R269). -/
def State.dropLink (s : State) (c b : Nat) : State :=
  let k := s.bank c b
  if k.link.occ then (s.put (Reg.CELL_ENTRY1_BUSY c k.link.n.toNat) 0).setBank c b { k with link := Link.empty } else s

/-- The level's work is abandoned (R288): a level with TICK = 0 starts again at once while a count is pending (R283). -/
def State.abandon (s : State) (c n : Nat) : State :=
  if s.lvState c n = lvActive then
    let s := s.dropLink c n
    let s := if s.throughput c then s.saveTcw c n (s.curTask c n) (s.bank c n) false else s
    let s := s.modBank c n (fun k => { k with dw := 0, rw := 0, shadow := [], pend := [], dmark := [], rmark := [] })
    let s := s.modCell c (fun x => { x with fended := x.fended &&& ~~~ (1#8 <<< n) })
    let s := if s.running c = n then s.retireLoad c else s
    let s := s.setReg (cellBase c + 0x158 + n) 0
    let s := s.put (Reg.CELL_LSTAT_TPEND c n) 0
    (s.put (Reg.CELL_LSTAT_STATE c n) lvDone).wakeLevel c n
  else s

/-- The cells of a pair (R23): 2k and 2k + 1. -/
def partner (c : Nat) : Nat := if c % 2 = 0 then c + 1 else c - 1

/-- Rime excludes a cell's writes of this frame (R338) and holds its outputs: 1 at least questionable, 2 invalid. -/
def State.exclude (s : State) (c lvl : Nat) : State :=
  { s with rime := { s.rime with excl := sinsert c (max lvl (sget 0 c s.rime.excl)) s.rime.excl } }

/-- R53: how the outputs of an overrun are held. -/
def State.holdLevel (s : State) (c : Nat) : Nat :=
  if s.get (Reg.CELL_OVR_CONS c) < s.get Reg.FRM_OVR_LIMIT_LIMIT then 1 else 2

/-- The overrun counts of a cell and the exclusion of its frame (R52, R53). -/
def State.countOverrun (s : State) (c : Nat) : State :=
  let s := (s.bump (Reg.CELL_OVR_CONS c)).bump (Reg.CELL_OVR_TOTAL c)
  s.exclude c (s.holdLevel c)

/-- A level-0 overrun of one cell (R52, R54, R265). DESIGN CHOICE (R255): the fault record's LNK reads LINK as the abandonment
leaves it, empty (R269). -/
def State.overrunOne (s : State) (c info : Nat) : State :=
  if (s.cell c).late then s
  else
    let s := s.abandon c 0
    let s := s.modCell c (fun x => { x with late := true })
    let s := s.countOverrun c
    let s := s.sendInfo (srcCell s c) 0x20 clsU c
    s.raiseAsync c ⟨8, BitVec.ofNat 8 info, 0, 0, 0⟩

/-- A level-0 overrun; in Paired mode it is one of both cells (R55). -/
def State.overrun (s : State) (c info : Nat) : State :=
  let s := s.overrunOne c info
  if s.paired c then s.overrunOne (partner c) info else s

/-- Level 0 has not completed FEND in this frame (R52, R265), whatever has kept an enabled level 0 from it. -/
def State.lateWork (s : State) (c : Nat) : Bool := !(s.cell c).fend && (s.dead c || s.lvEn c 0)

/-- LEVEL0_DEADLINE: DL(N) reaches every cluster, once in a frame. -/
def State.deadline (s : State) : State :=
  if s.rimeRun && !s.frm.dlSeen then
    let s := { s with frm := { s.frm with dlSeen := true } }
    let s := (List.range 256).foldl (fun s c => if s.live c && s.lateWork c then s.overrun c 1 else s) s
    (List.range 256).foldl (fun s c =>
      if s.live c && (s.cell c).fend && !(s.cell c).late then s.put (Reg.CELL_OVR_CONS c) 0 else s) s
  else s

/-- CYCLE_BUDGET_EXCEEDED (R49): the level has used its budget before its FEND. -/
def State.budgetExceeded (s : State) (c n : Nat) : State :=
  if s.live c && s.spentOut c n && decide (s.lvState c n = lvActive) then
    if n = 0 then s.overrun c 2
    else
      let s := s.sendInfo (srcCell s c) 0x21 clsU (n * 256 + c)
      let s := s.modCell c (fun x => { x with noStart := x.noStart ||| (1#8 <<< n) })
      let s := s.abandon c n
      s.raiseAsync c ⟨8, 2, n, 0, 0⟩
  else s

/-! ## Configuration (R275) -/

/-- EN goes from 0 to 1: the TCW array is checked, and the level enters LOADING. -/
def State.levelEnable (s : State) (c n : Nat) : State :=
  if s.get (Reg.CELL_LCFG_TCWB c n) * 32 + 32 * (s.get (Reg.CELL_LCFG_NTASK c n) + 1) ≤ 16384 then
    let s := s.raise (Reg.CELL_LCFG_EN c n)
    let s := s.setReg (cellBase c + 0x158 + n) 0
    let s := s.modCell c (fun x => { x with fended := x.fended &&& ~~~ (1#8 <<< n) })
    (s.put (Reg.CELL_LSTAT_STATE c n) lvLoading).put (Reg.CELL_LSTAT_CUR c n) 0
  else s.raise (Reg.CELL_STATE_CFGERR c)

/-- EN goes from 1 to 0: the level's work is abandoned and its counts are cleared (R288). -/
def State.levelDisable (s : State) (c n : Nat) : State :=
  let s := (s.consume c n).put (Reg.CELL_LCFG_EN c n) 0
  let s := s.abandon c n
  let s := s.modCell c (fun x => { x with fended := x.fended &&& ~~~ (1#8 <<< n) })
  let s := s.put (Reg.CELL_LSTAT_TPEND c n) 0
  let s := s.modCell c (fun x => match x.staging with
    | some g => if g.level = n then { x with staging := none } else x
    | none => x)
  let s := s.put (Reg.CELL_LSTAT_STATE c n) lvOff
  if s.running c = n then s.put (Reg.CELL_STATE_BANK c) bankIdle else s

/-- A write of CELL_LCFGn (R275): while EN = 1, TICK, NTASK and TCWB keep their values. -/
def State.writeLcfg (s : State) (c n : Nat) (v : Word) : State :=
  let off := (Reg.CELL_LCFG_EN c n).off
  let old := s.reg off
  let v := if n = 0 then setFld v 34 1 1 else v
  let fixed : Word := fldMask 34 1 ||| fldMask 27 4 ||| fldMask 14 9
  let soft : Word := fldMask 31 3
  let en := bit v 35
  if bit old 35 then
    let s := if v &&& fixed = old &&& fixed then s else s.raise (Reg.CELL_STATE_CFGERR c)
    let s := s.setReg off ((old &&& ~~~ soft) ||| (v &&& soft))
    if en then s else s.levelDisable c n
  else
    let s := s.setReg off (v &&& (fixed ||| soft))
    if en then s.levelEnable c n else s

/-! ## LOADING, posts, doorbells, timers -/

/-- R276: a TCW word at store offset `w` is uncorrectable: the level's work is abandoned and fault 7 raised. -/
def State.tcwError (s : State) (c n w : Nat) : State :=
  let s := if s.lvState c n = lvActive then s.abandon c n
    else
      let s := (s.setReg (cellBase c + 0x158 + n) 0).put (Reg.CELL_LSTAT_TPEND c n) 0
      let s := s.modCell c (fun x => { x with fended := x.fended &&& ~~~ (1#8 <<< n) })
      (s.put (Reg.CELL_LSTAT_STATE c n) lvDone).wakeLevel c n
  s.raiseAsync c ⟨7, 7, n, BitVec.ofNat 32 w, ownStore c w⟩

/-- LOADING_END (R275, R278, R283): task 0's TCW is in the bank and the level is DONE; a waiting tick starts its
activation. -/
def State.loadingEnd (s : State) (c n : Nat) : State :=
  if s.lvState c n = lvLoading ∧ s.power (clusterOf c) ≤ 1 ∧ ¬ s.runState (clusterOf c) = runDefective then
    let (ws, bad, s) := s.readTcw c n 0
    match bad with
    | some w => s.tcwError c n w
    | none =>
      let s := s.modBank c n (fun k => k.restore ws false)
      let s := s.put (Reg.CELL_LSTAT_CUR c n) 0
      let s := s.modCell c (fun x => { x with fended := x.fended &&& ~~~ (1#8 <<< n) })
      s.levelDone c n
  else s

/-- POST sends a post (R280); one to a cell that does not exist is counted at the sender. -/
def State.sendPost (s : State) (from_ target n : Nat) : State :=
  if s.runState (clusterOf target) = runDefective then s.bump (Reg.CELL_POSTX_COUNT from_)
  else { s with posts := s.posts ++ [(from_, target, n)] }

/-- POST_ARRIVAL (R280): the oldest post of this sender to this level arrives. -/
def State.postArrival (s : State) (from_ target n : Nat) : State :=
  if s.posts.contains (from_, target, n) then
    ({ s with posts := s.posts.erase (from_, target, n) }).event .post target n
  else s

/-- DOORBELL (R281, R407). -/
def State.doorbellArrival (s : State) (target n : Nat) : State :=
  if s.bells.contains (target, n) then ({ s with bells := s.bells.erase (target, n) }).event .doorbell target n else s

/-- TIMER_EXPIRY (R282): the timer's event, then the reload, or the end of a one-shot. -/
def State.timerExpiry (s : State) (c n : Nat) : State :=
  if s.on (Reg.CELL_TIM_EN c n) ∧ s.power (clusterOf c) ≤ 1 ∧ s.runState (clusterOf c) ≠ runStopped then
    let s := s.event .timer c n
    let r := s.get (Reg.CELL_TREL_RELOAD c n)
    if r = 0 then (s.put (Reg.CELL_TIM_COUNT c n) 0).put (Reg.CELL_TIM_EN c n) 0
    else s.put (Reg.CELL_TIM_COUNT c n) r
  else s

end Sys2Proof.Machine
end

