-- ==== Sys2Proof/Machine/Queue.lean ====
section
/-! DEFINITION. Queue.lean: the queue manager (15 R398-R412). -/

namespace Sys2Proof.Machine

open Sys2Proof

/-! ## Descriptors (R398) -/

def descAddr (q w : Nat) : Nat := queueBase + 4 * q + w

def State.desc (s : State) (q w : Nat) : Word := s.word (descAddr q w)
def State.qPos (s : State) (q : Nat) : Nat := (s.desc q 0).toNat + fld (s.desc q 1) 22 14 * 2 ^ 36
def State.qLog2 (s : State) (q : Nat) : Nat := fld (s.desc q 1) 17 5
def State.qSize (s : State) (q : Nat) : Nat := 2 ^ s.qLog2 q
/-- entry size e in words -/
def State.qEsz (s : State) (q : Nat) : Nat := fld (s.desc q 1) 13 4 + 1
def State.qWm (s : State) (q : Nat) : Nat := fld (s.desc q 1) 5 8
def State.qPol (s : State) (q : Nat) : Nat := fld (s.desc q 1) 3 2
def State.qDbe (s : State) (q : Nat) : Bool := bit (s.desc q 1) 2
def State.qValid (s : State) (q : Nat) : Bool := bit (s.desc q 1) 1
def State.qDbc (s : State) (q : Nat) : Nat := fld (s.desc q 2) 28 8
def State.qDbl (s : State) (q : Nat) : Nat := fld (s.desc q 2) 25 3
def State.qCount (s : State) (q : Nat) : Nat := fld (s.desc q 2) 0 25
def State.qHead (s : State) (q : Nat) : Nat := s.qPos q % s.qSize q
def State.qBase (s : State) (q : Nat) : Nat := s.qPos q - s.qHead q
/-- Address of word `j` of ring entry `i`. -/
def State.ringAddr (s : State) (q i j : Nat) : Nat := s.qBase q + i % s.qSize q * s.qEsz q + j

def State.putDesc (s : State) (q w lo len v : Nat) : State :=
  s.setWord (descAddr q w) (setFld (s.desc q w) lo len v)

def State.setHead (s : State) (q h : Nat) : State :=
  let p := s.qBase q + h % s.qSize q
  (s.putDesc q 0 0 36 p).putDesc q 1 22 14 (p / 2 ^ 36)
def State.setCount (s : State) (q n : Nat) : State := s.putDesc q 2 0 25 n
def State.countDrop (s : State) (q : Nat) : State :=
  s.putDesc q 3 0 36 (satInc (s.desc q 3).toNat 36)

/-- R399: the first check of an install that fails; the cells of a DEFECTIVE cluster are no logical cells (R22). -/
def State.installCause (s : State) (q : Nat) : Option Nat :=
  if s.qLog2 q < 4 ∨ 24 < s.qLog2 q ∨ s.qPol q = 3 ∨ bit (s.desc q 1) 0 then some 1
  else if s.qSize q < s.qCount q then some 2
  else if targetArea (s.qBase q) (s.qSize q * s.qEsz q) = none then some 3
  else if s.qDbe q ∧ s.runState (clusterOf (s.qDbc q)) = runDefective then some 4
  else none

/-- An install that fails its checks (R399): V is written 0. -/
def State.refuseInstall (s : State) (q cause : Nat) : State :=
  let s := s.putDesc q 1 1 1 0
  let s := s.raise Reg.QM_STAT_DERR
  (s.put Reg.QM_DERRQ_QUEUE q).put Reg.QM_DERRQ_CAUSE cause

/-- The first descriptor word that is uncorrectable (R401). -/
def State.descBad (s : State) (q : Nat) : Option Nat :=
  (List.range 4).find? (fun w => s.eccAt (descAddr q w) = some true)

/-- The queue is unusable (R401). -/
def State.qBroken (s : State) (q : Nat) : Bool := (slookup q s.qm.broken).isSome

/-- Corrects and reports the single-bit errors that a reading of the descriptor meets (R401). -/
def State.descCorrect (s : State) (q : Nat) : State :=
  (List.range 4).foldl (fun s w =>
    if s.eccAt (descAddr q w) = some false then (s.readWord (descAddr q w) (descAddr q w)).2 else s) s

/-- Rime stops serving the sources of a queue that has become unusable (R332). -/
def State.stopSources (s : State) (q : Nat) : State :=
  let out : List Nat := (List.range 63).filter (fun n => s.on (Reg.IMG_INSRC_EN n) && decide (s.get (Reg.IMG_INSRC_QUEUE n) = q) &&
    !s.rime.failed.contains n)
  if s.on Reg.FRM_STAT_RUN ∧ ¬ out.isEmpty then
    ({ s with rime := { s.rime with unusable := out.foldl (fun l n => setInsert n l) s.rime.unusable } }).raise Reg.IMG_STAT_INERR
  else s

/-- The queue manager reads the queue's descriptor: an uncorrectable word makes the queue unusable, with the report of
R401, and Rime stops serving its sources. -/
def State.touchDesc (s : State) (q : Nat) : State :=
  let s := s.descCorrect q
  if s.qBroken q then s
  else match s.descBad q with
    | none => s
    | some w =>
      let s := s.raise Reg.QM_STAT_MEMERR
      let s := s.sendAddr srcQueue 0x70 clsU (descAddr q w)
      ({ s with qm := { s.qm with broken := sinsert q 0 s.qm.broken } }).stopSources q

/-- DESCRIPTOR_WRITE (R399-R401) under nonet enables: false when the write is refused as a whole. -/
def State.descWrite (s : State) (q w : Nat) (v : Word) (en : BitVec 4) : Bool × State :=
  let s := if s.qValid q ∨ (w = 1 ∧ bit (mergeNonets (s.desc q w) v en) 1) then s.touchDesc q else s
  let new := mergeNonets (s.desc q w) v en
  let bare (s : State) : State := s.writeWord (descAddr q w) v en false
  match slookup q s.qm.broken with
  | some mask =>
    let mask := mask ||| 2 ^ w
    let s := bare s
    if mask = 15 then
      let s := { s with qm := { s.qm with broken := serase q s.qm.broken } }
      match s.installCause q with
      | some cause => (true, s.refuseInstall q cause)
      | none => (true, s)
    else (true, { s with qm := { s.qm with broken := sinsert q mask s.qm.broken } })
  | none =>
    let old := s.desc q w
    if s.qValid q then
      let owned : Word :=
        if w = 0 then fldMask 0 36 else if w = 1 then fldMask 22 14 ||| fldMask 17 5 ||| fldMask 13 4 ||| fldMask 0 1
        else if w = 2 then fldMask 0 25 else 0
      if new &&& owned ≠ old &&& owned ∨ (w = 1 ∧ fld new 3 2 = 3) then
        (false, (s.raise Reg.QM_STAT_WERR).bump Reg.QM_WERR_COUNT)
      else (true, bare s)
    else
      let s := bare s
      if w = 1 ∧ s.qValid q then
        match s.installCause q with
        | some cause => (true, s.refuseInstall q cause)
        | none => (true, s)
      else (true, s)

/-! ## Refusal (R402) -/

/-- The ring lies wholly in one cluster memory or one cell store's logical window. -/
def State.blockRing (s : State) (q : Nat) : Bool :=
  match targetArea (s.qBase q) (s.qSize q * s.qEsz q) with
  | some a => decide (0x100000 ≤ a ∧ a < 0x3000000)
  | none => false

/-- An enabled ingress source names the queue. -/
def State.ingressQueue (s : State) (q : Nat) : Bool :=
  (List.range 63).any (fun n => s.on (Reg.IMG_INSRC_EN n) && decide (s.get (Reg.IMG_INSRC_QUEUE n) = q))

def windowAdmits (w : Word) (q : Nat) : Bool := bit w 35 && decide (fld w 0 16 ≤ q ∧ q ≤ fld w 16 16)

/-- R402 for a cell. -/
def State.cellRefused (s : State) (c q : Nat) (deq : Bool) : Bool :=
  !s.qValid q || s.paired c ||
  !windowAdmits (s.reg (cellBase c + (if deq then 0x69 else 0x68))) q || (deq && s.ingressQueue q)

/-- R402 for a command channel. -/
def State.channelRefused (s : State) (q : Nat) (deq : Bool) : Bool :=
  s.qBroken q || !s.qValid q || !s.blockRing q || (deq && s.ingressQueue q)

/-- R402 for Rime. -/
def State.rimeRefused (s : State) (q : Nat) : Bool := s.qBroken q || !s.qValid q || !s.blockRing q

/-! ## Reservation, publication, policy (R403-R407) -/

/-- A reservation of this kind is held; a drop-old enqueue also holds the head (R403). -/
def State.reserved (s : State) (q : Nat) (deq : Bool) : Bool :=
  s.qm.held.any (fun r => decide (r.queue = q) &&
    match r.plan with
    | .go => decide (r.deq = deq)
    | .dropOld => true
    | .status _ => false)

/-- A request waits: the reservation is held, or earlier requests of its kind wait for it (R403). -/
def State.mustWait (s : State) (q : Nat) (deq : Bool) : Bool :=
  s.reserved q deq || s.qm.waiting.any (fun r => decide (r.queue = q ∧ r.deq = deq))

/-- What the agent was granted on this queue. -/
def State.granted (s : State) (q : Nat) (deq : Bool) (a : QAgent) : Option QReq :=
  s.qm.held.find? (fun r => decide (r.queue = q) && decide (r.deq = deq) && decide (r.agent = a))

/-- A doorbell of a publication that takes COUNT from `before` to `after` (R407). -/
def State.ring (s : State) (q before after : Nat) : State :=
  let t := max 1 (s.qWm q * s.qSize q / 256)
  if s.qDbe q && (decide (s.qWm q = 0) || (decide (before + 1 = after) && decide (after = t))) then
    if s.runState (clusterOf (s.qDbc q)) = runDefective then s.bump Reg.QM_DBLOST_COUNT
    else { s with bells := s.bells ++ [(s.qDbc q, s.qDbl q)] }
  else s

/-- What an operation finds at its grant (R403, R404). -/
def State.qPlan (s : State) (q : Nat) (deq : Bool) : QPlan :=
  if deq then if s.qCount q = 0 then .status 1 else .go
  else if s.qCount q < s.qSize q then .go
  else match s.qPol q with
    | 0 => .status 3
    | 1 => if s.reserved q true then .status 3 else .dropOld
    | _ => .status 2

/-- Effects of an enqueue that adds nothing (R404). -/
def State.enqRefuse (s : State) (q st : Nat) : State :=
  if st = 3 then s.countDrop q else if st = 2 then s.bump Reg.QM_BPREF_COUNT else s

/-- The slot of the next publication; with drop-old on a full ring it is the head's slot. -/
def State.enqSlot (s : State) (q : Nat) : Nat := (s.qHead q + s.qCount q) % s.qSize q

/-- Publication (R403, R404, R407): COUNT + 1; for drop-old the head entry is discarded in the same change. -/
def State.publish (s : State) (q : Nat) (old : Bool) : State :=
  if old then
    let s := s.countDrop q
    let s := s.setHead q (s.qHead q + 1)
    s.ring q (s.qCount q) (s.qCount q)
  else
    let n := s.qCount q
    (s.setCount q (n + 1)).ring q n (n + 1)

/-- Release (R403): the head advances and COUNT falls by 1. -/
def State.release (s : State) (q : Nat) : State :=
  let n := s.qCount q
  (s.setHead q (s.qHead q + 1)).setCount q (n - 1)

/-- Drops a reservation. -/
def State.unreserve (s : State) (q : Nat) (deq : Bool) (a : QAgent) : State :=
  let rest := s.qm.held.filter (fun r => !(decide (r.queue = q) && decide (r.deq = deq) && decide (r.agent = a)))
  { s with qm := { s.qm with held := rest } }

def State.reserve (s : State) (r : QReq) : State := { s with qm := { s.qm with held := s.qm.held ++ [r] } }
def State.awaitGrant (s : State) (r : QReq) : State := { s with qm := { s.qm with waiting := s.qm.waiting ++ [r] } }

/-- Writes an entry to a block ring. -/
def State.ringWrite (s : State) (q slot : Nat) (entry : List Word) : State :=
  (entry.zipIdx).foldl (fun s (w, j) => s.writeRaw (s.ringAddr q slot j) w) s

/-- Reads an entry of a block ring: the words, or the address of one that is uncorrectable. -/
def State.ringRead (s : State) (q slot : Nat) : Except Nat (List Word) × State :=
  (List.range (s.qEsz q)).foldl (fun (acc : Except Nat (List Word) × State) j =>
    match acc.1 with
    | .error a => (.error a, acc.2)
    | .ok ws =>
      let pa := acc.2.ringAddr q slot j
      match acc.2.readWord (acc.2.key pa) pa with
      | (some w, s) => (.ok (ws ++ [w]), s)
      | (none, s) => (.error pa, s)) (.ok [], s)

/-- An enqueue into a block ring under the plan of its grant: its st value. -/
def State.enqueueAs (s : State) (q : Nat) (entry : List Word) (plan : QPlan) : Nat × State :=
  match plan with
  | .go => (0, (s.ringWrite q (s.enqSlot q) entry).publish q false)
  | .dropOld => (4, (s.ringWrite q (s.enqSlot q) entry).publish q true)
  | .status st => (st, s.enqRefuse q st)

/-- RESERVATION_GRANT (R403): the earliest request that waits for this reservation, once it is free. -/
def State.grantNext (s : State) (q : Nat) (deq : Bool) : Option QReq × State :=
  let waits (r : QReq) : Bool := decide (r.queue = q) && decide (r.deq = deq)
  match s.qm.waiting.find? waits with
  | none => (none, s)
  | some r =>
    if s.reserved q deq then (none, s)
    else
      let r' : QReq := { r with plan := s.qPlan q deq }
      let rest := s.qm.waiting.erase r
      (some r', { s with qm := { s.qm with waiting := rest } })

/-- A request that is granted at once when its reservation is free and nobody waits for it, and otherwise waits. -/
def State.requestQueue (s : State) (q : Nat) (deq : Bool) (a : QAgent) : State :=
  let r : QReq := ⟨q, deq, a, s.qPlan q deq⟩
  if s.mustWait q deq then s.awaitGrant r else s.reserve r

/-! ## Command channels (R408, R409) -/

def State.chEnd (s : State) (ch st : Nat) : State := (s.put (Reg.QM_CHST_BUSY ch) 0).put (Reg.QM_CHST_ST ch) st

/-- QM_CMDc with OP 00 or 11 completes at once with ST 5. -/
def State.channelIllegal (s : State) (ch : Nat) : State :=
  if s.on (Reg.QM_CHST_BUSY ch) then s else s.put (Reg.QM_CHST_ST ch) 5

/-- QM_CMDc starts an operation: it is refused, which its completion reports, or reserved, or waits for its reservation. -/
def State.channelStart (s : State) (ch q : Nat) (deq : Bool) : State :=
  if s.on (Reg.QM_CHST_BUSY ch) then s
  else
    let s := (s.touchDesc q).raise (Reg.QM_CHST_BUSY ch)
    if s.channelRefused q deq then s.reserve ⟨q, deq, .channel ch, .status 5⟩
    else s.requestQueue q deq (.channel ch)

/-- CHANNEL_COMPLETION (R409): the operation whose reservation the channel holds is made, and BUSY clears with ST. -/
def State.channelComplete (s : State) (ch : Nat) : State :=
  match s.qm.held.find? (fun r => decide (r.agent = .channel ch)) with
  | none => s
  | some r =>
    let q := r.queue
    let s := (s.touchDesc q).unreserve q r.deq (.channel ch)
    if s.qBroken q then s.chEnd ch 5
    else if r.deq then
      match r.plan with
      | .status st => s.chEnd ch st
      | _ => match s.ringRead q (s.qHead q) with
        | (.ok ws, s) =>
          let s := ws.zipIdx.foldl (fun s (w, j) => s.setReg (Reg.QM_BUF_DATA ch j).off w) s
          (s.release q).chEnd ch 0
        | (.error pa, s) => (s.sendAddr srcQueue 0x71 clsU pa).chEnd ch 6
    else
      let entry := (List.range (s.qEsz q)).map (fun j => s.reg (Reg.QM_BUF_DATA ch j).off)
      match r.plan with
      | .status st => (s.enqRefuse q st).chEnd ch st
      | _ =>
        let (st, s) := s.enqueueAs q entry r.plan
        s.chEnd ch st

end Sys2Proof.Machine
end

