-- ==== Sys2Proof/Machine/Rime.lean ====
section
/-! DEFINITION. Rime.lean: image planes, latch and commit, ingress, forcing, test groups, pair comparison and the
change journal (12 R323-R351, 02 R43-R47). -/

namespace Sys2Proof.Machine

open Sys2Proof

/-! ## Words and lanes (R64-R68) -/

/-- Validity codes: good, invalid, questionable; the reserved code 10 enters as invalid (R66). -/
def valGood : Nat := 0
def valInvalid : Nat := 1
def valQuest : Nat := 3
def normVal (v : Nat) : Nat := if v = 2 then valInvalid else v

/-- Raised to at least questionable, or to invalid. -/
def raiseVal (lvl v : Nat) : Nat := if lvl = 0 then v else if lvl ≥ 2 then valInvalid else if v = 0 then valQuest else v

/-- A lane of a bit-point word: bit 0 value, bits [2:1] validity, bit 3 test (R68). -/
def lane (w : Word) (k : Nat) : Nat := fld w (4 * k) 4
def setLane (w : Word) (k v : Nat) : Word := setFld w (4 * k) 4 v
def laneVal (l : Nat) : Nat := l / 2 % 4
def laneWithVal (l v : Nat) : Nat := l % 2 + 2 * (v % 4) + 8 * (l / 8 % 2)
def mapLanes (f : Nat → Nat) (w : Word) : Word := (List.range 9).foldl (fun a k => setLane a k (f (lane w k))) 0

/-- Validity of a point word or of every lane, changed by `f`. -/
def mapVal (bits : Bool) (f : Nat → Nat) (w : Word) : Word :=
  if bits then mapLanes (fun l => laneWithVal l (f (laneVal l))) w else setFld w 34 2 (f (fld w 34 2))

/-- R331: no plane holds the code 10. -/
def normWord (bits : Bool) (w : Word) : Word := mapVal bits normVal w

/-- The test mark (R85). -/
def markTest (bits : Bool) (w : Word) : Word :=
  if bits then mapLanes (fun l => l % 8 + 8) w else setFld w 33 1 1

/-! ## Tables (R324, R341, R343, R348) -/

def ownerOff : Nat := 0xC0000
def forceOff : Nat := 0xC8000
def inMapOff : Nat := 0xD0000
def egressOff : Nat := 0xD8000
def journalOff : Nat := 0xE8000
def typeOff : Nat := 0xF8000
def groupOff : Nat := 0xFA000

def State.img (s : State) (off : Nat) : Word := s.word (imageBase + off)
def State.setImg (s : State) (off : Nat) (w : Word) : State := s.setWord (imageBase + off) w

def nonetOf (w : Word) (i : Nat) : Nat := fld w (9 * (i % 4)) 9

/-- Nonet of word index `w` in the ingress map: EN, TYPE, SRC. -/
def State.inMap (s : State) (w : Nat) : Nat := nonetOf (s.img (inMapOff + w / 4)) w
def mapEn (n : Nat) : Bool := decide (n / 256 % 2 = 1)
def mapType (n : Nat) : Nat := n / 64 % 4
def mapSrc (n : Nat) : Nat := n % 64

/-- Type code of an input word and of an output word; 3 is a bit-point word. -/
def State.inType (s : State) (w : Nat) : Nat := mapType (s.inMap w)
def State.outType (s : State) (w : Nat) : Nat := fld (s.img (typeOff + w / 16)) (2 * (w % 16)) 2

/-- The owner recorded for an output word (R324). -/
def State.owner (s : State) (w : Nat) : Option Nat :=
  let n := nonetOf (s.img (ownerOff + w / 4)) w
  if 1 ≤ n ∧ n ≤ 256 then some (n - 1) else none

/-- Types as they stood at the start (R327); the tables cannot change while RUN = 1. -/
def State.startIn (s : State) (w : Nat) : Nat :=
  mapType (nonetOf (sget 0 (inMapOff + w / 4) s.rime.types) w)
def State.startOut (s : State) (w : Nat) : Nat := fld (sget 0 (typeOff + w / 16) s.rime.types) (2 * (w % 16)) 2

def initialWord (bits : Bool) : Word := if bits then 0x222222222 else 0x400000000

/-! ## Plane contents (R327-R330) -/

/-- A word of a plane before marks; `bits` tells whether its type is 11. -/
def Plane.get (p : Plane) (bits : Bool) (w : Nat) : Word :=
  match slookup w p.words with
  | some v => v
  | none => if p.init then initialWord bits else 0

def Plane.put (p : Plane) (w : Nat) (v : Word) : Plane := { p with words := sinsert w v p.words }

/-- Applies a force entry to a word (R84, R341). -/
def applyForce (bits : Bool) (v : Word) (e : Word × Word) : Word :=
  let ln := fld e.1 0 4
  if bits then
    let new (l : Nat) : Nat := l % 2 + 2 * normVal (laneVal l) + 8
    if ln = 15 then mapLanes new e.2 else setLane v ln (new (fld e.2 0 4))
  else
    setFld (setFld (setFld (setFld 0 0 32 (fld e.2 0 32)) 32 1 1) 33 1 (fld e.1 33 1)) 34 2 (normVal (fld e.2 34 2))

/-- An entry that takes part: V = 1, reserved bits 0, a lane that exists, and a lane entry only on a bit-point word. -/
def forceValid (bits : Bool) (w0 : Word) : Bool :=
  bit w0 35 && decide (fld w0 21 12 = 0) &&
    (decide (fld w0 0 4 = 15) || (decide (fld w0 0 4 ≤ 8) && bits))

def Marks.inGroup (m : Marks) (w : Nat) : Bool := m.ranges.any (fun r => decide (r.1 ≤ w ∧ w ≤ r.2))

/-- Forcing, then the test mark (R86). -/
def Marks.apply (m : Marks) (bits : Bool) (w : Nat) (v : Word) : Word :=
  let v := (m.forces.filter (fun e => decide (fld e.1 4 17 = w))).foldl (applyForce bits) v
  if m.inGroup w then markTest bits v else v

/-- The level at which a committed word is held (R331): its owner's, in the ownership table at the edge. -/
def Marks.holdOf (m : Marks) (w : Nat) : Nat :=
  let n := nonetOf (sget 0 (w / 4) m.owners) w
  if 1 ≤ n ∧ n ≤ 256 then sget 0 (n - 1) m.held else 0

/-- A latched or previous input word (R330, R336). -/
def State.readInput (s : State) (p : Plane) (w : Nat) : Word :=
  let bits := decide (s.startIn w = 3)
  let v := p.get bits w
  let src := mapSrc (nonetOf (sget 0 (inMapOff + w / 4) s.rime.types) w)
  let v := if p.marks.stale.contains src ∨ p.marks.missed.any (fun r => decide (r.1 ≤ w ∧ w ≤ r.2)) then
    mapVal bits (raiseVal 1) v else v
  p.marks.apply bits w v

/-- A committed or previous-committed output word (R330, R331). -/
def State.readOutput (s : State) (p : Plane) (w : Nat) : Word :=
  let bits := decide (s.startOut w = 3)
  p.marks.apply bits w (mapVal bits (raiseVal (p.marks.holdOf w)) (p.get bits w))

/-- The filling plane, the waiting plane and the pending plane, which carry no marks (R328, R329). -/
def State.readFilling (s : State) (w : Nat) : Word := s.rime.fill.get (decide (s.startIn w = 3)) w
def State.readWaiting (s : State) (w : Nat) : Word := s.rime.ebase.get (decide (s.startOut w = 3)) w
def State.readPending (s : State) (w : Nat) : Word :=
  match slookup w s.rime.stores with
  | some (v, _) => v
  | none => s.readWaiting w

/-- A word of image memory by its offset (R323, R326). -/
def State.imageRead (s : State) (off : Nat) : Word :=
  let p := off / 0x20000
  let w := off % 0x20000
  if p < 3 then
    if p = s.get Reg.IMG_PLANES_FILL then s.readFilling w
    else if p = s.get Reg.IMG_PLANES_LAT then s.readInput s.rime.lat w
    else s.readInput s.rime.prev w
  else if p < 6 then
    if p - 3 = s.get Reg.IMG_PLANES_PEND then s.readPending w
    else if p - 3 = s.get Reg.IMG_PLANES_COMM then s.readOutput s.rime.comm w
    else if s.depth = 2 then s.readWaiting w
    else s.readOutput s.rime.prevComm w
  else s.img off

/-- Image memory accepts a write to this offset (R323). -/
def State.imageWritable (s : State) (off : Nat) : Bool :=
  if off < 0xC0000 then false
  else if off < 0xCA000 then true
  else if off < 0xD0000 then false
  else if off < 0xD8000 then !s.rimeRun
  else if off < 0xE8000 then !s.rimeRun && decide (off % 4 ≠ 3)
  else if off < 0xF8000 then false
  else if off < 0xFA000 then !s.rimeRun
  else decide (off < 0xFA400)

/-! ## Edges (R325-R331, R342, R345) -/

/-- Listed words of an area of image memory, by offset. -/
def State.imgListed (s : State) (lo hi : Nat) : List (Nat × Word) :=
  s.mem.filterMap (fun e => if imageBase + lo ≤ e.1 ∧ e.1 < imageBase + hi then some (e.1 - imageBase, e.2) else none)

/-- The force entries of one direction in increasing number. -/
def State.forcesAt (s : State) (out : Bool) : List (Word × Word) :=
  (s.imgListed forceOff 0xCA000).filterMap (fun e =>
    if e.1 % 2 = 0 then
      let w := fld e.2 4 17
      let bits := decide ((if out then s.startOut w else s.startIn w) = 3)
      if bit e.2 34 = out ∧ forceValid bits e.2 then some (e.2, s.img (e.1 + 1)) else none
    else none)

/-- A test group is active (R343, R345). -/
def State.groupActive (s : State) (g : Nat) : Bool :=
  let w := s.img (groupOff + 32 * g)
  bit (s.reg Reg.IMG_TGACT_ACT.off) g ||
    (decide (fld w 3 33 = 0) && decide (1 ≤ fld w 0 3 ∧ fld w 0 3 ≤ 4) &&
      bit (s.reg Reg.IMG_TGSTAT_PLUG.off) (32 + (fld w 0 3 - 1)))

/-- Ranges of the active groups in one direction. -/
def State.rangesAt (s : State) (out : Bool) : List (Nat × Nat) :=
  ((List.range 32).filter (fun g => s.groupActive g)).flatMap (fun g =>
    (List.range 15).filterMap (fun j =>
      let a := s.img (groupOff + 32 * g + 2 * j + 1)
      let b := s.img (groupOff + 32 * g + 2 * j + 2)
      if bit a 35 ∧ bit a 34 = out ∧ fld a 17 17 = 0 ∧ fld b 17 19 = 0 ∧ fld a 0 17 ≤ fld b 0 17
      then some (fld a 0 17, fld b 0 17) else none))

/-- The ownership words at an edge, by table word. -/
def State.ownersAt (s : State) : List (Nat × Word) :=
  (s.imgListed ownerOff forceOff).map (fun e => (e.1 - ownerOff, e.2))

/-- Sources that are stale at the latch edge (R336). -/
def State.staleAt (s : State) : List Nat :=
  (List.range 63).filter (fun n =>
    decide (s.get (Reg.IMG_INSRC_STALE n) ≠ 0 ∧ s.get (Reg.IMG_INSRC_STALE n) ≤ sget 0 n s.rime.age))

/-- Start of the planes at the tick at which RUN goes from 0 to 1 (R327, R332, R336, R344): initial values, debounced
states 0, and the check of every enabled source (15 R402). -/
def State.rimeStart (s : State) : State :=
  let p : Plane := ⟨true, [], Marks.none⟩
  let types := s.imgListed inMapOff egressOff ++ s.imgListed typeOff groupOff
  let s := { s with rime := { Rime.reset with types := types, fill := p, lat := p, prev := p, ebase := p,
                                              comm := p, prevComm := p } }
  let s := (s.put Reg.IMG_HAND_STATE 0).put Reg.IMG_TGSTAT_PLUG 0
  let enabled := (List.range 63).filter (fun n => s.on (Reg.IMG_INSRC_EN n))
  let s := enabled.foldl (fun s n => s.touchDesc (s.get (Reg.IMG_INSRC_QUEUE n))) s
  let broken (n : Nat) : Bool := s.qBroken (s.get (Reg.IMG_INSRC_QUEUE n))
  let bad : List Nat := enabled.filter (fun n => !broken n &&
    (s.rimeRefused (s.get (Reg.IMG_INSRC_QUEUE n)) || !(s.qEsz (s.get (Reg.IMG_INSRC_QUEUE n)) == 4)))
  let out := enabled.filter broken
  let s := { s with rime := { s.rime with failed := bad, unusable := out, frames := s.get Reg.IMG_DEBOUNCE_FRAMES } }
  -- LAST of every record is 0 at each start (R348)
  let s := { s with mem := s.mem.filter (fun e =>
    !(decide (imageBase + egressOff ≤ e.1 ∧ e.1 < imageBase + journalOff) && decide (e.1 % 4 = 3))) }
  if bad.isEmpty ∧ out.isEmpty then s else s.raise Reg.IMG_STAT_INERR

/-- LATCH_EDGE (R43, R325, R328). -/
def State.latchEdge (s : State) (missed : Option (Nat × Nat)) : State :=
  let r := s.rime
  let age := (List.range 63).filterMap (fun n =>
    if s.on (Reg.IMG_INSRC_EN n) ∨ s.get (Reg.IMG_INSRC_STALE n) ≠ 0 then
      some (n, if r.wrote.contains n then 0 else min 256 (sget 0 n r.age + 1))
    else none)
  let s := { s with rime := { r with age := age, wrote := [] } }
  let act := (List.range 32).foldl (fun a g => if s.groupActive g then a + 2 ^ g else a) 0
  let s := s.put Reg.IMG_TGSTAT_ACTIVE act
  let marks : Marks := ⟨s.forcesAt false, s.rangesAt false, s.staleAt, [], [], missed⟩
  let lat : Plane := { s.rime.fill with marks := marks }
  let s := { s with rime := { s.rime with prev := s.rime.lat, lat := lat } }
  let (f, l, p) := (s.get Reg.IMG_PLANES_FILL, s.get Reg.IMG_PLANES_LAT, s.get Reg.IMG_PLANES_PREV)
  ((s.put Reg.IMG_PLANES_LAT f).put Reg.IMG_PLANES_PREV l).put Reg.IMG_PLANES_FILL p

/-- E(N) of R329: the stores of cells whose writes are included over the content before. -/
def Rime.effective (r : Rime) : Plane :=
  r.stores.foldl (fun p (w, v, c) => if (slookup c r.excl).isSome then p else p.put w v) r.ebase

/-- The cells whose owned words a commit edge holds for their cluster's power state (22 R547): questionable in Retain,
invalid in Off. -/
def State.powerHeld (s : State) (l : List (Nat × Nat)) : List (Nat × Nat) :=
  (List.range 256).foldl (fun l c =>
    if s.power (clusterOf c) ≥ 2 then sinsert c (max (s.power (clusterOf c) - 1) (sget 0 c l)) l else l) l

/-- COMMIT_EDGE (R43, R325, R329, R331): with D = 1 the plane of the frame that ends, with D = 2 the plane before it. -/
def State.commitEdge (s : State) : State :=
  let r := s.rime
  let e := r.effective
  let two := s.depth = 2
  let marks : Marks := ⟨s.forcesAt true, s.rangesAt true, [], s.powerHeld (if two then r.exclPrev else r.excl),
    s.ownersAt, none⟩
  let comm : Plane := { (if two then r.ebase else e) with marks := marks }
  let s := { s with rime := { r with comm := comm, prevComm := r.comm, ebase := e, stores := [],
                                     excl := [], exclPrev := r.excl, pairs := [], mismatched := [] } }
  let (a, b, c) := (s.get Reg.IMG_PLANES_PEND, s.get Reg.IMG_PLANES_COMM, s.get Reg.IMG_PLANES_THIRD)
  if two then ((s.put Reg.IMG_PLANES_THIRD a).put Reg.IMG_PLANES_COMM c).put Reg.IMG_PLANES_PEND b
  else ((s.put Reg.IMG_PLANES_COMM a).put Reg.IMG_PLANES_THIRD b).put Reg.IMG_PLANES_PEND c

/-- Output words that a plane's content or marks may change. -/
def Plane.touched (p : Plane) : List Nat :=
  p.words.map (·.1) ++ p.marks.forces.map (fun e => fld e.1 4 17) ++
  p.marks.ranges.flatMap (fun r => List.range' r.1 (r.2 + 1 - r.1)) ++
  (if p.marks.held.isEmpty then []
   else p.marks.owners.flatMap (fun e => (List.range 4).map (fun i => 4 * e.1 + i)))

/-- The committed words that differ from the previous commit, in increasing order. -/
def State.changedWords (s : State) : List Nat :=
  let cand := (s.rime.comm.touched ++ s.rime.prevComm.touched).foldl (fun l w => setInsert w l) []
  cand.filter (fun w => decide (s.readOutput s.rime.comm w ≠ s.readOutput s.rime.prevComm w))

/-- JOURNAL_PASS (R351) of the frame whose outputs are committed. -/
def State.journalPass (s : State) (frame : Nat) : State :=
  if s.on Reg.IMG_CTRL_JEN then
    s.changedWords.foldl (fun s w =>
      let n := s.get Reg.IMG_JHEAD_NEXT
      let s := s.setImg (journalOff + 2 * n) (BitVec.ofNat 36 frame)
      let s := s.setImg (journalOff + 2 * n + 1) (BitVec.ofNat 36 w)
      let s := s.put Reg.IMG_JHEAD_NEXT ((n + 1) % 32768)
      if n = 32767 then s.bump Reg.IMG_JHEAD_WRAPS else s) s
  else s

/-- phi of R349, in ns, from the phase in effect since the last tick (R352). -/
def State.phi (s : State) : Nat :=
  let p := match s.frm.line with
    | some t => t.period / 65536
    | none => 0
  max 1000 (min s.rime.phase (p / 2))

/-! ## The standby role (13 R369, R376) -/

def sbOff : Nat := 0
def sbActive : Nat := 1
def sbSyncing : Nat := 2
def sbTracking : Nat := 3
def sbPaused : Nat := 4
def sbLost : Nat := 5

def State.stbyState (s : State) : Nat := s.get Reg.STBY_STAT_STATE

/-- The block takes stream data (R376). -/
def State.following (s : State) : Bool := decide (sbSyncing ≤ s.stbyState) && decide (s.stbyState ≤ sbPaused)

/-- An input word that takes only stream data (R376). -/
def State.inRange (s : State) (w : Nat) : Bool :=
  s.on Reg.STBY_INRANGE_EN && decide (s.get Reg.STBY_INRANGE_FIRST ≤ w) && decide (w ≤ s.get Reg.STBY_INRANGE_LAST)

/-! ## Ingress (R46, R47, R332-R336, R347) -/

/-- Where an arrival stamped `t` goes (R46, R47). -/
inductive Arrives where
  | now
  | late
  | hold
  | early
deriving DecidableEq, Repr

def State.sortArrival (s : State) (t : Nat) : Arrives :=
  match s.frm.line, s.frm.next with
  | some tl, some f =>
    let g := ns tl.guard
    if t + g ≥ tl.instant (f + 1) then .early
    else if t + g ≥ tl.instant f then .hold
    else if t + g ≥ tl.instant (f - 1) then .now
    else .late
  | _, _ => .now

/-- An accepted write into the filling plane (R328, R331): a whole word, or one lane. -/
def State.fillWrite (s : State) (w : Nat) (ln : Option Nat) (v : Word) : State :=
  let bits := decide (s.inType w = 3)
  let new := match ln with
    | none => normWord bits v
    | some k => setLane (s.readFilling w) k (laneWithVal (fld v 0 4) (normVal (laneVal (fld v 0 4))))
  { s with rime := { s.rime with fill := s.rime.fill.put w new } }

/-- The checks of R334 on an ingress entry of source `src`. -/
def State.entryOk (s : State) (src : Nat) (w0 : Word) : Bool :=
  let kind := fld w0 32 4
  let m := s.inMap (fld w0 4 17)
  decide (kind ≤ 2) && decide (fld w0 21 11 = 0) &&
    (if kind = 2 then decide (fld w0 0 4 ≤ 8) else decide (fld w0 0 4 = 0)) &&
    mapEn m && decide (mapSrc m = src) && (decide (kind = 0) != decide (mapType m = 3))

/-- Stamp of an entry, in 2^-16 ns (R333). -/
def entryStamp (w1 w2 : Word) : Nat := (w1.toNat + fld w2 0 28 * 2 ^ 36) * 65536 + fld w2 28 8 * 256

/-- INGRESS_ENTRY (R332-R335, R41): Rime examines the head entry of a source's queue; an entry of the frame after the
next latch stays at the head, and so does one for a word that takes only stream data (13 R376, R379). -/
def State.ingressEntry (s : State) (src : Nat) : State :=
  let q := s.get (Reg.IMG_INSRC_QUEUE src)
  if ¬ (src < 63 ∧ s.rimeRun ∧ s.on (Reg.IMG_INSRC_EN src)) ∨ s.rime.failed.contains src ∨ s.rime.unusable.contains src
  then s
  else
    let s := s.touchDesc q
    if s.rimeRefused q ∨ s.qCount q = 0 ∨ s.mustWait q true then s
    else match s.ringRead q (s.qHead q) with
      | (.error pa, s) => ((s.release q).bump Reg.IMG_INDISC_COUNT).sendAddr srcQueue 0x71 clsU pa
      | (.ok ws, s) =>
        let w0 := ws.getD 0 0
        if s.entryOk src w0 then
          let w := fld w0 4 17
          let ln := if fld w0 32 4 = 2 then some (fld w0 0 4) else none
          let write (s : State) : State :=
            let s := (s.release q).fillWrite w ln (ws.getD 3 0)
            { s with rime := { s.rime with wrote := setInsert src s.rime.wrote } }
          match s.sortArrival (entryStamp (ws.getD 1 0) (ws.getD 2 0)) with
          | .now => if s.following ∧ s.inRange w then s else write s
          | .late => if s.following ∧ s.inRange w then s else (write s).bump Reg.FRM_LATE_COUNT
          | .hold => s
          | .early => ((s.release q).bump Reg.FRM_EARLY_COUNT).sendInfo srcRime 0x33 clsC w
        else (s.release q).bump Reg.IMG_INDISC_COUNT

/-- R334 for a hand input: the word of IMG_HANDMAPh is EN with TYPE 11 and SRC 63, and the lane exists. -/
def State.handOk (s : State) (h : Nat) : Bool :=
  let m := s.inMap (s.get (Reg.IMG_HANDMAP_INDEX h))
  mapEn m && decide (mapType m = 3) && decide (mapSrc m = 63) && decide (s.get (Reg.IMG_HANDMAP_LANE h) ≤ 8)

/-- HAND_INPUT_WRITE (R347): the lane of IMG_HANDMAPh as a source-63 write. -/
def State.handWrite (s : State) (h : Nat) (v : Bool) : State :=
  let w := s.get (Reg.IMG_HANDMAP_INDEX h)
  let ln := s.get (Reg.IMG_HANDMAP_LANE h)
  if s.handOk h then
    if s.following ∧ s.inRange w then s else s.fillWrite w (some ln) (BitVec.ofNat 36 (b2n v))
  else s.bump Reg.IMG_INDISC_COUNT

/-- The debounced state of an input (R344): 0-31 HAND, 32-35 TPLUG. -/
def inputFld (i : Nat) : Fld := ⟨if i < 32 then Reg.IMG_HAND_STATE.off else Reg.IMG_TGSTAT_PLUG.off, i, 1⟩

/-- A debounced state changes (R344). -/
def State.inputFlip (s : State) (i : Nat) : State :=
  let s := s.putB (inputFld i) (!s.on (inputFld i))
  { s with rime := { s.rime with differs := setErase i s.rime.differs, counts := serase i s.rime.counts } }

/-- A debounced state changes at a sample (R344, R347): a hand input whose map is enabled then writes its lane, which passes the
checks of R334 first, in the frame that R46 gives the stamp. -/
def State.inputChange (s : State) (i stamp : Nat) : State :=
  let v := !s.on (inputFld i)
  let s := s.inputFlip i
  if i < 32 ∧ s.on (Reg.IMG_HANDMAP_EN i) then
    if !s.handOk i then s.handWrite i v
    else match s.sortArrival stamp with
    | .now => s.handWrite i v
    | .late => (s.handWrite i v).bump Reg.FRM_LATE_COUNT
    | .hold => { s with rime := { s.rime with hand := s.rime.hand ++ [(i, v)] } }
    | .early => (s.bump Reg.FRM_EARLY_COUNT).sendInfo srcRime 0x33 clsC (s.get (Reg.IMG_HANDMAP_INDEX i))
  else s

/-- DEBOUNCE_CHANGE (R344): a sample of an input. One that equals the debounced state starts the count again; one that differs
changes the state at once with IMG_DEBOUNCE = 0, and otherwise counts from the next tick on. -/
def State.debounceChange (s : State) (i : Nat) (sample : Bool) (stamp : Nat) : State :=
  if s.rimeRun ∧ i < 36 then
    if sample = s.on (inputFld i) then
      { s with rime := { s.rime with differs := setErase i s.rime.differs, counts := serase i s.rime.counts } }
    else if s.rime.frames = 0 then s.inputChange i stamp
    else { s with rime := { s.rime with differs := setInsert i s.rime.differs } }
  else s

/-- The debounce counts at a tick (R344, R352): the change of a state that reaches IMG_DEBOUNCE falls on the tick, and the write
of its hand input enters the frame after the tick's (R347), once the plane of this one is latched. -/
def State.debounceTick (s : State) : State :=
  let d := s.get Reg.IMG_DEBOUNCE_FRAMES
  s.rime.differs.foldl (fun s i =>
    let c := sget 0 i s.rime.counts + 1
    if c ≥ d then
      let s := s.inputFlip i
      if i < 32 ∧ s.on (Reg.IMG_HANDMAP_EN i) then { s with rime := { s.rime with hand := s.rime.hand ++ [(i, s.on (inputFld i))] } } else s
    else { s with rime := { s.rime with counts := sinsert i c s.rime.counts } })
    { s with rime := { s.rime with frames := d } }

/-- After the latch: hand inputs that waited for it are written, and sources whose queue is usable again are served
(R332, R347). -/
def State.afterLatch (s : State) : State :=
  let s := s.rime.hand.foldl (fun s e => s.handWrite e.1 e.2) { s with rime := { s.rime with hand := [] } }
  let still := s.rime.unusable.filter (fun n => s.rimeRefused (s.get (Reg.IMG_INSRC_QUEUE n)))
  { s with rime := { s.rime with unusable := still } }

/-! ## Output stores and pair comparison (R337-R340) -/

/-- The cell whose ownership admits a store by cell `c` (R337). -/
def State.ownerRole (s : State) (c : Nat) : Nat := if s.paired c then c - c % 2 else c

/-- IMG_PMLAST, IMG_STAT.PMM and IMG_PMCOUNT at the frame's first mismatch (R339). -/
def State.recordMismatch (s : State) (k cause index ln : Nat) : State :=
  let w : Word := setFld (setFld (setFld (setFld (setFld 0 35 1 1) 32 3 cause) 25 7 k) 4 17 index) 0 4 ln
  ((s.setReg Reg.IMG_PMLAST_VALID.off w).raise Reg.IMG_STAT_PMM).bump Reg.IMG_PMCOUNT_COUNT

/-- Hands a mismatching pair to the repair controller's localisation (R484). -/
def State.startLocalise (s : State) (k : Nat) : State :=
  if s.on Reg.RPR_CTRL_PMLOC && s.on Reg.RPR_CTRL_AUTO then
    { s with rpr := { s.rpr with loc := s.rpr.loc ++ [{ pair := k, begun := false, results := [] }] } }
  else s

/-- Fault 11 of a cell (R24). -/
def State.pairFault (s : State) (c : Nat) : State := s.raiseAsync c ⟨11, 0, 0, 0, 0⟩

/-- A pair mismatch (R24, R339): the message, fault 11 in both cells, the exclusion, the record of the frame's first
mismatch, and its localisation. -/
def State.pairMismatch (s : State) (c cause index ln : Nat) : State :=
  let k := c / 2
  if s.rime.mismatched.contains k then s
  else
    let s := if s.rime.mismatched.isEmpty then s.recordMismatch k cause index ln else s
    let s := { s with rime := { s.rime with mismatched := setInsert k s.rime.mismatched } }
    let s := s.sendInfo srcRime 0x25 clsU (cause * 256 + k)
    let s := (s.pairFault (2 * k)).pairFault (2 * k + 1)
    ((s.exclude (2 * k) 1).exclude (2 * k + 1) 1).startLocalise k

/-- Stores of a cell that its partner has not matched yet. -/
def State.unmatched (s : State) (c : Nat) : List PairStore := sget [] c s.rime.pairs
def State.setUnmatched (s : State) (c : Nat) (l : List PairStore) : State :=
  { s with rime := { s.rime with pairs := sput [] c l s.rime.pairs } }

/-- Compares an accepted store with the partner's store of the same number, or keeps it for that (R339). -/
def State.compareStore (s : State) (c : Nat) (p : PairStore) : State :=
  if (slookup c s.rime.excl).isSome then s
  else match s.unmatched (partner c) with
    | o :: rest =>
      let s := s.setUnmatched (partner c) rest
      let even := if c % 2 = 0 then p else o
      if p.index ≠ o.index ∨ p.lane ≠ o.lane then s.pairMismatch c 2 even.index even.lane
      else if p.data ≠ o.data then s.pairMismatch c 1 even.index even.lane
      else s
    | [] =>
      let l := s.unmatched c ++ [p]
      let s := s.setUnmatched c l
      if l.length ≥ 64 then s.pairMismatch c 4 0 0 else s

/-- An image store (R171, R331, R337-R339): false when ownership refuses it. `ln` is a lane for BST. -/
def State.imageStore (s : State) (c w : Nat) (ln : Option Nat) (v : Word) : Bool × State :=
  if s.owner w = some (s.ownerRole c) then
    let bits := decide (s.outType w = 3)
    let new := match ln with
      | none => normWord bits v
      | some k => normWord bits (setLane (s.readPending w) k (fld v 0 4))
    let data := match ln with
      | none => new
      | some k => BitVec.ofNat 36 (lane new k)
    let s := if s.paired c ∧ c % 2 = 1 then s
      else { s with rime := { s.rime with stores := sinsert w (new, c) s.rime.stores } }
    (true, if s.paired c then s.compareStore c ⟨w, ln.getD 15, data⟩ else s)
  else (false, s.bump Reg.IMG_OWNERR_COUNT)

/-- Both cells of a pair have executed FEND with different numbers of stores (R339, cause 3). -/
def State.pairEnd (s : State) (c : Nat) : State :=
  if s.paired c ∧ (s.cell c).fend ∧ (s.cell (partner c)).fend ∧ (slookup c s.rime.excl).isNone ∧
      (s.unmatched c ≠ [] ∨ s.unmatched (partner c) ≠ []) then s.pairMismatch c 3 0 0
  else s

end Sys2Proof.Machine
end

