-- ==== Sys2Proof/Machine/Ports.lean ====
section
/-! DEFINITION. Ports.lean: the backplane ports (16 R413-R438). -/

namespace Sys2Proof.Machine

open Sys2Proof

/-! ## Message buffers (R416, R417) -/

def State.port (s : State) (n : Nat) : Port := sget Port.reset n s.ports
def State.setPort (s : State) (n : Nat) (p : Port) : State := { s with ports := sput Port.reset n p s.ports }
def State.modPort (s : State) (n : Nat) (f : Port → Port) : State := s.setPort n (f (s.port n))

/-- A field of buffer `b` of port `n`. -/
def bufFld (n b w lo len : Nat) : Fld := ⟨bpRam n + 32 * b + w, lo, len⟩
def State.bufOn (s : State) (n b w lo : Nat) : Bool := s.on (bufFld n b w lo 1)

def State.isTx (s : State) (n b : Nat) : Bool := s.bufOn n b 0 35 && s.bufOn n b 0 34
def State.isRx (s : State) (n b : Nat) : Bool := s.bufOn n b 0 35 && !s.bufOn n b 0 34
def reqFld (n b : Nat) : Fld := bufFld n b 3 35 1
def txstFld (n b : Nat) : Fld := bufFld n b 3 25 3
def State.wlen (s : State) (n b : Nat) : Nat := s.get (bufFld n b 2 0 16)
def State.woff (s : State) (n b : Nat) : Nat := s.get (bufFld n b 2 16 20)

/-- Data length of a DLC (R417). -/
def dataLen (fdf : Bool) (dlc : Nat) : Nat :=
  if dlc ≤ 8 then dlc
  else if !fdf then 8
  else [12, 16, 20, 24, 32, 48, 64].getD (dlc - 9) 64

/-- Byte `k` of a buffer's data, and its place. -/
def byteFld (n b k : Nat) : Fld := bufFld n b (7 + k / 4) (9 * (k % 4)) 9
def State.bufByte (s : State) (n b k : Nat) : Nat := s.get (byteFld n b k) % 256

/-- Sets bits of BP_IRQ (R437). -/
def State.portIrq (s : State) (n bit : Nat) : State :=
  s.put (Reg.BP_IRQ_EV n) (s.get (Reg.BP_IRQ_EV n) ||| 2 ^ bit)

/-! ## Enable and bit timing (R414, R435, R438) -/

/-- The checks of R414, with FDOE as it is written. -/
def State.timingOk (s : State) (n : Nat) (fdoe : Bool) : Bool :=
  let t1 := s.get (Reg.BP_NBT_NTSEG1 n) + 1
  let t2 := s.get (Reg.BP_NBT_NTSEG2 n) + 1
  let nom := (s.get (Reg.BP_NBT_NBRP n) + 1) * (1 + t1 + t2)
  let d1 := s.get (Reg.BP_DBT_DTSEG1 n) + 1
  let d2 := s.get (Reg.BP_DBT_DTSEG2 n) + 1
  let dat := (s.get (Reg.BP_DBT_DBRP n) + 1) * (1 + d1 + d2)
  decide (80 ≤ nom ∧ nom ≤ 640) && decide (2 ≤ t2) && decide (s.get (Reg.BP_NBT_NSJW n) + 1 ≤ min t1 t2) &&
  (!fdoe || (decide (10 ≤ dat ∧ dat ≤ nom) && decide (s.get (Reg.BP_DBT_DSJW n) + 1 ≤ min d1 d2)))

/-- Ends every request of a port with a TXST code. -/
def State.endRequests (s : State) (n code : Nat) : State :=
  (List.range 64).foldl (fun s b =>
    if s.bufOn n b 0 34 ∧ s.on (reqFld n b) then (s.put (reqFld n b) 0).put (txstFld n b) code else s) s

/-- The port leaves the bus. -/
def State.portOff (s : State) (n : Nat) : State :=
  let s := s.modPort n (fun p => { p with tx := none, recovering := false, leaving := false })
  (s.put (Reg.BP_STAT_SYNC n) 0).put (Reg.BP_ERR_STATE n) 3

/-- The next bus-idle point of a port whose EN was cleared (R438): the port stops. -/
def State.busIdle (s : State) (n : Nat) : State := if (s.port n).leaving then s.portOff n else s

/-- The port takes part in the traffic of its bus: enabled, or still leaving (R438). -/
def State.onBus (s : State) (n : Nat) : Bool :=
  (s.on (Reg.BP_CTRL_EN n) || (s.port n).leaving) && s.on (Reg.BP_STAT_SYNC n) && decide (s.get (Reg.BP_ERR_STATE n) ≤ 1)

/-- EN goes from 1 to 0 (R438): every request ends with TXST 0, and the port stops at the next bus-idle point. A port off the bus
stops at once. With no frame of its own in progress, the bus is idle at that moment as a free value says: else the port takes
part until the frame in progress ends. -/
def State.portStop (s : State) (n : Nat) : State :=
  let on := s.onBus n
  let s := (s.endRequests n 0).put (Reg.BP_CTRL_EN n) 0
  let leave := s.modPort n (fun p => { p with leaving := true, statusDue := false })
  if ¬ on then s.portOff n
  else if (s.port n).tx.isSome then leave
  else if Config.busIdle s.fresh then s.tickFresh.portOff n
  else leave.tickFresh

/-- EN goes from 0 to 1: the checks, then integration on the bus with both error counters 0. -/
def State.portStart (s : State) (n : Nat) : State :=
  if s.timingOk n (s.on (Reg.BP_CTRL_FDOE n)) then
    let s := (s.put (Reg.BP_STAT_CFGERR n) 0).raise (Reg.BP_CTRL_EN n)
    ((s.put (Reg.BP_ERR_TEC n) 0).put (Reg.BP_ERR_REC n) 0).portOff n
  else s.raise (Reg.BP_STAT_CFGERR n)

/-- Bus-off recovery starts (R435). -/
def State.portRecover (s : State) (n : Nat) : State :=
  if s.get (Reg.BP_ERR_STATE n) = 2 then s.modPort n (fun p => { p with recovering := true }) else s

/-- A write of BP_CTRL (R413-R415, R435, R438). While Thaw runs the ports are disabled (R507, R512): DEDUCED, EN stays 0. -/
def State.writePortCtrl (s : State) (n : Nat) (v : Word) : State :=
  let was := s.on (Reg.BP_CTRL_EN n)
  let s := s.put ⟨bpBase n, 1, 3⟩ (fld v 1 3)
  let s := s.put (Reg.BP_CTRL_ABO n) (fld v 5 1)
  let s := if bit v 4 then s.portRecover n else s
  if bit v 0 = was then s else if bit v 0 then (if s.thawOver then s.portStart n else s) else s.portStop n

/-- BUS_INTEGRATION (R414). -/
def State.busIntegration (s : State) (n : Nat) : State :=
  if s.on (Reg.BP_CTRL_EN n) ∧ s.get (Reg.BP_ERR_STATE n) = 3 then
    (s.raise (Reg.BP_STAT_SYNC n)).put (Reg.BP_ERR_STATE n) 0
  else s

/-- The port sends its Hold status frame. -/
def State.sendsStatus (s : State) (n : Nat) : Bool := decide ((s.port n).tx.map (fun t => t.buf) = some 64)

/-- Receive-only (R436): by MON, while FRM_STAT.RUN is 0, and in Hold; for its Hold status frame alone the port is a full
transmitter, DESIGN CHOICE also with MON = 1 (log entry 91). -/
def State.rxOnly (s : State) (n : Nat) : Bool :=
  (s.on (Reg.BP_CTRL_MON n) || !s.rimeRun || s.on Reg.THAW_STATUS_HOLD) && !s.sendsStatus n

/-! ## Frame-locked windows (R429, R433) -/

/-- The latest tick whose anchor is at or before instant `t`, with its anchor; the ticks begin with the first one placed. -/
def State.anchorBefore (s : State) (t : Nat) : Option (Nat × Nat) :=
  match s.frm.line with
  | none => none
  | some tl =>
    let phi := ns s.phi
    if t < phi then none
    else
      let m := tl.firstAt (t - phi)
      let m' := if tl.instant m ≤ t - phi then m else m - 1
      if tl.instant m' ≤ t - phi ∧ s.frm.first ≤ m' then some (m', tl.instant m' + phi) else none

/-- A buffer's window is open at instant `t` (R429, R430); a buffer with WLEN 0 has none and is always open. -/
def State.windowOpen (s : State) (n b t : Nat) : Bool :=
  if s.wlen n b = 0 then true
  else if !s.rimeRun then false
  else match s.anchorBefore t, s.frm.line with
    | some (m, a), some tl =>
      let lo := a + ns (1000 * s.woff n b)
      decide (lo ≤ t) && decide (t < lo + ns (1000 * s.wlen n b)) && decide (t < tl.instant (m + 1) + ns s.phi)
    | _, _ => false

/-- A received frame is late (R433). -/
def State.frameLate (s : State) (n b t : Nat) : Bool :=
  if s.wlen n b = 0 ∨ ¬ s.rimeRun then false
  else match s.anchorBefore t with
    | some (_, a) =>
      decide (t - a < ns (1000 * s.woff n b)) || decide (t - a ≥ ns (1000 * (s.woff n b + s.wlen n b)))
    | none => false

/-! ## Reception (R418-R424) -/

def filterFld (n f w lo len : Nat) : Fld := ⟨bpBase n + 0x100 + 2 * f + w, lo, len⟩

/-- The identifier of a frame as buffer word 1 and the filters lay it out: a base identifier in [28:18] (R416, R418). -/
def wordId (x : CanFrame) : Nat := if x.ide then x.id.toNat else x.id.toNat % 2 ^ 11 * 2 ^ 18

/-- R419: filter `f` matches the frame. -/
def State.filterMatch (s : State) (n f : Nat) (x : CanFrame) : Bool :=
  let fdm := s.get (filterFld n f 0 32 2)
  let mask := s.get (filterFld n f 1 0 29)
  let id := s.get (filterFld n f 0 0 29)
  let sel (v : Nat) : Nat := (v &&& mask) / (if x.ide then 1 else 2 ^ 18)
  s.on (filterFld n f 0 35 1) && (s.on (filterFld n f 0 34 1) == x.ide) &&
    (decide (fdm = 0) || (decide (fdm = 1) && !x.fdf) || (decide (fdm = 2) && x.fdf)) &&
    decide (sel id = sel (wordId x))

/-- A write of a filter word at offset `o` keeps what the word held, for a frame whose FDF bit came before it (R419). -/
def State.noteFilter (s : State) (n o : Nat) : State :=
  if 0x100 ≤ o ∧ s.onBus n then s.modPort n (fun p => { p with undo := (o, s.reg (bpBase n + o)) :: p.undo }) else s

/-- The filter table as it stood before the newest `after` writes of its words (R419). -/
def State.filtersBefore (s : State) (n after : Nat) : State :=
  ((s.port n).undo.take after).foldl (fun s u => s.setReg (bpBase n + u.1) u.2) s

/-- The matching filter and its target buffer (R419, R421). -/
def State.filterFor (s : State) (n : Nat) (x : CanFrame) : Option (Nat × Nat) :=
  ((List.range 128).find? (fun f => s.filterMatch n f x)).map (fun f =>
    (f, if s.on (filterFld n f 0 31 1) then 63 else s.get (filterFld n f 1 30 6)))

/-- Data word `j` of a frame, in nonets, and as the value of a point word (R417, R424). -/
def canByte (x : CanFrame) (k : Nat) : Nat := if k < dataLen x.fdf x.dlc.toNat then (x.data.getD k 0).toNat else 0
def canDataWord (x : CanFrame) (j : Nat) : Word :=
  (List.range 4).foldl (fun w i => setFld w (9 * i) 9 (canByte x (4 * j + i))) 0
def canWords (x : CanFrame) : Nat := if x.rtr then 0 else (dataLen x.fdf x.dlc.toNat + 3) / 4
def canPoint (x : CanFrame) (j : Nat) : Nat :=
  ((canByte x (4 * j) * 256 + canByte x (4 * j + 1)) * 256 + canByte x (4 * j + 2)) * 256 + canByte x (4 * j + 3)
/-- The stamp in the layout of words 1 and 2 of R333. -/
def canStampLo (x : CanFrame) : Word := BitVec.ofNat 36 (x.stamp.toNat / 256)
def canStampHi (x : CanFrame) : Word :=
  setFld (setFld 0 28 8 x.stamp.toNat) 0 28 (x.stamp.toNat / 256 / 2 ^ 36)

/-- Counts a frame lost in a buffer (R422). -/
def State.countOvr (s : State) (n b : Nat) : State :=
  ((s.raise (bufFld n b 3 33 1)).bump (Reg.BP_OVR_COUNT n)).portIrq n 5

/-- Transfer of a shadow into its buffer (R420, R422). -/
def State.transfer (s : State) (n b : Nat) : State :=
  match slookup b (s.port n).shadows with
  | none => s
  | some sh =>
    let x := sh.frame
    let s := s.modPort n (fun p => { p with shadows := serase b p.shadows })
    let s := if s.on (bufFld n b 3 35 1) then s.countOvr n b else s
    let w1 := setFld (setFld (setFld (setFld (setFld 0 35 1 (b2n x.ide)) 34 1 (b2n x.fdf)) 33 1 (b2n x.brs)) 32 1
      (b2n x.rtr)) 0 29 (wordId x)
    let s := s.setReg (bpRam n + 32 * b + 1) w1
    let s := (s.raise (bufFld n b 3 35 1)).putB (bufFld n b 3 34 1) sh.late
    let s := (s.putB (bufFld n b 3 32 1) x.esi).put (bufFld n b 3 28 4) x.dlc.toNat
    let s := s.put (bufFld n b 3 18 7) sh.filt
    let s := (s.setReg (bpRam n + 32 * b + 5) (canStampLo x)).setReg (bpRam n + 32 * b + 6) (canStampHi x)
    let s := (List.range (canWords x)).foldl (fun s j => s.setReg (bpRam n + 32 * b + 7 + j) (canDataWord x j)) s
    let whole := [1, 5, 6] ++ (List.range (canWords x)).map (· + 7)
    (whole.foldl (fun s w => s.clearEcc (bpRam n + 32 * b + w)) s).portIrq n 0

/-- The transfer waits while the buffer is locked. -/
def State.tryTransfer (s : State) (n b : Nat) : State := if (s.port n).lock = some b then s else s.transfer n b

/-- One forwarded entry (R424): enqueued at once, waiting for the reservation, or lost. -/
def State.forwardEntry (s : State) (n q : Nat) (entry : List Word) : State :=
  let s := s.touchDesc q
  if s.rimeRefused q then s.bump (Reg.BP_QLOST_COUNT n)
  else if s.mustWait q false then s.awaitGrant ⟨q, false, .port n entry, .go⟩
  else
    let (st, s) := s.enqueueAs q entry (s.qPlan q false)
    if st = 0 ∨ st = 4 then s else s.bump (Reg.BP_QLOST_COUNT n)

/-- QUEUE_FORWARD (R424). -/
def State.forward (s : State) (n b : Nat) (x : CanFrame) (late : Bool) : State :=
  if s.bufOn n b 4 35 ∧ ¬ x.rtr then
    (List.range (canWords x)).foldl (fun s j =>
      let w0 := setFld 0 4 17 (s.get (bufFld n b 4 18 17) + j)
      let data := setFld (setFld 0 34 2 (if late then valQuest else valGood)) 0 32 (canPoint x j)
      s.forwardEntry n (s.get (bufFld n b 4 0 16)) [w0, (canStampLo x), (canStampHi x), data]) s
  else s

/-- Both error counters below 128: the port is error-active again. -/
def State.easeError (s : State) (n : Nat) : State :=
  if s.get (Reg.BP_ERR_STATE n) = 1 ∧ s.get (Reg.BP_ERR_TEC n) < 128 ∧ s.get (Reg.BP_ERR_REC n) < 128
  then s.put (Reg.BP_ERR_STATE n) 0 else s

/-- REC after a successful reception (R413, clause 12 of the standard): 1 lower, or from above 127 a free value of 119 to 127
(log entry 70); a receive-only port keeps its counters (R436). -/
def State.goodReception (s : State) (n : Nat) : State :=
  if s.rxOnly n then s
  else if s.get (Reg.BP_ERR_REC n) ≤ 127 then (s.put (Reg.BP_ERR_REC n) (s.get (Reg.BP_ERR_REC n) - 1)).easeError n
  else ((s.put (Reg.BP_ERR_REC n) (119 + Config.recValue s.fresh % 9)).tickFresh).easeError n

/-- Entry to bus-off (R435). -/
def State.busOff (s : State) (n : Nat) : State :=
  let s := (s.put (Reg.BP_ERR_STATE n) 2).put (Reg.BP_ERR_TEC n) 255
  let s := (s.endRequests n 4).modPort n (fun p => { p with tx := none })
  let s := (s.portIrq n 7).sendInfo (srcPort n) 0x51 clsU 0
  if s.on (Reg.BP_CTRL_ABO n) then s.portRecover n else s

/-- An error frame on the bus (R434, R436): counted and shown; the error counters change unless the port is receive-only. -/
def State.meetError (s : State) (n lec tecInc recInc : Nat) : State :=
  if s.onBus n then
    let s := (s.bump (Reg.BP_EFCNT_COUNT n)).put (Reg.BP_ERR_LEC n) lec
    if s.rxOnly n then s
    else
      let tec := s.get (Reg.BP_ERR_TEC n) + tecInc
      let rec' := min 255 (s.get (Reg.BP_ERR_REC n) + recInc)
      let s := (s.put (Reg.BP_ERR_TEC n) (min 255 tec)).put (Reg.BP_ERR_REC n) rec'
      let s := s.modPort n (fun p => { p with tx := p.tx.map (fun t => { t with failed := true }) })
      if tec > 255 then s.busOff n
      else if s.get (Reg.BP_ERR_STATE n) = 0 ∧ (tec ≥ 128 ∨ rec' ≥ 128) then
        ((s.put (Reg.BP_ERR_STATE n) 1).portIrq n 6).sendInfo (srcPort n) 0x50 clsC 0
      else s
  else s

/-- ERROR_FRAME (R434). After it a leaving port stops, unless a frame of its own is still to end (R438). -/
def State.errorFrame (s : State) (n lec tecInc recInc : Nat) : State :=
  let s := s.meetError n lec tecInc recInc
  if (s.port n).tx.isSome then s else s.busIdle n

/-- A form error in a received frame (R413, R434): the port sends an error frame and counts as a receiver that found the error; a
receive-only port only shows the error. -/
def State.formError (s : State) (n : Nat) : State :=
  if s.rxOnly n then s.put (Reg.BP_ERR_LEC n) 2 else s.meetError n 2 0 1

/-- A frame that no buffer takes (R419). -/
def State.dropFrame (s : State) (n : Nat) : State := (s.bump (Reg.BP_RXDROP_COUNT n)).portIrq n 4

/-- The frame goes to buffer `b` by filter `f`, which gives high priority or not (R420, R421, R424, R433). -/
def State.shadowFrame (s : State) (n f b : Nat) (high : Bool) (x : CanFrame) : State :=
  let late := s.frameLate n b (x.stamp.toNat * 256)
  let s := if (slookup b (s.port n).shadows).isSome then s.countOvr n b else s
  let s := s.modPort n (fun p => { p with shadows := sinsert b ⟨x, f, late⟩ p.shadows })
  let s := if late then (s.bump (Reg.BP_LATE_COUNT n)).portIrq n 3 else s
  let s := if high then (s.setLine (8 + n) true).setLine (8 + n) false else s
  s.forward n b x late

/-- A frame received without error, with the target that the filters gave it: filter, buffer, high priority. -/
def State.accept (s : State) (n : Nat) (x : CanFrame) (target : Option (Nat × Nat × Bool)) : State :=
  let s := s.goodReception n
  match target with
  | some (f, b, high) => if s.isRx n b then s.shadowFrame n f b high x else s.dropFrame n
  | none => s.dropFrame n

/-- FRAME_RECEPTION (R419-R424, R433): filter, shadow, forwarding; a free buffer takes the frame at SHADOW_TRANSFER. The newest
`after` writes of filter words came after the frame's FDF bit and do not apply to it. The end of the frame is a bus-idle point
for a port that is leaving (R438). -/
def State.receive (s : State) (n : Nat) (x : CanFrame) (after : Nat) : State :=
  if ¬ s.onBus n then s
  else
    let old := s.filtersBefore n after
    let target := (old.filterFor n x).map (fun u => (u.1, u.2, old.on (filterFld n u.1 0 31 1)))
    let s := s.modPort n (fun p => { p with undo := [] })
    (if x.fdf ∧ ¬ s.on (Reg.BP_CTRL_FDOE n) then s.formError n else s.accept n x target).busIdle n

/-- BUFFER_LOCK (R422): a read of word 0 of a receive buffer; the lock leaves another buffer. -/
def State.lockBuffer (s : State) (n b : Nat) : State :=
  if s.isRx n b then
    let old := (s.port n).lock
    let s := s.modPort n (fun p => { p with lock := some b })
    match old with
    | some o => s.tryTransfer n o
    | none => s
  else s

/-- LOCK_RELEASE (R422): a read of the locked buffer's word 22. -/
def State.releaseLock (s : State) (n b : Nat) : State :=
  if (s.port n).lock = some b then (s.modPort n (fun p => { p with lock := none })).transfer n b else s

/-- LOCK_TIMEOUT (R422). -/
def State.lockTimeout (s : State) (n : Nat) : State :=
  match (s.port n).lock with
  | some b => (s.raise (Reg.BP_STAT_LOCKTO n)).releaseLock n b
  | none => s

/-! ## Transmission (R425-R430, R436) -/

/-- The block is a standby that does not send (R436): SYNCING, TRACKING, PAUSED or LOST. -/
def State.standbyHolds (s : State) : Bool :=
  let st := s.get Reg.STBY_STAT_STATE
  decide (2 ≤ st ∧ st ≤ 5)

/-- R436 holds this buffer. -/
def State.heldBuf (s : State) (n b : Nat) : Bool := s.standbyHolds && !s.bufOn n b 0 33

/-- R436 holds this buffer, which has no window: its request ends at once (R428). -/
def State.heldNow (s : State) (n b : Nat) : Bool := s.heldBuf n b && decide (s.wlen n b = 0)

/-- Sets or clears the further request for a buffer whose frame is in progress. -/
def State.setAgain (s : State) (n b : Nat) (on : Bool) : State :=
  match (s.port n).tx with
  | some t => if t.buf = b then s.modPort n (fun p => { p with tx := some { t with again := on } }) else s
  | none => s

/-- The standby role begins (R428, R436): a held request without a window ends at once. -/
def State.holdRequests (s : State) : State :=
  (List.range 8).foldl (fun s n => (List.range 64).foldl (fun s b =>
    if s.isTx n b ∧ s.on (reqFld n b) ∧ s.heldNow n b then
      (if ((s.port n).tx.map (·.buf)) = some b then s.setAgain n b false
        else (s.put (reqFld n b) 0).put (txstFld n b) 5) else s) s) s

/-- A request (R425, R428): held at once in the standby role when it has no window; a request made while its frame is
in progress is a further one. -/
def State.request (s : State) (n b : Nat) : State :=
  if s.bufOn n b 0 34 then
    if s.heldNow n b then (s.put (reqFld n b) 0).put (txstFld n b) 5
    else ((s.setAgain n b true).raise (reqFld n b)).put (txstFld n b) 1
  else s

/-- Withdrawal by software of a request that has not started (R416, R427). -/
def State.withdraw (s : State) (n b : Nat) : State :=
  if s.bufOn n b 0 34 ∧ s.on (reqFld n b) then
    match (s.port n).tx with
    | some t => if t.buf = b then s.modPort n (fun p => { p with tx := some { t with again := false } })
      else (s.put (reqFld n b) 0).put (txstFld n b) 0
    | none => (s.put (reqFld n b) 0).put (txstFld n b) 0
  else s

/-- The arbitration field as a number: lower wins (R425). -/
def State.arbKey (s : State) (n b : Nat) : Nat :=
  let id := s.get (bufFld n b 1 0 29)
  let rtr := s.get (bufFld n b 1 32 1)
  if s.bufOn n b 1 35 then id / 2 ^ 18 * 2 ^ 21 + 2 ^ 20 + 2 ^ 19 + id % 2 ^ 18 * 2 + rtr
  else id / 2 ^ 18 * 2 ^ 21 + rtr * 2 ^ 20

/-- A buffer word is uncorrectable. -/
def State.bufBad (s : State) (n b : Nat) : Bool :=
  (List.range 23).any (fun w => decide (s.eccAt (bpRam n + 32 * b + w) = some true))

/-- R428, code 6. -/
def State.notSendable (s : State) (n b : Nat) : Bool :=
  (s.bufOn n b 1 34 && s.bufOn n b 1 32) || (s.bufOn n b 1 34 && !s.on (Reg.BP_CTRL_FDOE n)) ||
  (s.bufOn n b 1 33 && (!s.on (Reg.BP_CTRL_FDOE n) || !s.on (Reg.BP_CTRL_BRSE n))) || s.bufBad n b

/-- The frame a buffer holds, as copied at its start. -/
def State.frameOf (s : State) (n b : Nat) : TxFrame :=
  let fdf := s.bufOn n b 1 34
  let dlc := s.get (bufFld n b 3 28 4)
  let rtr := s.bufOn n b 1 32
  { ide := s.bufOn n b 1 35, fdf := fdf, brs := s.bufOn n b 1 33, rtr := rtr,
    esi := decide (s.get (Reg.BP_ERR_STATE n) = 1), id := s.get (bufFld n b 1 0 29), dlc := dlc,
    data := if rtr then [] else (List.range (dataLen fdf dlc)).map (fun k => s.bufByte n b k) }

/-- Eligible requests at instant `t`, lowest identifier first, then lowest buffer number (R425, R430). -/
def State.eligibleTx (s : State) (n t : Nat) : List Nat :=
  let all := (List.range 64).filter (fun b =>
    s.isTx n b && s.on (reqFld n b) && !s.heldBuf n b && s.windowOpen n b t)
  (all.map (fun b => s.arbKey n b * 64 + b)).foldl (fun l k => setInsert k l) [] |>.map (· % 64)

/-- Ends a request that cannot be sent (R428). -/
def State.refuseTx (s : State) (n b : Nat) : State :=
  let s' := (s.put (reqFld n b) 0).put (txstFld n b) 6
  if s.bufBad n b then s'.sendInfo (srcPort n) 0x52 clsU b else s'

/-! ## Hold status frame (R436) -/

/-- The status frame of port `n`. -/
def State.statusFrame (s : State) (n : Nat) : TxFrame :=
  let st := s.reg Reg.THAW_STATUS_PHASE.off
  let k := (s.port n).status
  { ide := s.on (Reg.BP_HOLDID_IDE n), fdf := false, brs := false, rtr := false,
    esi := decide (s.get (Reg.BP_ERR_STATE n) = 1), id := s.get (Reg.BP_HOLDID_ID n), dlc := 8,
    data := [fld st 32 4, fld st 24 8, fld st 16 8, fld st 8 8, fld st 0 8, n, k / 256, k % 256] }

/-- The bus is idle and a status frame is due: its start-of-frame bit. -/
def State.startStatus (s : State) (n : Nat) : State :=
  if (s.port n).statusDue ∧ s.onBus n ∧ (s.port n).tx = none then
    let f := s.statusFrame n
    s.modPort n (fun p => { p with tx := some ⟨64, f, false, false, false, false⟩, last := some f, statusDue := false })
  else s

/-- HOLD_STATUS_FRAME: each second from Hold entry. The frame starts at once on an idle bus; DESIGN CHOICE, it waits for the next
bus-idle point of a port that is not on the bus or has a frame in progress (log entry 91). -/
def State.holdStatus (s : State) (n : Nat) : State :=
  if s.on Reg.THAW_STATUS_HOLD ∧ s.on (Reg.BP_HOLDID_EN n) then
    (s.modPort n (fun p => { p with statusDue := true })).startStatus n
  else s

/-- The end of the status frame: sent, it counts; one that lost arbitration or met an error is sent again (R413). -/
def State.statusEnd (s : State) (n : Nat) (e : TxEnd) : State :=
  s.modPort n (fun p => if e = .sent then { p with status := (p.status + 1) % 65536 } else { p with statusDue := true })

/-! ## Start and end of a frame -/

/-- The port starts its first sendable eligible request (R425, R428, R430). -/
def State.startRequest (s : State) (n t : Nat) : State :=
  if s.onBus n ∧ ¬ s.rxOnly n ∧ (s.port n).tx = none then
    (s.eligibleTx n t).foldl (fun s b =>
      if (s.port n).tx.isSome then s
      else if s.notSendable n b then s.refuseTx n b
      else
        let f := s.frameOf n b
        s.modPort n (fun p => { p with tx := some ⟨b, f, false, false, false, false⟩, last := some f })) s
  else s

/-- FRAME_START: a bus-idle point. A leaving port stops (R438); else the port starts a frame that is due. -/
def State.frameStart (s : State) (n t : Nat) : State :=
  if (s.port n).leaving then s.portOff n else (s.startStatus n).startRequest n t

/-- A request that its window's close withdraws (R428, R430, R436). -/
def State.missWindow (s : State) (n b : Nat) : State :=
  let s := s.put (reqFld n b) 0
  if s.heldBuf n b then s.put (txstFld n b) 5
  else ((s.put (txstFld n b) 3).bump (Reg.BP_TXMISS_COUNT n)).portIrq n 2

/-- A request made again after the frame in progress began, or after its window closed. -/
def State.requestAgain (s : State) (n : Nat) (t : TxNow) : State :=
  if t.again then (s.raise (reqFld n t.buf)).put (txstFld n t.buf) 1 else s

/-- The buffer's frame is sent (R427, R428). DESIGN CHOICE: a further request that was pending when the window closed ends with
TXST 3 here, after TXST 2 of the frame (R430, log entry 92). -/
def State.sentEnd (s : State) (n : Nat) (t : TxNow) : State :=
  let s := ((s.put (reqFld n t.buf) 0).put (txstFld n t.buf) 2).portIrq n 1
  (if t.missed then s.missWindow n t.buf else s).requestAgain n t

/-- The buffer's frame lost arbitration or met an error (R427): its request goes on, unless its window has closed or R436 holds it
at once. -/
def State.unsentEnd (s : State) (n : Nat) (t : TxNow) : State :=
  if t.closed then (s.missWindow n t.buf).requestAgain n t
  else if s.heldNow n t.buf then (s.put (reqFld n t.buf) 0).put (txstFld n t.buf) 5
  else s

/-- TEC after a frame sent (R413), and the measured loop delay (R415). -/
def State.noteEnd (s : State) (n : Nat) (t : TxNow) (e : TxEnd) (tdcv : Option Nat) : State :=
  let s := match tdcv with
    | some d => if t.frame.fdf ∧ t.frame.brs ∧ s.on (Reg.BP_TDC_TDCE n) ∧ e ≠ .lostArbitration then
        s.put (Reg.BP_TDC_TDCV n) (min d 127) else s
    | none => s
  if e = .sent then (s.put (Reg.BP_ERR_TEC n) (s.get (Reg.BP_ERR_TEC n) - 1)).easeError n else s

/-- FRAME_END (R415, R427, R428): the frame in progress is sent, loses arbitration or meets an error. `tdcv` is the loop
delay, where the frame's FDF-res bit pair was sent. A leaving port stops after a frame that it sent, and after the error frame
that met one; a port that lost arbitration still receives the other frame (R438). -/
def State.frameEnd (s : State) (n : Nat) (e : TxEnd) (tdcv : Option Nat) : State :=
  match (s.port n).tx with
  | none => s
  | some t =>
    let s := (s.modPort n (fun p => { p with tx := none })).noteEnd n t e tdcv
    if (s.port n).leaving then (if e = .sent ∨ t.failed then s.portOff n else s)
    else if t.buf = 64 then s.statusEnd n e
    else if e = .sent then s.sentEnd n t
    else s.unsentEnd n t

/-- WINDOW_CLOSE (R427, R430, R436): a request still pending is withdrawn; a frame in progress completes, but is not sent again, and
a further request ends with it. -/
def State.windowClose (s : State) (n b : Nat) : State :=
  if s.isTx n b ∧ s.on (reqFld n b) ∧ s.wlen n b ≠ 0 then
    match (s.port n).tx with
    | some t => if t.buf = b then
        s.modPort n (fun p => { p with tx := some { t with closed := true, missed := t.missed || t.again, again := false } })
      else s.missWindow n b
    | none => s.missWindow n b
  else s

/-- BUS_OFF_RECOVERY_END (R435): error-active again, both counters 0. -/
def State.recoveryEnd (s : State) (n : Nat) : State :=
  if s.get (Reg.BP_ERR_STATE n) = 2 ∧ (s.port n).recovering then
    let s := s.modPort n (fun p => { p with recovering := false })
    ((s.put (Reg.BP_ERR_STATE n) 0).put (Reg.BP_ERR_TEC n) 0).put (Reg.BP_ERR_REC n) 0
  else s

/-! ## Egress into a buffer (R426) -/

/-- The check bits of a word after a write of some of its nonets (R160, R556): a whole word is sound again, and of a partly
written one only a correctable error is corrected. -/
def State.wroteNonets (s : State) (key : Nat) (whole : Bool) : State :=
  if whole || decide (s.eccAt key ≠ some true) then s.clearEcc key else s

/-- Writes bytes from byte `k` of a buffer's data; each is one nonet of its word. -/
def State.putBytes (s : State) (n b k : Nat) (bytes : List Nat) : State :=
  let s := bytes.zipIdx.foldl (fun s (v, i) => s.put (byteFld n b (k + i)) v) s
  let last := k + bytes.length
  (List.range 16).foldl (fun s j =>
    if 4 * j < last ∧ k < 4 * j + 4 then
      s.wroteNonets (bpRam n + 32 * b + 7 + j) (decide (k ≤ 4 * j ∧ 4 * j + 4 ≤ last))
    else s) s

/-- Places an egress word; false, with BP_EGERR counted, when it cannot be placed. -/
def State.placeWord (s : State) (n b slot : Nat) (w : Word) : Bool × State :=
  let value := [fld w 24 8, fld w 16 8, fld w 8 8, fld w 0 8]
  let sel := slot / 64
  if ¬ s.isTx n b then (false, s.bump (Reg.BP_EGERR_COUNT n))
  else if sel = 0 ∧ slot / 16 % 4 = 0 then (true, s.putBytes n b (4 * (slot % 16)) value)
  else if sel = 1 ∧ slot % 64 ≤ 59 then (true, s.putBytes n b (slot % 64) (fld w 32 4 :: value))
  else (false, s.bump (Reg.BP_EGERR_COUNT n))

/-! ## Writes by masters (R416) -/

/-- A write of word `off` of the message RAM under nonet enables. -/
def State.writePortRam (s : State) (n off : Nat) (v : Word) (en : BitVec 4) : State :=
  let b := off / 32
  let w := off % 32
  let key := bpRam n + off
  let m := nonetMask en
  let plain (mask : Word) : State :=
    (s.setReg key ((s.reg key &&& ~~~ (mask &&& m)) ||| (v &&& mask &&& m))).wroteNonets key (decide (en = 15))
  if b ≥ 64 ∨ w ≥ 23 ∨ w = 5 ∨ w = 6 then s
  else if w = 0 then plain (fldMask 33 3)
  else if w = 1 then plain (fldMask 32 4 ||| fldMask 0 29)
  else if w = 4 then plain (fldMask 18 18 ||| fldMask 0 16)
  else if w = 3 then
    let s := plain (fldMask 28 4)
    if ¬ en.getLsbD 3 then s
    else
      let s := if bit v 34 then s.put (bufFld n b 3 34 1) 0 else s
      let s := if bit v 33 then s.put (bufFld n b 3 33 1) 0 else s
      if s.bufOn n b 0 34 then if bit v 35 then s.request n b else s.withdraw n b
      else if bit v 35 then s.put (bufFld n b 3 35 1) 0 else s
  else plain (fldMask 0 36)

end Sys2Proof.Machine
end

