-- ==== Sys2Proof/Machine/Egress.lean ====
section
/-! DEFINITION. Egress.lean: Rime's egress publication, and the grants of waiting queue reservations
(12 R346-R350, 15 R403). -/

namespace Sys2Proof.Machine

open Sys2Proof

/-! ## Records (R348) -/

def recOff (r w : Nat) : Nat := egressOff + 4 * r + w

/-- A record in use whose reserved fields are 0. -/
def State.recordOk (s : State) (r : Nat) : Bool :=
  bit (s.img (recOff r 0)) 35 && decide (fld (s.img (recOff r 0)) 17 16 = 0) &&
    decide (fld (s.img (recOff r 1)) 19 15 = 0) && decide (fld (s.img (recOff r 2)) 8 28 = 0)

def State.recordIndex (s : State) (r : Nat) : Nat := fld (s.img (recOff r 0)) 0 17
def State.recordPath (s : State) (r : Nat) : Nat := fld (s.img (recOff r 1)) 34 2

/-- Rime writes LAST when the word has reached its path (R350). -/
def State.delivered (s : State) (r frame : Nat) : State := s.setImg (recOff r 3) (BitVec.ofNat 36 frame)

/-- The record is prepared after the publication instant (R349); with D = 2 the pass was prepared in the waiting frame. -/
def EgressPass.late (p : EgressPass) (r : Nat) : Bool := !p.ready && decide (4 * p.phi < 5 * (r / 2 + 16))

/-- What withholds a record's word, tested in the order of R350: none when it is sent, some true when R346 does. -/
def State.withheld (s : State) (p : EgressPass) (r : Nat) : Option Bool :=
  let w := s.recordIndex r
  if ¬ p.egen then some false
  else if bit (s.img (recOff r 0)) 34 ∧ ¬ s.rime.first ∧
      s.readOutput s.rime.comm w = s.readOutput s.rime.prevComm w then some false
  else if ¬ bit (s.img (recOff r 0)) 33 ∧ s.rime.comm.marks.inGroup w then some true
  else none

/-- The ingress-entry form of a committed word (R350). -/
def State.egressEntry (s : State) (p : EgressPass) (w : Nat) : List Word :=
  let kind := if s.startOut w = 3 then 1 else 0
  let stamp := p.stamp / 65536
  [setFld (setFld 0 32 4 kind) 4 17 w, BitVec.ofNat 36 stamp,
   setFld (setFld 0 0 28 (stamp / 2 ^ 36)) 28 8 (p.stamp / 256 % 256), s.readOutput s.rime.comm w]

/-- What the queue manager answers to an egress enqueue (R350, R404). -/
def State.egressResult (s : State) (r frame st : Nat) : State := if st = 0 ∨ st = 4 then s.delivered r frame else s

/-- PATH 01. -/
def State.sendToQueue (s : State) (p : EgressPass) (r : Nat) : State :=
  let q := fld (s.img (recOff r 1)) 0 16
  let entry := s.egressEntry p (s.recordIndex r)
  let s := s.touchDesc q
  if s.rimeRefused q then s.bump Reg.QM_REFUSED_COUNT
  else if s.mustWait q false then s.awaitGrant ⟨q, false, .rime r p.frame entry, .go⟩
  else
    let (st, s) := s.enqueueAs q entry (s.qPlan q false)
    s.egressResult r p.frame st

/-- PATH 10: the word goes into a transmit buffer; the buffers reached are noted for their requests. -/
def State.sendToPort (s : State) (p : EgressPass) (r : Nat) (got : List Nat) : State × List Nat :=
  let w1 := s.img (recOff r 1)
  let n := fld w1 16 3
  let b := fld w1 0 6
  let (ok, s) := s.placeWord n b (fld (s.img (recOff r 2)) 0 8) (s.readOutput s.rime.comm (s.recordIndex r))
  if ok then (s.delivered r p.frame, setInsert (64 * n + b) got) else (s, got)

/-- One record of a pass; the flag tells that the frame's message for a late record has been sent. -/
def State.publishRecord (s : State) (p : EgressPass) (r : Nat) (got : List Nat) (told : Bool) :
    State × List Nat × Bool :=
  if ¬ s.recordOk r then (s, got, told)
  else match s.withheld p r with
    | some blocked => (if blocked then s.bump Reg.IMG_EGBLK_COUNT else s, got, told)
    | none =>
      let path := s.recordPath r
      if path ≠ 1 ∧ path ≠ 2 then (s, got, told)
      else
        let late := p.late r
        let s := if late then (s.bump Reg.IMG_EGLATE_COUNT).raise Reg.IMG_STAT_EGLATE else s
        let s := if late ∧ ¬ told then s.sendInfo srcRime 0x34 clsC r else s
        if path = 1 then (s.sendToQueue p r, got, told || late)
        else
          let (s, got) := s.sendToPort p r got
          (s, got, told || late)

/-- The records with V = 1. -/
def State.records (s : State) : List Nat :=
  (s.imgListed egressOff journalOff).filterMap (fun e =>
    if e.1 % 4 = 0 ∧ bit e.2 35 then some ((e.1 - egressOff) / 4) else none)

/-- EGRESS_PUBLICATION (R349, R350, R426). -/
def State.egressPublish (s : State) : State :=
  match s.rime.egress with
  | none => s
  | some p =>
    let s := { s with rime := { s.rime with egress := none } }
    let (s, got, _) := s.records.foldl
      (fun (a : State × List Nat × Bool) r => a.1.publishRecord p r a.2.1 a.2.2) (s, [], false)
    got.foldl (fun s k => s.request (k / 64) (k % 64)) s

/-! ## Grants -/

/-- RESERVATION_GRANT (R403): the earliest waiting request is granted; Rime and the ports then enqueue at once, a
channel or a cell holds the reservation. A queue that has become refused meanwhile grants nothing (R400): the channel ends
with ST 5, and the cell meets the refusal when it executes its instruction again. -/
def State.grant (s : State) (q : Nat) (deq : Bool) : State :=
  let s := s.touchDesc q
  match s.grantNext q deq with
  | (none, s) => s
  | (some r, s) =>
    match r.agent with
    | .rime record frame entry =>
      if s.rimeRefused q then s.bump Reg.QM_REFUSED_COUNT
      else
        let (st, s) := s.enqueueAs q entry r.plan
        s.egressResult record frame st
    | .port n entry =>
      if s.rimeRefused q then s.bump (Reg.BP_QLOST_COUNT n)
      else
        let (st, s) := s.enqueueAs q entry r.plan
        if st = 0 ∨ st = 4 then s else s.bump (Reg.BP_QLOST_COUNT n)
    | .channel _ => s.reserve (if s.channelRefused q deq then { r with plan := .status 5 } else r)
    | .cell c => if s.qBroken q ∨ s.cellRefused c q deq then s else s.reserve r

end Sys2Proof.Machine
end

