-- ==== Sys2Proof/Machine/Firn.lean ====
section
/-! DEFINITION. Firn.lean: the non-volatile store (17 R439-R456). The flash device is a set of log blocks of records, the
slots of the hot area and the entries of the repair area, each as the words that flash holds; a page read, a page program or an
erase ends at FLASH_OP_COMPLETE. -/

namespace Sys2Proof.Machine

open Sys2Proof

/-! ## The device (R439-R441) -/

def recData : BitVec 4 := 1
def recCommit : BitVec 4 := 2
def recBlock : BitVec 4 := 3
def recCopy : BitVec 4 := 4
def recHot : BitVec 4 := 5

/-- The limits of R439. -/
def deviceOk (d : FlashParams) : Bool :=
  decide (16 ≤ d.mbit ∧ d.mbit ≤ 2048) && decide (d.pageBytes = 256) && d.erase64k && (decide (d.mbit ≤ 128) || d.fourByte)

/-- Blocks of a log half: H = floor((NB - 4) / 2), with 2 blocks of 64 KiB to the Mbit. -/
def halfBlocks (d : FlashParams) : Nat := (2 * d.mbit - 4) / 2

def State.halfSize (s : State) : Nat :=
  match s.firn.dev with
  | some d => halfBlocks d
  | none => 0

/-- Block numbers of a half. -/
def State.halfNumbers (s : State) (b : Bool) : List Nat := List.range' (if b then 4 + s.halfSize else 4) s.halfSize

/-! ## Times, in half nanoseconds (R446, R450) -/

def State.spiPeriod (s : State) : Nat := if s.on Reg.KEEP_CFG_EN then 5 * (s.get Reg.KEEP_CFG_DIV + 1) else 80
def addrBits (d : FlashParams) : Nat := if d.mbit > 128 then 32 else 24

/-- tPPmax (R440, R446): the typical time multiplied by the advertised multiplier, in 10 ns. -/
def tPPmax (d : FlashParams) : Nat := d.typPP * d.mult

def State.pageProgram (s : State) (d : FlashParams) : Nat :=
  (8 + addrBits d + 8 + 2048) * s.spiPeriod + tPPmax d * 20 + 2000

/-- One page read in the read mode of KEEP_CFG.MODE; a mode that the device does not advertise reads in 1-1-1. -/
def State.pageRead (s : State) (d : FlashParams) : Nat :=
  let plain := 8 + addrBits d + 2048
  let m114 := d.quad114.map (fun y => 8 + addrBits d + y.2 + 512)
  let m144 := d.quad144.map (fun y => 8 + addrBits d / 4 + y.2 + 512)
  (match s.get Reg.KEEP_CFG_MODE with
    | 0 => (m144.orElse (fun _ => m114)).getD plain
    | 2 => m114.getD plain
    | 3 => m144.getD plain
    | _ => plain) * s.spiPeriod

/-- KEEP_HOTT in microseconds (R450). -/
def State.hotTime (s : State) (d : FlashParams) : Nat :=
  let wait := match d.suspend with
    | some l => max (s.pageProgram d) (l.2.2 * 20)
    | none => d.tErase * 20
  (wait + 10 * s.pageProgram d + 1999) / 2000

def State.noteHotTime (s : State) : State :=
  match s.firn.dev with
  | some d =>
    let s := s.put Reg.KEEP_HOTT_US (min (s.hotTime d) (2 ^ 20 - 1))
    s.putB Reg.KEEP_STAT_HOTSLOW (decide (s.hotTime d > 2000))
  | none => s

/-! ## Records (R442, R443) -/

/-- What a word of erased flash reads as (R442). -/
def erasedWord : Word := 0xFFFFFFFFF

/-- Pages of a record with `len` data words: 4 header words, an odd number of words padded by one. -/
def recPages (len : Nat) : Nat := (9 * ((4 + len + 1) / 2) + 255) / 256

/-- The words of a record in flash (R443): the header with its two CRCs, the data words, and the zero word that completes an odd
number (R442). DESIGN CHOICE: the CRC of an odd number of words takes in that zero word (log entry 93). -/
def recWords (typ : BitVec 4) (key : Nat) (seq : Word) (data : List Word) : List Word :=
  let w0 : Word := setFld (setFld (setFld 0 32 4 typ.toNat) 12 10 key) 0 12 data.length
  [w0, seq, BitVec.ofNat 36 (crc32c (w0 :: seq :: data)), BitVec.ofNat 36 (crc32c [w0, seq])] ++ data ++
    (if data.length % 2 = 1 then [(0 : Word)] else [])

/-- Word `i` of stored words; flash behind what was programmed reads as erased. -/
def flashWord (ws : List Word) (i : Nat) : Word := ws.getD i erasedWord

def recTyp (ws : List Word) : BitVec 4 := BitVec.ofNat 4 (fld (flashWord ws 0) 32 4)
def recKey (ws : List Word) : Nat := fld (flashWord ws 0) 12 10
def recLen (ws : List Word) : Nat := fld (flashWord ws 0) 0 12
def recSeq (ws : List Word) : Word := flashWord ws 1
def recBody (ws : List Word) : List Word := (List.range (recLen ws)).map (fun i => flashWord ws (4 + i))

/-- The HCRC of a header checks (R443, R444). -/
def headSound (ws : List Word) : Bool :=
  decide (flashWord ws 3 = BitVec.ofNat 36 (crc32c [flashWord ws 0, flashWord ws 1]))

/-- A record copy is sound (R444): HCRC and CRC check. -/
def recSound (ws : List Word) : Bool :=
  headSound ws && decide (flashWord ws 2 = BitVec.ofNat 36 (crc32c (flashWord ws 0 :: flashWord ws 1 :: recBody ws)))

/-! ## Blocks, validity and the key index (R441, R444, R448, R452) -/

/-- SEQ of a block's BLOCK record, none where its header is not sound: the block is free (R441, R454). -/
def blockOpened (b : FlashBlock) : Option Word :=
  if recSound b.header && decide (recTyp b.header = recBlock) then some (recSeq b.header) else none

/-- A block fresh from the factory. -/
def freshBlock (n : Nat) : FlashBlock := ⟨n, [], 0, 0, true, []⟩

def State.blockOf (s : State) (n : Nat) : FlashBlock :=
  (s.firn.blocks.find? (fun b => decide (b.number = n))).getD (freshBlock n)

def State.setBlock (s : State) (b : FlashBlock) : State :=
  let rest := s.firn.blocks.filter (fun x => decide (x.number ≠ b.number))
  { s with firn := { s.firn with blocks := rest ++ [b] } }

def State.halfBlocksOf (s : State) (h : Bool) : List FlashBlock := (s.halfNumbers h).map (fun n => s.blockOf n)

/-- Records of a half, each as its words: DEDUCED, of the blocks with a sound BLOCK record only, since another block is free and is
erased before use (R454, log entry 94). -/
def State.halfRecs (s : State) (h : Bool) : List (List Word) :=
  ((s.halfBlocksOf h).filter (fun b => (blockOpened b).isSome)).flatMap (fun b => b.recs.map (fun r => r.words))
def State.allRecs (s : State) : List (List Word) := s.halfRecs false ++ s.halfRecs true

/-- A sound COMMIT covers the DATA record, in either half (R444). -/
def State.committed (s : State) (seq : Word) : Bool :=
  s.allRecs.any (fun c => decide (recTyp c = recCommit) && recSound c &&
    decide (((recBody c).getD 0 0).toNat ≤ seq.toNat ∧ seq.toNat < (recSeq c).toNat))

/-- The record is valid (R444): a sound COPY record, or a sound and committed DATA record. -/
def State.counts (s : State) (r : List Word) : Bool :=
  recSound r && (decide (recTyp r = recCopy) || (decide (recTyp r = recData) && s.committed (recSeq r)))

/-- The key index (R448): for each key the SEQ of its live record, the valid one with the highest SEQ (R444). -/
def State.keyIndex (s : State) : List (Nat × Word) :=
  (s.allRecs.filter (fun r => s.counts r)).foldl (fun l r =>
    match slookup (recKey r) l with
    | some q => if q.toNat < (recSeq r).toNat then sinsert (recKey r) (recSeq r) l else l
    | none => sinsert (recKey r) (recSeq r) l) []

/-- Brings the key index up to date. -/
def State.reindex (s : State) : State := { s with firn := { s.firn with index := s.keyIndex } }

/-- SEQ of the live record of a key. -/
def State.liveSeq (s : State) (key : Nat) : Option Word := slookup key s.firn.index

/-- A half's sound copy of a key's record with this SEQ. -/
def State.copyIn (s : State) (h : Bool) (key : Nat) (seq : Word) : Option (List Word) :=
  (s.halfRecs h).find? (fun r => decide (recKey r = key) && decide (recSeq r = seq) &&
    (decide (recTyp r = recData) || decide (recTyp r = recCopy)) && recSound r)

/-- The open block of a half at which records are placed: the one opened last. -/
def State.headBlock (s : State) (h : Bool) : Option FlashBlock :=
  (s.halfBlocksOf h).foldl
    (fun best b => match blockOpened b, best with
      | none, _ => best
      | some _, none => some b
      | some q, some a => if ((blockOpened a).getD 0).toNat < q.toNat then some b else best) none

/-- The free block that is opened next: the lowest erase count, then the lowest number (R452). -/
def State.freeBlock (s : State) (h : Bool) : Option FlashBlock :=
  (s.halfBlocksOf h).foldl
    (fun best b => if (blockOpened b).isSome then best else match best with
      | none => some b
      | some a => if b.erases < a.erases then some b else best) none

def State.freeCount (s : State) (h : Bool) : Nat := ((s.halfBlocksOf h).filter (fun b => (blockOpened b).isNone)).length

/-- Free pages of a half: of the open block, and of the free blocks behind their header pages. -/
def State.freePages (s : State) (h : Bool) : Nat :=
  255 * s.freeCount h + (match s.headBlock h with
    | some b => 256 - b.used
    | none => 0)

/-- KEEP_FREE and KEEP_WEAR (R452, R456). -/
def State.noteFlash (s : State) : State :=
  let s := s.put Reg.KEEP_FREE_PAGES (min (s.freePages false) (s.freePages true) - 512)
  let ers := (s.halfBlocksOf false ++ s.halfBlocksOf true).map (fun b => b.erases)
  (s.put Reg.KEEP_WEAR_MAX (min (ers.foldl max 0) (2 ^ 18 - 1))).put Reg.KEEP_WEAR_MIN
    (min (ers.foldl min (2 ^ 18 - 1)) (2 ^ 18 - 1))

def State.nextSeq (s : State) : Word := s.reg Reg.KEEP_SEQ_SEQ.off
def State.takeSeq (s : State) (n : Nat) : State := s.setReg Reg.KEEP_SEQ_SEQ.off (s.nextSeq + BitVec.ofNat 36 n)

/-- A page that is not blank is not programmed (R447): counted, with its message. -/
def State.skipPage (s : State) (page : Nat) : State := (s.bump Reg.KEEP_SKIP_COUNT).sendInfo srcFirn 0x63 clsC page

/-- Page number of a block's next page: 256 pages to a block. -/
def pageNumber (b : FlashBlock) : Nat := 256 * b.number + b.used

/-- A block erased once more. -/
def State.eraseBlock (s : State) (n : Nat) : State :=
  s.setBlock { freshBlock n with erases := (s.blockOf n).erases + 1 }

/-- One operation towards opening a block of a half with its BLOCK record (R441, R443, R452): a free block that is not blank
is erased first (R454). DESIGN CHOICE: a header page that does not read blank is counted as R447 counts it, and its block is
erased again (log entry 94). -/
def State.openBlock (s : State) (h blank : Bool) : State :=
  match s.freeBlock h with
  | none => s
  | some b =>
    if ¬ b.blank then s.eraseBlock b.number
    else if ¬ blank then (s.skipPage (256 * b.number)).setBlock { b with blank := false }
    else (s.setBlock { b with header := recWords recBlock 0 s.nextSeq [BitVec.ofNat 36 b.erases], used := 1, blank := false,
                              recs := [] }).takeSeq 1

/-- The half's open block has this many pages left. -/
def State.hasRoom (s : State) (h : Bool) (pages : Nat) : Bool :=
  match s.headBlock h with
  | some b => decide (b.used + pages ≤ 256)
  | none => false

/-- A record to be written in a half. -/
def flashWrite (h : Bool) (ws : List Word) : FlashWrite := ⟨h, ws, recPages (recLen ws), none⟩

/-- Pages of a record still to be programmed: all of them, where other pages have been programmed since its last one (DESIGN
CHOICE, it is placed again whole, log entry 95). -/
def FlashWrite.rest (w : FlashWrite) (b : FlashBlock) : Nat :=
  if w.place = some (b.number, b.used) then w.left else recPages (recLen w.words)

/-- One operation of a record's write: an operation towards the block that it needs, a page that is not blank and is skipped, or a
page programmed. Answers what is left of the write, none once the record is complete. -/
def State.writePage (s : State) (w : FlashWrite) (blank : Bool) : State × Option FlashWrite :=
  let full := recPages (recLen w.words)
  match s.headBlock w.halfB with
  | none => (s.openBlock w.halfB blank, some { w with left := full })
  | some b =>
    let left := w.rest b
    if left = full ∧ ¬ s.hasRoom w.halfB full then (s.openBlock w.halfB blank, some { w with left := full })
    else if ¬ blank then
      ((s.skipPage (pageNumber b)).setBlock { b with used := b.used + 1 }, some { w with left := full, place := none })
    else if left ≤ 1 then
      ((s.setBlock { b with used := b.used + 1, recs := b.recs ++ [⟨b.used + 1 - full, w.words⟩] }).reindex, none)
    else
      (s.setBlock { b with used := b.used + 1 }, some { w with left := left - 1, place := some (b.number, b.used + 1) })

/-- One operation of a list of writes in order. -/
def State.writeNext (s : State) (todo : List FlashWrite) (blank : Bool) : State × List FlashWrite :=
  match todo with
  | [] => (s, [])
  | w :: rest => match s.writePage w blank with
    | (s, some w) => (s, w :: rest)
    | (s, none) => (s, rest)

/-! ## Commands (R446-R449, R453, R456) -/

/-- A command ends with a status. -/
def State.keepEnd (s : State) (st : Nat) : State :=
  let s := ((s.put Reg.KEEP_CSTAT_BUSY 0).put Reg.KEEP_CSTAT_ST st).raise Reg.KEEP_IRQ_CDONE
  if st = 2 ∨ st = 10 then s.raise Reg.KEEP_IRQ_ERR else s

/-- A password: 0 means none (R453). -/
def State.password (s : State) (write : Bool) : Nat :=
  match s.liveSeq 1023 with
  | none => 0
  | some q =>
    match (s.copyIn false 1023 q).orElse (fun _ => s.copyIn true 1023 q) with
    | none => 0
    | some r =>
      let d := recBody r
      if write then (dword (d.getD 2 0) (d.getD 3 0)).toNat else (dword (d.getD 0 0) (d.getD 1 0)).toNat

def State.keyValue (s : State) : DWord := dword (s.reg Reg.KEEP_KEY0_KEY.off) (s.reg Reg.KEEP_KEY1_KEY.off)

def State.gather (s : State) (i : Nat) : Word := s.word (firnBase + 0x200 + i)

/-- The copies of a live record that a READ finds sound: `badA` and `badB` say which halves' copies fail their checks as flash
is read now. -/
def State.readable (s : State) (key : Nat) (q : Word) (badA badB : Bool) : Option (List Word) × Option (List Word) :=
  (if badA then none else s.copyIn false key q, if badB then none else s.copyIn true key q)

/-- READ (R444, R448). -/
def State.keepRead (s : State) (key : Nat) (badA badB : Bool) : State :=
  if ¬ s.on Reg.KEEP_STAT_READY then s.keepEnd 7
  else if key = 1023 then s.keepEnd 11
  else if s.password false ≠ 0 ∧ ¬ s.on Reg.KEEP_STAT_RUNL then s.keepEnd 5
  else match s.liveSeq key with
    | none => s.keepEnd 1
    | some q =>
      let (a, b) := s.readable key q badA badB
      let s := if a.isNone ∧ b.isSome then (s.bump Reg.KEEP_TWINF_COUNT).sendInfo srcFirn 0x61 clsC key else s
      match a.orElse (fun _ => b) with
      | none => (s.sendInfo srcFirn 0x62 clsU key).keepEnd 2
      | some r =>
        let d := recBody r
        if d = [] then s.keepEnd 1
        else
          let ws := setFld (setFld 0 12 10 key) 0 12 d.length :: recSeq r :: d
          let s := ws.zipIdx.foldl (fun s (w, i) => s.writeRaw (firnBase + 0x200 + i) w) s
          s.keepEnd 0

/-- The entries of the gather buffer (R446): key, data words; none when the format check fails. -/
def State.gatherEntries (s : State) (glen : Nat) : Option (List (Nat × List Word)) :=
  let rec go : Nat → Nat → Option (List (Nat × List Word))
    | 0, _ => none
    | fuel + 1, i =>
      if i = glen then some []
      else
        let h := s.gather i
        let len := fld h 0 12
        let key := fld h 12 10
        if i + 1 + len > glen ∨ len > 4092 ∨ key = 1023 ∨ fld h 22 14 ≠ 0 then none
        else (go fuel (i + 1 + len)).map (fun l => (key, (List.range len).map (fun j => s.gather (i + 1 + j))) :: l)
  if 1 ≤ glen ∧ glen ≤ 4096 then go (glen + 1) 0 else none

/-- Pages that one half needs for a commit. -/
def commitPages (entries : List (Nat × List Word)) : Nat :=
  entries.foldl (fun n e => n + recPages e.2.length) (recPages 1)

/-- The writes of a commit in order (R447): the DATA records in half A, then in half B, then the COMMIT record in each. -/
def commitWrites (q : Word) (entries : List (Nat × List Word)) : List FlashWrite :=
  let recs := entries.zipIdx.map (fun e => recWords recData e.1.1 (q + BitVec.ofNat 36 e.2) e.1.2)
  let fin := recWords recCommit 0 (q + BitVec.ofNat 36 entries.length) [q]
  recs.map (flashWrite false) ++ recs.map (flashWrite true) ++ [flashWrite false fin, flashWrite true fin]

/-- Starts a commit's writes. -/
def State.startCommit (s : State) (entries : List (Nat × List Word)) : State :=
  let todo := commitWrites s.nextSeq entries
  let s := (s.takeSeq (entries.length + 1)).raise Reg.KEEP_CSTAT_BUSY
  { s with firn := { s.firn with job := some (.commit todo) } }

/-- The checks of R446 behind the format check, and the commit. -/
def State.tryCommit (s : State) (entries : List (Nat × List Word)) : State :=
  match s.firn.dev with
  | none => s.keepEnd 10
  | some d =>
    let p := commitPages entries
    if s.freePages false < p + 512 ∨ s.freePages true < p + 512 then s.keepEnd 4
    else if ¬ s.firn.pfOk ∨ s.firn.pfWarn ∨
        2 * p * (s.pageRead d + s.pageProgram d) + s.hotTime d * 2000 > s.get Reg.KEEP_HOLDUP_US * 2000 then
      (s.bump Reg.KEEP_REFUSE_COUNT).keepEnd 3
    else s.startCommit entries

/-- Write access is locked (R446, R453). -/
def State.writeLocked (s : State) : Bool := decide (s.password true ≠ 0) && !s.on Reg.KEEP_STAT_WUNL

/-- COMMIT (R446). -/
def State.keepCommit (s : State) (glen : Nat) : State :=
  if ¬ s.on Reg.KEEP_STAT_READY then s.keepEnd 7
  else if s.writeLocked then s.keepEnd 5
  else match s.gatherEntries glen with
    | none => s.keepEnd 6
    | some es => s.tryCommit es

/-- SETPWR and SETPWW (R453): the passwords are the data words of the key-1,023 record. -/
def State.keepSetPassword (s : State) (write : Bool) : State :=
  if ¬ s.on Reg.KEEP_STAT_READY then s.keepEnd 7
  else if s.writeLocked then s.keepEnd 5
  else
    let r := if write then BitVec.ofNat 72 (s.password false) else s.keyValue
    let w := if write then s.keyValue else BitVec.ofNat 72 (s.password true)
    s.tryCommit [(1023, [dlo r, dhi r, dlo w, dhi w])]

/-- UNLOCKR and UNLOCKW (R453). -/
def State.keepUnlock (s : State) (write : Bool) : State :=
  if s.on Reg.KEEP_STAT_LOCKOUT then s.keepEnd 9
  else if ¬ s.on Reg.KEEP_STAT_READY then s.keepEnd 7
  else if s.keyValue.toNat = s.password write then
    ((s.raise (if write then Reg.KEEP_STAT_WUNL else Reg.KEEP_STAT_RUNL)).put Reg.KEEP_STAT_FAIL 0).keepEnd 0
  else
    let n := s.get Reg.KEEP_STAT_FAIL + 1
    let s := s.put Reg.KEEP_STAT_FAIL n
    let s := if n ≥ 3 then ((s.raise Reg.KEEP_STAT_LOCKOUT).put Reg.KEEP_STAT_RUNL 0).put Reg.KEEP_STAT_WUNL 0 else s
    s.keepEnd 8

/-- LOCK (R453). -/
def State.keepLock (s : State) : State := ((s.put Reg.KEEP_STAT_RUNL 0).put Reg.KEEP_STAT_WUNL 0).keepEnd 0

/-- The hot area has work of its own: a block to erase, or slots to read (R449). -/
def State.hotWork (s : State) : Bool := s.firn.hotErase.isSome || !s.firn.unread.isEmpty

/-- A flash operation is in progress. -/
def State.flashBusy (s : State) : Bool := s.firn.job.isSome || s.firn.task.isSome || s.hotWork

/-- A save is requested: at a PF_WARN edge or by HOTSAVE, after phase 1 (R449). It waits for the boundary of the flash operation in
progress. -/
def State.requestSave (s : State) : State :=
  if s.on Reg.KEEP_STAT_PH1 ∧ s.firn.dev.isSome then
    { s with firn := { s.firn with saveDue := true, saveReady := s.firn.saveReady || !s.flashBusy } }
  else s

/-- HOTSAVE (R449). -/
def State.keepHotsave (s : State) : State :=
  if s.on Reg.KEEP_STAT_PH1 then
    let s := (s.requestSave).raise Reg.KEEP_CSTAT_BUSY
    { s with firn := { s.firn with saveCmd := true } }
  else s.keepEnd 7

/-- FORMAT (R453): its erases begin, and background work on the log is given up. -/
def State.keepFormat (s : State) : State :=
  if ¬ s.on Reg.KEEP_STAT_READY then s.keepEnd 7
  else if s.writeLocked then s.keepEnd 5
  else
    let s := s.raise Reg.KEEP_CSTAT_BUSY
    { s with firn := { s.firn with job := some (.format 4), task := none } }

/-- A command of KEEP_CMD (R456). -/
def State.keepRun (s : State) (c : FirnHeld) : State :=
  match c.op with
  | 1 => s.keepRead c.arg c.badA c.badB
  | 2 => s.keepCommit c.arg
  | 3 => s.keepUnlock false
  | 4 => s.keepUnlock true
  | 5 => s.keepLock
  | 6 => s.keepSetPassword false
  | 7 => s.keepSetPassword true
  | 8 => s.keepHotsave
  | 9 => s.keepFormat
  | _ => s.keepEnd 11

/-- The background operation in progress is an erase. -/
def State.backgroundErase (s : State) : Bool :=
  s.firn.hotErase.isSome || (s.firn.unread.isEmpty && match s.firn.task with
    | some (.erase _) => true
    | _ => false)

/-- Background work keeps a command waiting (R452): until the next page boundary, or for an erase that the device cannot suspend. -/
def State.mustYield (s : State) : Bool :=
  (s.firn.task.isSome || s.hotWork) && s.firn.job.isNone && s.firn.save.isNone &&
    (!s.backgroundErase || decide ((s.firn.dev.bind (fun d => d.suspend)) = none))

/-- The command uses the flash device. -/
def FirnHeld.usesFlash (c : FirnHeld) : Bool := c.op = 1 || c.op = 2 || c.op = 6 || c.op = 7 || c.op = 9

/-- A write of KEEP_CMD (R439, R452, R455, R456): ignored while a command is in progress, ST 10 without a device; else the command
runs, or waits for background work to yield. -/
def State.writeKeep (s : State) (c : FirnHeld) : State :=
  if s.on Reg.KEEP_CSTAT_BUSY then s.raise Reg.KEEP_STAT_WERR
  else if s.on Reg.KEEP_STAT_DEVERR then s.keepEnd 10
  else if s.mustYield ∧ c.usesFlash then
    let s := s.raise Reg.KEEP_CSTAT_BUSY
    { s with firn := { s.firn with held := some c } }
  else s.keepRun c

def State.writeKeepCmd (s : State) (op arg : Nat) : State := s.writeKeep ⟨op, arg, false, false⟩

/-! ## Flash operations (R440, R447, R453) -/

/-- One operation of a commit. -/
def State.commitPage (s : State) (todo : List FlashWrite) (blank : Bool) : State :=
  match s.writeNext todo blank with
  | (s, []) => ({ s with firn := { s.firn with job := none } }).keepEnd 0
  | (s, l) => { s with firn := { s.firn with job := some (.commit l) } }

/-- One erase of FORMAT. -/
def State.formatBlock (s : State) (n : Nat) : State :=
  let s := (s.eraseBlock n).reindex
  if n + 1 < 4 + 2 * s.halfSize then { s with firn := { s.firn with job := some (.format (n + 1)) } }
  else ({ s with firn := { s.firn with job := none } }).keepEnd 0

/-- One operation of background work on the log (R452): once the COPY records are written, the block is erased. -/
def State.taskPage (s : State) (task : FirnTask) (blank : Bool) : State :=
  match task with
  | .copy todo block => match s.writeNext todo blank with
    | (s, []) => { s with firn := { s.firn with task := block.map .erase } }
    | (s, l) => { s with firn := { s.firn with task := some (.copy l block) } }
  | .erase n => let s := (s.eraseBlock n).reindex; { s with firn := { s.firn with task := none } }

/-- The newest sound HOT record (R451). -/
def newestHot (l : List HotSlot) : Option HotSlot :=
  l.foldl (fun best h =>
    if recSound h.words && decide (recTyp h.words = recHot) then match best with
      | some b => if (recSeq b.words).toNat < (recSeq h.words).toNat then some h else best
      | none => some h
    else best) none

/-- With the last slot of a block used, the hot block that does not hold the newest record is to be erased (R449). -/
def State.hotSupply (s : State) : State :=
  if s.firn.prepared = [] ∧ s.firn.unread = [] then
    let stale := match newestHot s.firn.hot with
      | some h => 1 - h.slot / 25
      | none => 0
    { s with firn := { s.firn with hotErase := some stale } }
  else s

/-- One operation that prepares slots of the hot area (R449): the erase of a block, or the read of a slot of an erased block, which
is prepared when all its pages are blank and is skipped otherwise. -/
def State.hotPrepare (s : State) (blank : Bool) : State :=
  match s.firn.hotErase with
  | some b => { s with firn := { s.firn with
      hot := s.firn.hot.filter (fun h => decide (h.slot / 25 ≠ b)), hotErase := none, unread := List.range' (25 * b) 25 } }
  | none => match s.firn.unread with
    | [] => s
    | n :: rest =>
      if blank then { s with firn := { s.firn with unread := rest, prepared := s.firn.prepared ++ [n] } }
      else (({ s with firn := { s.firn with unread := rest } }).skipPage (256 * (n / 25) + 10 * (n % 25))).hotSupply

/-- A hot save takes the next prepared slot, if there is one. -/
def State.takeSlot (s : State) (w : HotWrite) : State :=
  match s.firn.prepared with
  | [] => { s with firn := { s.firn with save := some w } }
  | n :: rest => { s with firn := { s.firn with save := some { w with slot := some n }, prepared := rest } }

/-- One page of a hot save (R449): the tenth completes the record. A save with no slot yet waits for one to be prepared. -/
def State.hotPage (s : State) (w : HotWrite) (blank : Bool) : State :=
  match w.slot with
  | none => (s.hotPrepare blank).takeSlot w
  | some n =>
    if 1 < w.left then { s with firn := { s.firn with save := some { w with left := w.left - 1 } } }
    else
      let hot := s.firn.hot.filter (fun h => decide (h.slot ≠ n)) ++ [(⟨n, w.words⟩ : HotSlot)]
      let s := ({ s with firn := { s.firn with hot := hot, save := none } }).hotSupply.raise Reg.KEEP_IRQ_HOTDONE
      if w.cmd then s.keepEnd 0 else s

/-- A command that waited for background work runs at the boundary (R452). -/
def State.runHeld (s : State) : State :=
  match s.firn.held with
  | some c => (({ s with firn := { s.firn with held := none } }).put Reg.KEEP_CSTAT_BUSY 0).keepRun c
  | none => s

/-- The flash operation in progress, of a hot save before a command and a command before background work (R449, R452). -/
def State.flashOp (s : State) (blank : Bool) : State :=
  match s.firn.save with
  | some w => s.hotPage w blank
  | none => match s.firn.job with
    | some (.commit todo) => (s.commitPage todo blank).noteFlash
    | some (.format n) => (s.formatBlock n).noteFlash
    | none =>
      (if s.hotWork then s.hotPrepare blank
       else match s.firn.task with
        | some t => (s.taskPage t blank).noteFlash
        | none => s).runHeld

/-- FLASH_OP_COMPLETE (R440). The operation in progress at a save's request reaches its boundary; what would follow it is not
started before the save (R449). -/
def State.flashDone (s : State) (blank : Bool) : State :=
  if s.firn.saveDue ∧ s.firn.save = none then
    if s.firn.saveReady then s
    else
      let s := s.flashOp blank
      { s with firn := { s.firn with saveReady := true } }
  else s.flashOp blank

/-! ## Start-up, supply, hot saves, background work (R449-R454) -/

/-- A write of KEEP_CFG (R440, R454, R456). -/
def State.writeKeepCfg (s : State) (v : Word) : State :=
  if s.on Reg.KEEP_CFG_EN then
    if bit v 0 then s
    else
      let s := (s.put Reg.KEEP_CFG_EN 0).put Reg.KEEP_STAT_READY 0
      ({ s with firn := { s.firn with scan := false } }).noteHotTime
  else
    let s := s.put ⟨Reg.KEEP_CFG_EN.off, 1, 6⟩ (fld v 1 6)
    if bit v 0 then
      let s := s.raise Reg.KEEP_CFG_EN
      ({ s with firn := { s.firn with scan := s.firn.dev.isSome } }).noteHotTime
    else s

/-- SEQ of every sound header: of records, of BLOCK records and of the hot area (R445). -/
def State.soundSeqs (s : State) : List Nat :=
  ((s.firn.blocks.flatMap (fun b => b.header :: b.recs.map (fun r => r.words)) ++ s.firn.hot.map (fun h => h.words)).filter
    headSound).map (fun ws => (recSeq ws).toNat)

/-- STORE_READY (R445, R448, R454). -/
def State.storeReady (s : State) : State :=
  if s.on Reg.KEEP_CFG_EN ∧ s.firn.scan then
    let seqs := s.soundSeqs
    let s := s.setReg Reg.KEEP_SEQ_SEQ.off (BitVec.ofNat 36 (if seqs = [] then 0 else seqs.foldl max 0 + 1))
    let s := ({ s with firn := { s.firn with scan := false } }).reindex
    (s.raise Reg.KEEP_STAT_READY).noteFlash
  else s

/-- PF_WARN (R449, R545): a rising edge requests a save, and is ignored while one runs. -/
def State.pfWarnRise (s : State) : State :=
  let t := { s with firn := { s.firn with pfWarn := true } }
  if s.firn.pfWarn then s else if s.firn.save.isSome then t else t.requestSave
def State.pfWarnFall (s : State) : State := { s with firn := { s.firn with pfWarn := false } }
def State.pfOkSet (s : State) (b : Bool) : State := { s with firn := { s.firn with pfOk := b } }

def State.hotWords (s : State) : List Word := (List.range 512).map (fun i => s.word (firnBase + i))

/-- HOT_SAVE (R449): at the flash operation's boundary the hot words are latched, and the HOT record of 10 pages begins. -/
def State.hotSave (s : State) : State :=
  if s.firn.saveDue ∧ s.firn.save = none then
    let w : HotWrite := ⟨recWords recHot 0 s.nextSeq s.hotWords, none, 10, s.firn.saveCmd⟩
    (({ s with firn := { s.firn with saveDue := false, saveReady := false, saveCmd := false } }).takeSlot w).takeSeq 1
  else s

/-- No command, no hot save and no background work on the log is active (R452). -/
def State.firnIdle (s : State) : Bool :=
  s.on Reg.KEEP_STAT_READY && s.firn.job.isNone && !s.firn.saveDue && s.firn.save.isNone && !s.on Reg.KEEP_CSTAT_BUSY &&
    s.firn.task.isNone

/-- The block of a half that is reclaimed (R452). -/
def State.victim (s : State) (h : Bool) : Option FlashBlock :=
  let head := (s.headBlock h).map (·.number)
  let opened := (s.halfBlocksOf h).filter (fun b => (blockOpened b).isSome && decide (some b.number ≠ head))
  let ers := (s.halfBlocksOf h).map (fun b => b.erases)
  let worn := decide (ers.foldl max 0 > ers.foldl min (2 ^ 36) + 1024)
  let key (b : FlashBlock) : Nat := if worn then b.erases else ((blockOpened b).getD 0).toNat
  opened.foldl (fun best b => match best with
    | none => some b
    | some a => if key b < key a then some b else best) none

/-- The record as a COPY record, with this SEQ. -/
def copyOf (r : List Word) (seq : Word) : List Word := recWords recCopy (recKey r) seq (recBody r)

/-- The record is the live record of its key. -/
def State.isLive (s : State) (r : List Word) : Bool := s.counts r && decide (s.liveSeq (recKey r) = some (recSeq r))

/-- RECLAIM (R452): the copies of the block's live records to the head of the half begin, and after them the block's erase. -/
def State.reclaim (s : State) (h : Bool) : State :=
  if s.firnIdle ∧ s.freeCount h < 4 then
    match s.victim h with
    | none => s
    | some b =>
      let live := (b.recs.map (fun r => r.words)).filter (fun r => s.isLive r)
      let task : FirnTask := if live = [] then .erase b.number
        else .copy (live.map (fun r => flashWrite h (copyOf r (recSeq r)))) (some b.number)
      { s with firn := { s.firn with task := some task } }
  else s

/-- TWIN_REWRITE (R454): a live record with one sound copy is written again as a COPY pair, with a SEQ of its own (R445). -/
def State.twinRewrite (s : State) (key : Nat) : State :=
  if s.firnIdle then
    match s.liveSeq key with
    | none => s
    | some q =>
      let pair (r : List Word) : State :=
        let ws := copyOf r s.nextSeq
        ({ s with firn := { s.firn with task := some (.copy [flashWrite false ws, flashWrite true ws] none) } }).takeSeq 1
      match s.copyIn false key q, s.copyIn true key q with
      | some r, none => pair r
      | none, some r => pair r
      | _, _ => s
  else s

/-- A repair record that cannot be kept (R492). -/
def State.loseRecord (s : State) (w : Word) : State := (s.raise Reg.RPR_STAT_REPFULL).sendInfo srcRepair 0x86 clsU w.toNat

/-- A repair record handed to Firn (R492): lost when the queue or the area is full or the device is refused. -/
def State.handRecord (s : State) (w : Word) : State :=
  if s.rpr.records.length ≥ 16 ∨ s.firn.area2.length ≥ 7168 ∨ s.on Reg.KEEP_STAT_DEVERR then s.loseRecord w
  else { s with rpr := { s.rpr with records := s.rpr.records ++ [w] } }

/-- The entry of a repair record (R491): its word 0, and the CRC of word 0 and a zero word. -/
def repairEntry (w : Word) : RepairEntry := ⟨w, BitVec.ofNat 36 (crc32c [w, 0])⟩

/-- A page of a block of the repair area is skipped: its remaining places, 28 to a page, stay as they are. -/
def skipPlaces (l : List (Option RepairEntry)) : List (Option RepairEntry) := l ++ List.replicate (28 - l.length % 28) none

/-- REPAIR_RECORD_APPEND (R491, R492), between Firn's own commands: the queue's first record goes to block 2, and then to
block 3, each with the blank check and skip of R447. DESIGN CHOICE: a page skipped in one block moves the later entries of
that block alone (log entry 96). -/
def State.appendRecord (s : State) (blank : Bool) : State :=
  match s.rpr.records with
  | [] => s
  | w :: rest =>
    let area := if s.firn.half then s.firn.area3 else s.firn.area2
    let next (l : List Word) (half : Bool) : State :=
      { s with rpr := { s.rpr with records := l }, firn := { s.firn with half := half } }
    if ¬ s.firnIdle then s
    else if area.length ≥ 7168 then (next rest false).loseRecord w
    else if ¬ blank then
      let s := if s.firn.half then { s with firn := { s.firn with area3 := skipPlaces area } }
        else { s with firn := { s.firn with area2 := skipPlaces area } }
      s.skipPage ((if s.firn.half then 768 else 512) + area.length / 28)
    else if s.firn.half then
      let s := next rest false
      { s with firn := { s.firn with area3 := area ++ [some (repairEntry w)] } }
    else
      let s := next (w :: rest) true
      { s with firn := { s.firn with area2 := area ++ [some (repairEntry w)] } }

/-- The gather buffer accepts no write during a commit (R447). -/
def State.firnWritable (s : State) (off : Nat) : Bool :=
  decide (off < 0x200) || (match s.firn.job with
    | some (.commit _) => false
    | _ => true)

end Sys2Proof.Machine
end

