-- ==== Sys2Proof/Machine/Repair.lean ====
section
/-! DEFINITION. Repair.lean: warm reset and cold entry of a cell (09 R252, 22 R551), and the repair controller:
spares, migration, localisation, row repair, clock steps (19 R471-R498). -/

namespace Sys2Proof.Machine

open Sys2Proof

/-! ## Cold entry and warm reset (R252, R482, R551) -/

/-- A handler bank at cold entry: its seeds, empty stacks over C3, everything else 0. `b` is 0 for F, 1 for I, 2 for D. -/
def State.seedBank (s : State) (c b : Nat) : Bank :=
  let seed (k : Nat) : Cap :=
    ⟨s.reg (cellBase c + 0xC0 + 8 * b + 2 * k), s.reg (cellBase c + 0xC1 + 8 * b + 2 * k),
     bit (s.reg (cellBase c + 0xD8)) (4 * b + k)⟩
  { Bank.reset with
    c := #v[seed 0, seed 1, seed 2, seed 3],
    dsp := BitVec.ofNat 32 (seed 3).top, rsp := BitVec.ofNat 32 (seed 3).base }

/-- COLD_ENTRY (R252): INFO 1 after a cold reset, 2 after a warm one. DESIGN CHOICE (R255): CELL_FPC and CELL_FRPC are written 0,
since no bank is left whose PC they could take. -/
def State.coldEntry (s : State) (c info : Nat) : State :=
  let (f, i, d) := (s.seedBank c 0, s.seedBank c 1, s.seedBank c 2)
  let dom (b : Nat) (k : Bank) : Bank := { k with dom := s.handlerDom c b }
  let s := s.retireLoad c
  let s := s.modCell c (fun x => { x with
    banks := [(bankI, dom bankI i), (bankF, dom bankF f), (bankD, dom bankD d)],
    held := [], entF := true, cold := 0, iFrom := 15, dFrom := 15, hLevel := 15, pq := [], dreq := none })
  let s := (List.range 8).foldl (fun s n => s.put (Reg.CELL_ENTRY1_BUSY c n) 0) s
  let s := s.setReg (Reg.CELL_FCAUSE_CODE c).off (setFld (setFld 0 4 4 bankF) 12 8 info)
  let s := [0x41, 0x42, 0x43, 0x44, 0x45].foldl (fun s o => s.setReg (cellBase c + o) 0) s
  s.put (Reg.CELL_STATE_BANK c) bankF

/-- The cell's error pin goes low (R459, R474). -/
def State.dropPin (s : State) (src : Nat) : State := { s with pins := setErase src s.pins }

/-- The spare is idle again, or SYNC where it is to be armed (R476); without a spare its state is none. -/
def State.spareIdle (s : State) (k : Nat) : State :=
  let s := { s with rpr := { s.rpr with snaps := serase k s.rpr.snaps, drains := serase k s.rpr.drains } }
  s.put (Reg.RPR_SP_STATE k)
    (if s.get (Reg.RPR_SP_SLOT k) = 31 then 0 else if s.on (Reg.RPR_SP_ARMEN k) then 2 else 1)

def State.rprIrq (s : State) (bit : Nat) : State := s.put Reg.RPR_IRQ_EV (s.get Reg.RPR_IRQ_EV ||| 2 ^ bit)

def migInfo (m : Migration) (new : Nat) : Nat := m.cell * 2 ^ 13 + m.old * 2 ^ 5 + new

/-- A command ends (R486). -/
def State.cmdEnd (s : State) (st : Nat) : State := (s.put Reg.RPR_CSTAT_BUSY 0).put Reg.RPR_CSTAT_ST st

/-- The migration of a cluster aborts (R482). -/
def State.abortMigration (s : State) (k : Nat) : State :=
  match s.migOf k with
  | none => s
  | some m =>
    let s := (s.endMigration m).spareIdle k
    ((s.raise Reg.RPR_STAT_MIGABORT).rprIrq 1).sendInfo srcRepair 0x82 clsU (migInfo m m.new)

/-- A warm reset takes effect (R252, R265, R392, R403, R482): at once in RUN, otherwise cold entry waits. -/
def State.warmNow (s : State) (c : Nat) : State :=
  let k := clusterOf c
  let s := s.modCell c (fun x => { x with resetDue := false })
  let s := (s.irqComplete c).cancelQueues c
  let s := match s.migOf k with
    | some m => if m.cell = c then s.abortMigration k else s
    | none => s
  let s := s.put ⟨cluBase k + 0x30, s.slotOf c, 1⟩ 0
  let s := if s.failed c then s.put (slotFld k (s.slotOf c)) 0 else s
  let s := s.dropPin (srcCell s c)
  if s.live c then s.coldEntry c 2
  else (s.retireLoad c).modCell c (fun x => { x with cold := 2 })

/-- A warm reset of a logical cell: the slot's CLU_LOCKUP bit is cleared at once (R551), and the store buffer drains before the
rest (R205). -/
def State.warmReset (s : State) (c : Nat) : State :=
  let s := s.put ⟨cluBase (clusterOf c) + 0x30, s.slotOf c, 1⟩ 0
  if (s.cell c).sb = [] then s.warmNow c
  else s.modCell c (fun x => { x with resetDue := true })

/-- The store buffer of a cell is empty: a warm reset that waited for it takes effect. -/
def State.afterDrain (s : State) (c : Nat) : State :=
  if (s.cell c).resetDue ∧ (s.cell c).sb = [] then s.warmNow c else s

/-! ## Snapshots and arming (R476, R477) -/

/-- The words of a cell's CSR window, by offset. -/
def State.windowRegs (s : State) (c : Nat) : List (Nat × Word) :=
  s.ctl.filterMap (fun e => if cellBase c ≤ e.1 ∧ e.1 < cellBase c + 0x400 then some (e.1 - cellBase c, e.2) else none)
def State.windowTags (s : State) (c : Nat) : List Nat :=
  (s.ctlTagA.filter (fun e => s.ctlTagB.contains e)).filterMap (fun e =>
    if cellBase c ≤ e ∧ e < cellBase c + 0x400 then some (e - cellBase c) else none)

/-- SNAPSHOT (R477): at the level-0 FEND of the cell on which the spare is armed or syncing. -/
def State.snapshot (s : State) (c : Nat) : State :=
  let k := clusterOf c
  let st := s.get (Reg.RPR_SP_STATE k)
  if (st = 2 ∨ st = 3) ∧ s.get (Reg.RPR_SP_ARMPOS k) = c % 16 then
    let x := s.cell c
    let snap : Snapshot := ⟨x.banks, x.staging, x.sets, s.windowRegs c, s.windowTags c⟩
    { s with rpr := { s.rpr with drains := sinsert k snap s.rpr.drains } }
  else s

/-- SNAPSHOT_DRAIN_END (R477). -/
def State.snapshotDrained (s : State) (k : Nat) : State :=
  match slookup k s.rpr.drains with
  | some snap =>
    { s with rpr := { s.rpr with snaps := sinsert k snap s.rpr.snaps, drains := serase k s.rpr.drains } }
  | none => s

/-- Copies a cell store with its tags from slot `a` to slot `b` of a cluster (R476, R480): a single-bit error is copied
corrected, an uncorrectable word stays one. -/
def State.copyStore (s : State) (k a b : Nat) : State :=
  let (ka, kb) := (storeKey k a 0, storeKey k b 0)
  let inB (x : Nat) : Bool := decide (kb ≤ x ∧ x < kb + 0x4000)
  let inA (x : Nat) : Bool := decide (ka ≤ x ∧ x < ka + 0x4000)
  let move {α : Type} (l : List (Nat × α)) (kept : Nat × α → Bool) : List (Nat × α) :=
    (l.filter (fun e => inA e.1 && kept e)).foldl (fun acc e => sinsert (e.1 - ka + kb) e.2 acc) (l.filter (fun e => !inB e.1))
  let moveSet (l : List Nat) : List Nat :=
    (l.filter inA).foldl (fun acc e => setInsert (e - ka + kb) acc) (l.filter (fun e => !inB e))
  { s with mem := move s.mem (fun _ => true), ecc := move s.ecc (fun e => e.2), tagA := moveSet s.tagA, tagB := moveSet s.tagB }

/-- SPARE_ARMED (R476): at the first complete snapshot after the copy. -/
def State.spareArmed (s : State) (k : Nat) : State :=
  if s.get (Reg.RPR_SP_STATE k) = 2 ∧ (slookup k s.rpr.snaps).isSome then
    (s.copyStore k (s.slotOf (16 * k + s.get (Reg.RPR_SP_ARMPOS k))) (s.get (Reg.RPR_SP_SLOT k))).put
      (Reg.RPR_SP_STATE k) 3
  else s

/-- A write of RPR_SPk (R476). -/
def State.writeSpare (s : State) (k : Nat) (v : Word) : State :=
  let old := s.reg (Reg.RPR_SP_ARMEN k).off
  let s := (s.put (Reg.RPR_SP_ARMEN k) (fld v 35 1)).put (Reg.RPR_SP_ARMPOS k) (fld v 20 4)
  let st := s.get (Reg.RPR_SP_STATE k)
  if bit v 35 = bit old 35 ∧ fld v 20 4 = fld old 20 4 then s
  else if 1 ≤ st ∧ st ≤ 3 then s.spareIdle k else s

/-! ## Migration (R479-R482) -/

/-- Window offsets that a migration keeps as held in the old slot (R48, R294, R479): cycle counts, pending counts, timers, overrun
counts, the map itself and the debug registers (R532). -/
def keptOffset (o : Nat) : Bool :=
  (decide (0x108 ≤ o) && decide (o < 0x110)) || (decide (0x130 ≤ o) && decide (o < 0x140)) || decide (o = 0x110) ||
    decide (o = 0x70) || (decide (0x1C0 ≤ o) && decide (o < 0x1CC))

/-- Window offsets that belong to the handler banks: the fault record, the interrupt in service and the bank that runs. -/
def handlerOffset (o : Nat) : Bool := (decide (0x40 ≤ o) && decide (o < 0x46)) || decide (o = 0x60) || decide (o = 0x150)

/-- Clears the tags of a cell's entry registers. -/
def State.clearEntryTags (s : State) (c : Nat) : State :=
  let outside (e : Nat) : Bool := !decide (cellBase c ≤ e ∧ e < cellBase c + 0x400)
  { s with ctlTagA := s.ctlTagA.filter outside, ctlTagB := s.ctlTagB.filter outside }

/-- Loads the armed cell's snapshot (R479, R480): TPEND and TMISS stay as held. A cell in its D-bank keeps its state (R532),
which DEDUCED are the I-, F- and D-bank with their records. Otherwise an interrupt that the cell has accepted since the
snapshot completes as if by IRET (DESIGN CHOICE: the snapshot does not know it). -/
def State.loadSnapshot (s : State) (c : Nat) (snap : Snapshot) : State :=
  let dbg : Bool := decide (s.running c = bankD)
  let s := if dbg then s else s.irqComplete c
  let kept (o : Nat) : Bool := keptOffset o || (dbg && handlerOffset o)
  let tm : Word := fldMask 29 1 ||| fldMask 0 16
  let stat := (List.range 8).map (fun n => s.reg (Reg.CELL_LSTAT_STATE c n).off)
  let old := s.windowRegs c
  let s := old.foldl (fun s e => if kept e.1 then s else s.setReg (cellBase c + e.1) (resetWord (cellBase c + e.1))) s
  let s := snap.regs.foldl (fun s e => if kept e.1 then s else s.setReg (cellBase c + e.1) e.2) s
  let s := stat.zipIdx.foldl (fun s (w, n) =>
    let off := (Reg.CELL_LSTAT_STATE c n).off
    s.setReg off ((s.reg off &&& ~~~ tm) ||| (w &&& tm))) s
  let s := snap.tags.foldl (fun s t => s.setEntryTag (cellBase c + t) true) (s.clearEntryTags c)
  let high := (if dbg then (s.cell c).banks else snap.banks).filter (fun e => decide (8 ≤ e.1))
  s.modCell c (fun x => { x with
    banks := snap.banks.filter (fun e => decide (e.1 < 8)) ++ high, staging := snap.staging, sets := snap.sets, loads := [] })

/-- Every DONE level for which a count is pending starts (R283). -/
def State.wakeAll (s : State) (c : Nat) : State := (List.range 8).foldl (fun s n => s.wakeLevel c n) s

/-- MIGRATION (R479): the logical cell moves to the spare slot. The slot that it leaves becomes the spare after a command and
retired after a failure; DESIGN CHOICE (R475, R486): a failed cell that a command moves leaves a retired slot, with its
record. -/
def State.completeMigration (s : State) (m : Migration) : State :=
  let k : Nat := m.cluster
  let c : Nat := m.cell
  let locked := s.locked c
  let cmd : Bool := decide (m.cause = 7)
  let spare : Bool := cmd && !s.failed c
  let s : State := { s with rpr := { s.rpr with migs := s.rpr.migs.erase m } }
  let s := s.put ⟨cluBase k + 0x30, m.old, 1⟩ 0
  let s := s.dropPin (srcCell s c)
  let s := s.put (Reg.CELL_MAP_SLOT c) m.new
  let s := s.put (slotFld k m.new) 0
  let s := if spare then s.put (slotFld k m.old) 1 else s.retireSlot k m.old
  let s : State := match (if m.armed then slookup k s.rpr.snaps else none) with
    | some snap => s.loadSnapshot c snap
    | none => s
  let s := (s.retireLoad c).modCell c (fun x => { x with dcache := [], icache := [], pq := [], bht := [] })
  let s : State := ((List.range 8).foldl (fun s n => s.abandon c n) s).wakeAll c
  let s := if s.running c < 8 then s.put (Reg.CELL_STATE_BANK c) bankIdle else s
  let s := if locked then s.modCell c (fun x => { x with cold := 1 }) else s
  let s := (s.put (Reg.RPR_SP_SLOT k) (if spare then m.old else 31)).spareIdle k
  let s := s.noteSpares
  let s := (s.bump Reg.RPR_MIGCNT_COUNT).rprIrq 0
  let s := s.setReg Reg.RPR_MIGLAST_VALID.off
    (setFld (setFld (setFld (setFld (setFld (setFld 0 35 1 1) 32 3 m.cause) 31 1 (b2n m.armed)) 23 8 c) 18 5 m.old) 13 5 m.new)
  let s := s.sendInfo srcRepair 0x81 clsC (migInfo m m.new)
  let s := if spare then s else s.handRecord (setFld (setFld 0 32 4 3) 18 9 (17 * k + m.old))
  if cmd then s.cmdEnd 0 else s

/-- Starts the migrations of the cells that failed before RUN-READY (R475, R511). DESIGN CHOICE: a field row repair without a
spare row (cause 6) is the one cause that arises before a cell runs. -/
def State.moveAllFailed (s : State) : State :=
  (List.range 256).foldl (fun s c =>
    if s.failed c ∧ s.runState (clusterOf c) ≠ runDefective then s.moveFailed c 6 else s) s

/-- Completes the migrations that are due and whose cell's store buffer has drained (R205); the cells that moved come
back (R18 step 3). -/
def State.migrateDue (s : State) : State × List Nat :=
  let due := s.rpr.migs.filter (fun m => m.due && (s.cell m.cell).sb.isEmpty)
  (due.foldl (fun s m => s.completeMigration m) s, due.map (·.cell))

/-- With RUN = 0 a migration completes as soon as it is due (R480). -/
def State.migrateIdle (s : State) : State := if s.rimeRun then s else s.migrateDue.1

/-- MIGRATION_COPY_END (R480): the copy follows the drain of the cell's store buffer (R205). -/
def State.copyEnd (s : State) (k : Nat) : State :=
  match s.migOf k with
  | some m =>
    if m.due ∨ (s.cell m.cell).sb ≠ [] then s
    else
      let s := s.copyStore k m.old m.new
      let migs := s.rpr.migs.map (fun x => if x = m then { m with due := true } else x)
      ({ s with rpr := { s.rpr with migs := migs } }).migrateIdle
  | none => s

/-! ## DEFECTIVE clusters (R483) -/

/-- DEFECTIVE_MARKING: the cluster's cells stop as under R474, and its logical cells become unavailable. -/
def State.markDefective (s : State) (k : Nat) : State :=
  if s.runState k = runDefective then s
  else
    let s := match s.migOf k with
      | some m => (s.endMigration m).spareIdle k
      | none => s
    let s := (List.range 16).foldl (fun s i =>
      if s.slotState k (s.slotOf (16 * k + i)) = 0 then s.failCell (16 * k + i) else s.retireLoad (16 * k + i)) s
    let s := s.put (Reg.CLU_RUNSTAT_STATE k) runDefective
    let s := (s.raise Reg.RPR_STAT_DEFECT).rprIrq 4
    let unserved := s.ctl.any (fun e => match cfgSource e.1 with
      | some src => s.eligible src && decide (clusterOf (s.irqTarget src) = k)
      | none => false)
    let s := if unserved then s.raise Reg.IRQ_STAT_NOTGT else s
    let s := s.dropPresented k
    let rest := s.rpr.loc.filter (fun l => decide (clusterOf (2 * l.pair) ≠ k))
    let s := { s with rpr := { s.rpr with loc := rest } }
    let s := s.noteSpares
    s.sendInfo (srcCluster k) 0x83 clsF 0

/-- The clusters that become DEFECTIVE at this tick (R475, R482). -/
def State.markDoomed (s : State) : State :=
  let l := s.rpr.doomed
  l.foldl (fun s k => s.markDefective k) { s with rpr := { s.rpr with doomed := [] } }

/-! ## Failures, self-tests, localisation (R474, R478, R484-R486) -/

/-- CELL_CHECK_ERROR: in the cell that a slot holds, or in the spare (R474, R478). A slot whose checks fail before RUN-READY
fails the tests of R503 or R506 and has no failure event (R511). -/
def State.checkError (s : State) (k slot : Nat) : State :=
  if slot > 16 ∨ s.runState k = runDefective ∨ ¬ s.runReady then s
  else match s.cellAt k slot with
    | some c =>
      if s.slotState k slot = 0 then
        let s := s.send { src := 17 * k + slot, kind := 0x80, cls := clsU, av := false, pers := true, info := 0 }
        (s.failureEvent c 1).migrateIdle
      else s
    | none =>
      if s.get (Reg.RPR_SP_SLOT k) = slot ∧ s.get (Reg.RPR_SP_STATE k) ≠ 0 then
        (s.send { src := 17 * k + slot, kind := 0x80, cls := clsU, av := false, pers := true, info := 0 }).retireSpare k
      else s

/-- The admission of every write of RPR_CMD (R486). -/
def State.rprCommand (s : State) (f : State → State) : State :=
  if s.on Reg.RPR_CSTAT_BUSY then s.raise Reg.RPR_STAT_CMDERR else f s

/-- MIGRATE (R486). With AUTO = 0 it is one of the two ways out for a failed cell (R475), so that ST 3 answers only a failed cell
that AUTO moves (DEDUCED); before RUN-READY no migration runs (R511) and the logical cell is unavailable (DEDUCED). -/
def State.cmdMigrate (s : State) (c : Nat) : State :=
  s.rprCommand fun s =>
    if s.runState (clusterOf c) = runDefective ∨ ¬ s.runReady ∨ (s.failed c ∧ s.on Reg.RPR_CTRL_AUTO) then s.cmdEnd 3
    else if s.spareFree (clusterOf c) then ((s.raise Reg.RPR_CSTAT_BUSY).beginMigration c 7).migrateIdle
    else s.cmdEnd 1

/-- TEST (R486): a slot in the spare or the retired state that no migration uses. -/
def State.cmdTest (s : State) (k slot : Nat) : State :=
  s.rprCommand fun s =>
    if slot > 16 then s.cmdEnd 2
    else if (s.slotState k slot ≠ 1 ∧ s.slotState k slot ≠ 2) ∨ (s.migOf k).any (fun m => decide (m.new = slot)) then
      s.cmdEnd 3
    else
      let s := s.raise Reg.RPR_CSTAT_BUSY
      let s := if s.get (Reg.RPR_SP_SLOT k) = slot then s.put (Reg.RPR_SP_STATE k) 5 else s
      { s with rpr := { s.rpr with test := some (k, slot) } }

/-- RESTORE (R486). -/
def State.cmdRestore (s : State) (k slot : Nat) : State :=
  s.rprCommand fun s =>
    if slot > 16 then s.cmdEnd 2
    else if s.get (Reg.RPR_SP_SLOT k) ≠ 31 then s.cmdEnd 1
    else if s.slotState k slot ≠ 2 ∨ ¬ s.rpr.passed.contains (17 * k + slot) then s.cmdEnd 3
    else
      let s := { s with rpr := { s.rpr with passed := setErase (17 * k + slot) s.rpr.passed } }
      let s := ((s.put (slotFld k slot) 1).put (Reg.RPR_SP_SLOT k) slot).spareIdle k
      (s.noteSpares.handRecord (setFld (setFld 0 32 4 4) 18 9 (17 * k + slot))).cmdEnd 0

/-- A write of RPR_CMD (R486, R498). -/
def State.writeRprCmd (s : State) (op arg : Nat) : State :=
  match op with
  | 1 => s.cmdMigrate (arg / 2 ^ 13 % 256)
  | 2 => s.cmdTest (arg / 2 ^ 9 % 16) (arg / 2 ^ 4 % 32)
  | 3 => s.cmdRestore (arg / 2 ^ 9 % 16) (arg / 2 ^ 4 % 32)
  | _ => s.rprCommand (fun s => s.cmdEnd 2)

/-- A self-test of a pair's slot ends: a slot that fails has a failure event (R485). -/
def State.locResult (s : State) (l : Localise) (k slot : Nat) (pass : Bool) : State :=
  let l' := { l with results := sinsert slot pass l.results }
  let s := { s with rpr := { s.rpr with loc := s.rpr.loc.map (fun x => if x = l then l' else x) } }
  if pass then s
  else match s.cellAt k slot with
    | some c => (s.failureEvent c 5).migrateIdle
    | none => s

/-- TEST_END: of a TEST command, or of a pair's self-test. -/
def State.testEnd (s : State) (k slot : Nat) (pass : Bool) : State :=
  if s.rpr.test = some (k, slot) then
    let s := { s with rpr := { s.rpr with test := none } }
    let s := if s.get (Reg.RPR_SP_SLOT k) = slot then s.spareIdle k else s
    if pass then
      ({ s with rpr := { s.rpr with passed := setInsert (17 * k + slot) s.rpr.passed } }).cmdEnd 0
    else (s.sendInfo srcRepair 0x8B clsU (17 * k + slot)).cmdEnd 4
  else
    match s.rpr.loc.find? (fun l => l.begun && decide (clusterOf (2 * l.pair) = k) &&
        (decide (s.slotOf (2 * l.pair) = slot) || decide (s.slotOf (2 * l.pair + 1) = slot))) with
    | some l => s.locResult l k slot pass
    | none => s

/-- The cell's slot sent a message of class U or F in this frame or the one before (R485 step 1). -/
def State.suspect (s : State) (c : Nat) : Bool :=
  s.rpr.sent.contains (s.physOf c) || s.rpr.sentPrev.contains (s.physOf c)

/-- A frame that the pair spends in the self-test: held as under R365, with no fault 8 and no message (R485). -/
def State.missFrame (s : State) (c : Nat) : State := (s.countOverrun c).modCell c (fun x => { x with late := true })

/-- PAIR_LOCALISATION at a tick (R485): one suspect has a failure event; otherwise both slots begin the self-test in
place of level 0. A localisation with both results ends. -/
def State.localise (s : State) (l : Localise) : State :=
  let (a, b) := (2 * l.pair, 2 * l.pair + 1)
  let drop (s : State) : State := { s with rpr := { s.rpr with loc := s.rpr.loc.filter (fun x => decide (x.pair ≠ l.pair)) } }
  if l.begun then
    if l.results.length ≥ 2 then
      let s := drop s
      if l.results.all (fun r => r.2) then (s.sendInfo srcRepair 0x8A clsC l.pair).rprIrq 5 else s
    else (s.missFrame a).missFrame b
  else if s.suspect a != s.suspect b then (drop s).failureEvent (if s.suspect a then a else b) 5
  else
    let s := (List.range 8).foldl (fun s n => (s.abandon a n).abandon b n) s
    let idle (s : State) (c : Nat) : State := if s.running c < 8 then s.put (Reg.CELL_STATE_BANK c) bankIdle else s
    let s := idle (idle s a) b
    let s := { s with rpr := { s.rpr with loc := s.rpr.loc.map (fun x => if x = l then { l with begun := true } else x) } }
    (s.missFrame a).missFrame b

def State.localiseAll (s : State) : State := s.rpr.loc.foldl (fun s l => s.localise l) s

/-- The frame's record of reporting cells moves on (R485). -/
def State.rotateSent (s : State) : State :=
  { s with rpr := { s.rpr with sentPrev := s.rpr.sent, sent := [] } }

/-! ## Row repair (R489) -/

/-- The words of a control store or dispatch table that a row repair mends: those of the row with a single-bit error. -/
def mendRow (cls phys row : Nat) (l : List (Nat × Nat × Bool)) : List (Nat × Nat × Bool) :=
  l.filter (fun e => e.2.2 || decide (e.1 ≠ phys % 17) || decide (Config.macroRow (hiddenKey cls phys e.2.1) % 1024 ≠ row))

/-- The words of a cache that a row repair mends. -/
def mendLines (phys from_ row : Nat) (ls : List CacheLine) : List CacheLine :=
  ls.map (fun l => { l with err := l.err.filter (fun e =>
    e.2 || decide (Config.macroRow (cacheKey phys from_ ls l e.1) % 1024 ≠ row)) })

/-- The corrected words of a repaired row of a macro without an address (R489). -/
def State.mendHidden (s : State) (m row : Nat) : State :=
  let phys := m % 512
  let x := sget MicroStore.empty (phys / 17) s.ldv.stores
  let put (x : MicroStore) : State :=
    { s with ldv := { s.ldv with stores := sput MicroStore.empty (phys / 17) x s.ldv.stores } }
  match m / 512 with
  | 2 => put { x with wordErr := mendRow 2 phys row x.wordErr }
  | 3 => put { x with dispErr := mendRow 3 phys row x.dispErr }
  | 4 => match s.cellAt (phys / 17) (phys % 17) with
    | some c => s.modCell c (fun x => { x with icache := mendLines phys 0 row x.icache, dcache := mendLines phys 2048 row x.dcache })
    | none => s
  | 11 => { s with ldv := { s.ldv with bufErr := s.ldv.bufErr.filter (fun e =>
      e.2 || decide (Config.macroRow (hiddenKey 11 0 e.1) % 1024 ≠ row)) } }
  | _ => s

/-- FIELD_ROW_REPAIR: with FREP = 1 the oldest candidate row goes to a spare row; its corrected words are sound again. -/
def State.rowRepair (s : State) : State :=
  match (if s.on Reg.RPR_CTRL_FREP then s.rpr.cands else []) with
  | [] => s
  | key :: rest =>
    let s := { s with rpr := { s.rpr with cands := rest } }
    let m := macroOf key
    if s.rowsUsed m ≥ 8 then
      ((s.raise Reg.RPR_STAT_REPEXH).sendRow 0x85 clsU key key).noRow m |>.migrateIdle
    else
      let s := { s with rpr := { s.rpr with rows := sinsert m (s.rowsUsed m + 1) s.rpr.rows } }
      let keep := s.ecc.filter (fun e => e.2 || decide (macroOf e.1 ≠ m) ||
        decide (Config.macroRow e.1 % 1024 ≠ Config.macroRow key % 1024))
      let s := ({ s with ecc := keep }).mendHidden m (Config.macroRow key % 1024)
      let s := ((s.bump Reg.RPR_REPCNT_COUNT).rprIrq 2).sendRow 0x84 clsC key key
      s.handRecord (setFld (setFld (setFld 0 32 4 1) 18 14 m) 8 10 (Config.macroRow key))

/-! ## Clock steps, monitors, calibration (R493-R496) -/

def signed9 (v : Nat) : Int := sextNat v 9

/-- A measurement of MARGIN and TEMP (R494, R498). -/
def State.measure (s : State) (k margin temp : Nat) : State :=
  let s := (s.put (Reg.RPR_SENS_MARGIN k) margin).put (Reg.RPR_SENS_TEMP k) temp
  if signed9 (s.get (Reg.RPR_SENS_TMAX k)) < signed9 temp then s.put (Reg.RPR_SENS_TMAX k) temp else s

/-- RPR_STAT.FLOORW and TCRIT and the cluster's pin follow the conditions. -/
def State.noteLimits (s : State) (k : Nat) : State :=
  let s := (s.putB Reg.RPR_STAT_FLOORW (!s.rpr.slow.isEmpty)).putB Reg.RPR_STAT_TCRIT (!s.rpr.hot.isEmpty)
  if s.rpr.slow.contains k ∨ s.rpr.hot.contains k then s else s.dropPin (srcCluster k)

/-- The temperature reaches TCRIT. -/
def State.checkCritical (s : State) (k temp : Nat) : State :=
  if signed9 temp ≥ signed9 (s.get Reg.RPR_TLIM_TCRIT) ∧ ¬ s.rpr.hot.contains k then
    let s := { s with rpr := { s.rpr with hot := setInsert k s.rpr.hot } }
    (s.noteLimits k).send { src := srcCluster k, kind := 0x89, cls := clsU, av := false, pers := true, info := temp }
  else s

/-- A measurement ends the conditions that it no longer meets (R494): the lowering due at FLOOR at MARGIN >= WLIM, the critical
temperature below TCRIT - 5; it may reach TCRIT. -/
def State.limits (s : State) (k margin temp : Nat) : State :=
  let s := if margin ≥ s.get Reg.RPR_TLIM_WLIM then { s with rpr := { s.rpr with slow := setErase k s.rpr.slow } } else s
  let s := if signed9 temp < signed9 (s.get Reg.RPR_TLIM_TCRIT) - 5 then
      { s with rpr := { s.rpr with hot := setErase k s.rpr.hot } } else s
  (s.noteLimits k).checkCritical k temp

/-- CLOCK_STEP_LOWERING (R494): a lowering is due at this measurement. -/
def State.lowerStep (s : State) (k margin temp : Nat) : State :=
  let s := (s.measure k margin temp).limits k margin temp
  let byTemp := decide (signed9 temp ≥ signed9 (s.get Reg.RPR_TLIM_TWARN))
  if byTemp ∨ margin < s.get Reg.RPR_TLIM_WLIM then
    let cur := s.get (Reg.RPR_CLK_CUR k)
    if cur < s.get (Reg.RPR_CLK_FLOOR k) then
      let s := (s.put (Reg.RPR_CLK_CUR k) (cur + 1)).bump (Reg.RPR_CLK_DCNT k)
      (s.rprIrq 3).sendInfo (srcCluster k) 0x87 clsC (8 * b2n byTemp + cur + 1)
    else if s.rpr.slow.contains k then s
    else
      let s := { s with rpr := { s.rpr with slow := setInsert k s.rpr.slow } }
      (s.noteLimits k).send { src := srcCluster k, kind := 0x88, cls := clsU, av := false, pers := true,
                              info := 8 * b2n byTemp + cur }
  else s

/-- MONITOR_RECOVERY (R494): a measurement that may end the conditions. -/
def State.monitorRecovery (s : State) (k margin temp : Nat) : State := (s.measure k margin temp).limits k margin temp

/-- CALIBRATION (R496): one that has not completed by the next one due is starved. -/
def State.calibrate (s : State) (k : Nat) (completed : Bool) : State :=
  if s.on Reg.RPR_CTRL_CALEN ∧ ¬ completed then
    (s.bump Reg.RPR_CALSTARVE_COUNT).sendInfo (srcCluster k) 0x8C clsC 0
  else s

/-- A write of RPR_CLKk (R493). -/
def State.writeClk (s : State) (k : Nat) (v : Word) : State :=
  let fl := if s.runState k = runStopped then fld v 6 3 else s.get (Reg.RPR_CLK_FLOOR k)
  let st := fld v 9 3
  if st > fl then s.raise Reg.RPR_STAT_CMDERR
  else (s.put (Reg.RPR_CLK_FLOOR k) fl).put (Reg.RPR_CLK_START k) st

end Sys2Proof.Machine
end

