-- ==== Sys2Proof/Machine/Run.lean ====
section
/-! DEFINITION. Run.lean: run control and power control of a cluster, and retained lines
(13 R363-R368, R372, R374, 22 R547-R551). -/

namespace Sys2Proof.Machine

open Sys2Proof

/-- A cell's timers count (R282): not in Retain or Off, and not while the cluster is STOPPED. -/
def State.timersRun (s : State) (c : Nat) : Bool :=
  decide (s.power (clusterOf c) ≤ 1) && decide (s.runState (clusterOf c) ≠ runStopped)

/-- A cell's timer as read (R282): while it runs, the count lies anywhere from 1 to the value last known. -/
def State.readTimer (s : State) (c n : Nat) : State :=
  let v := s.get (Reg.CELL_TIM_COUNT c n)
  if s.timersRun c ∧ s.on (Reg.CELL_TIM_EN c n) ∧ v > 1 then
    (s.put (Reg.CELL_TIM_COUNT c n) (1 + Config.timerCount s.fresh % v)).tickFresh
  else s

/-- Every timer of a cluster stands at the value that its counter has reached (R282): free, as for a read. -/
def State.readTimers (s : State) (k : Nat) : State :=
  s.eachCell k (fun s c => (List.range 8).foldl (fun s n => s.readTimer c n) s)

/-! ## Run control (R363-R366, R368) -/

/-- The cluster spends a part of this frame outside RUN (R365). -/
def State.noteOut (s : State) (k : Nat) : State :=
  { s with frm := { s.frm with outRun := setInsert k s.frm.outRun } }

/-- STOP in RUN or STARTING (R364, R482): the cells stop issuing and their abandoned instructions have no effect; a REPN or an
item in progress completes first (R200). -/
def State.stopCluster (s : State) (k : Nat) : State :=
  if s.runState k = runRun ∨ s.runState k = runStarting then
    let s := (s.put (Reg.CLU_RUNSTAT_STATE k) runStopping).noteOut k
    let s := s.abortMigration k
    s.eachCell k (fun s c => if (s.cell c).hold then s else s.retireLoad c)
  else s

/-- Every cell of the cluster has stopped: nothing in progress holds it, its issued loads have ended and its store buffer is
empty (R364). -/
def State.drained (s : State) (k : Nat) : Bool :=
  (clusterCells k).all (fun c => (s.cell c).sb.isEmpty && (s.cell c).loads.isEmpty && !(s.cell c).hold && !(s.cell c).win)

/-- STOPPED_REACHED (R364): the timers stand still from here on (R282). -/
def State.stoppedReached (s : State) (k : Nat) : State :=
  if s.runState k = runStopping ∧ s.drained k then (s.readTimers k).put (Reg.CLU_RUNSTAT_STATE k) runStopped else s

/-- Empties the LINKs of a cell and clears its BUSY bits (R366). -/
def State.dropLinks (s : State) (c : Nat) : State :=
  let s := (List.range 8).foldl (fun s n => s.put (Reg.CELL_ENTRY1_BUSY c n) 0) s
  (List.range 11).foldl (fun s b => s.modBank c b (fun k => { k with link := Link.empty })) s

/-- What a cell does in STARTING (R293, R366): a handler in progress is discarded, except that an unfinished cold entry
becomes pending again; every enabled level returns to LOADING. -/
def State.startCell (s : State) (c : Nat) : State :=
  let again := decide (s.running c = bankF) && decide (s.get (Reg.CELL_FCAUSE_CODE c) = 0)
  let s := if again then s.modCell c (fun x => { x with cold := s.get (Reg.CELL_FCAUSE_INFO c) }) else s
  let s := ((s.retireLoad c).irqComplete c).dropLinks c
  let s := s.modCell c (fun x => { x with staging := none, entF := false, dreq := none, fended := 0, win := false })
  let s := s.put (Reg.CELL_STATE_BANK c) bankIdle
  (List.range 8).foldl (fun s n =>
    let s := (s.consume c n).put (Reg.CELL_LSTAT_TPEND c n) 0
    if s.lvEn c n then
      ((s.setReg (cellBase c + 0x158 + n) 0).put (Reg.CELL_LSTAT_STATE c n) lvLoading).put (Reg.CELL_LSTAT_CUR c n) 0
    else s) s

/-- START in STOPPED (R366, R493, R500, R508). -/
def State.startCluster (s : State) (k : Nat) : State :=
  if s.runState k = runStopped then
    if bit (s.reg Reg.LDV_VALID_V.off) k ∧ s.mode k ≠ 3 ∧ s.get Reg.THAW_STATUS_PHASE = 6 ∧ ¬ s.on Reg.THAW_STATUS_HOLD then
      let s := s.put (Reg.CLU_RUNSTAT_STATE k) runStarting
      let s := (s.put (Reg.RPR_CLK_CUR k) (s.get (Reg.RPR_CLK_START k))).put (Reg.RPR_CLK_DCNT k) 0
      s.eachCell k State.startCell
    else s.raise (Reg.CLU_RUNSTAT_SERR k)
  else s

/-- A change of MODE (R194, R302, R366): branch history and caches start afresh. -/
def State.setMode (s : State) (k mode : Nat) : State :=
  if mode = s.mode k then s
  else if s.runState k = runStopped then
    (s.put (Reg.CLU_RUNCTL_MODE k) mode).eachCell k (fun s c => s.modCell c (fun x => { x with bht := [], dcache := [], icache := [], pq := [] }))
  else s.raise (Reg.CLU_RUNSTAT_WERR k)

/-- A write of CLU_RUNCTL (R366, R368). -/
def State.writeRunCtl (s : State) (k : Nat) (v : Word) : State :=
  let s := s.setMode k (fld v 2 2)
  if bit v 0 then s.stopCluster k else if bit v 1 then s.startCluster k else s

/-! ## Power (R25, R26, R533, R547-R551) -/

/-- A request of Retain or Off is emulated (R533). -/
def State.emulates (s : State) (k : Nat) : Bool :=
  s.on Reg.DBG_STAT_ATT && (!s.thawOver || s.on Reg.THAW_STATUS_HOLD ||
    (match s.rpr.test with
     | some t => decide (t.1 = k)
     | none => false))

/-- A key of a cluster's memories: cell stores of the 17 slots, or its cluster memory. -/
def inCluster (k key : Nat) : Bool :=
  (decide (storeKey k 0 0 ≤ key) && decide (key < storeKey k 17 0)) ||
  (decide (0x2000000 + k * 0x40000 ≤ key) && decide (key < 0x2000000 + (k + 1) * 0x40000))

/-- A word of a cell's CSR window in the power domain of its cluster: not CELL_MAP, which the block domain holds, nor
the debug registers (R535, R547). -/
def inCellDomain (k off : Nat) : Bool :=
  decide (cellBase (16 * k) ≤ off) && decide (off < cellBase (16 * k + 16)) &&
    (let o := (off - 0xC0000) % 0x400
     decide (o ≠ 0x70) && !(decide (0x1C0 ≤ o) && decide (o < 0x1D0)))

/-- A cluster that is reset or loses its power during BROADCAST (R240): LDV_VALID is cleared, and the load no longer reaches
it. -/
def State.ldvLost (s : State) (k : Nat) : State :=
  if s.get Reg.LDV_STAT_STATE = 3 ∧ s.ldv.target.testBit k then
    { s with ldv := { s.ldv with target := s.ldv.target - 2 ^ k } }.put ⟨Reg.LDV_VALID_V.off, k, 1⟩ 0
  else s

/-- A source whose error pin and waiting messages lie in a cluster's power domain: its slots, and the cluster (R458, R536). -/
def inClusterSource (k src : Nat) : Bool := (decide (17 * k ≤ src) && decide (src < 17 * k + 17)) || decide (src = srcCluster k)

/-- The spare of a cluster mirrors a cell, or is about to (R476). -/
def State.mirrors (s : State) (k : Nat) : Bool :=
  decide (s.get (Reg.RPR_SP_STATE k) = 2) || decide (s.get (Reg.RPR_SP_STATE k) = 3)

/-- The error pins of a cluster that loses its power are clamped, and its fault collector's messages are gone (R536). -/
def State.dropReports (s : State) (k : Nat) : State :=
  { s with pins := s.pins.filter (fun src => !inClusterSource k src),
           msgs := s.msgs.filter (fun m => !inClusterSource k m.src || decide (m.kind.toNat = 0x83)) }

/-- The contents of a cluster are lost (R25, R240, R536, R547, R551): memories read zero with tag 0, its cells and their CSRs
take their reset values, its control stores are cleared, its error pins are clamped low and its fault collector's messages are
gone, but for the repair controller's 0x83, which the block domain sends for it. CLU_FSTAT stays, as a block register. DEDUCED
(22 R539): LOCKUP[k], the OR of CLU_LOCKUP, is 0 in Off, so the bits of CLU_LOCKUP end with the lockups of the cells. -/
def State.wipeCluster (s : State) (k : Nat) : State :=
  let s := { s with
    mem := s.mem.filter (fun e => !inCluster k e.1), ecc := s.ecc.filter (fun e => !inCluster k e.1),
    tagA := s.tagA.filter (fun e => !inCluster k e), tagB := s.tagB.filter (fun e => !inCluster k e),
    ctl := s.ctl.filter (fun e => !inCellDomain k e.1), ctlTagA := s.ctlTagA.filter (fun e => !inCellDomain k e),
    ctlTagB := s.ctlTagB.filter (fun e => !inCellDomain k e),
    cells := s.cells.filter (fun e => decide (clusterOf e.1 ≠ k)) }
  let s := s.dropPresented k
  let s := s.ldvLost k
  let s := { s with ldv := { s.ldv with stores := serase k s.ldv.stores } }
  let s := s.put ⟨Reg.LDV_VALID_V.off, k, 1⟩ 0
  let s := s.setReg (cluBase k + 0x30) 0
  (if s.mirrors k then s.spareIdle k else s).dropReports k

/-- A cluster that leaves Run or Doze stops its cycle counter (R559). -/
def State.freezeCycles (s : State) (k : Nat) : State := if s.power k ≤ 1 then s.takeCycles k else s

/-- Entry to Off: interrupts in service complete (R392), a migration aborts (R482), and the contents are lost unless the
state is emulated. -/
def State.enterOff (s : State) (k : Nat) : State :=
  let s := { s with pwr := { s.pwr with offDue := setErase k s.pwr.offDue, retainDue := setErase k s.pwr.retainDue } }
  let s := (s.freezeCycles k).put (Reg.CLU_PWRSTAT_STATE k) pwOff
  let s := s.eachCell k (fun s c => (s.irqComplete c).cancelQueues c)
  let s := s.abortMigration k
  if s.emulates k then s.raise (emulFld k) else s.wipeCluster k

/-- A request of Off (R547): only in STOPPED or DEFECTIVE, once the store buffers have drained (R25); it takes
the place of a Retain request that still drains and of a wake that has not powered the cluster up. -/
def State.requestOff (s : State) (k : Nat) : State :=
  if s.runState k = runStopped ∨ s.runState k = runDefective then
    let s := s.put (Reg.CLU_PWRCTL_REQ k) 2
    let s := { s with pwr := { s.pwr with upDue := setErase k s.pwr.upDue, retainDue := setErase k s.pwr.retainDue } }
    if s.power k = pwOff then s
    else if s.drained k then s.enterOff k
    else { s with pwr := { s.pwr with offDue := setInsert k s.pwr.offDue } }
  else s.raise (Reg.CLU_PWRSTAT_PERR k)

/-- A request of Retain (R547): the cluster drains first; it takes the place of an Off request that still drains. -/
def State.requestRetain (s : State) (k : Nat) : State :=
  let s := s.put (Reg.CLU_PWRCTL_REQ k) 1
  let s := { s with pwr := { s.pwr with offDue := setErase k s.pwr.offDue } }
  if s.power k ≤ 1 then { s with pwr := { s.pwr with retainDue := setInsert k s.pwr.retainDue } } else s

/-- RETAIN_ENTRY (R547, R548, R550): after the drain, and after a migration's copy; the timers stand still (R282). DESIGN CHOICE
(R25): what its list of kept contents does not name, the caches, the branch history and the control stores, keeps its contents
too. -/
def State.retainEntry (s : State) (k : Nat) : State :=
  if s.pwr.retainDue.contains k ∧ s.drained k ∧ ¬ (s.migOf k).any (fun m => !m.due) then
    let s := { s with pwr := { s.pwr with retainDue := setErase k s.pwr.retainDue } }
    let s := (((s.takeCycles k).readTimers k).put (Reg.CLU_PWRSTAT_STATE k) pwRetain).setReg (Reg.CLU_RTICK_COUNT k).off 0
    let s := if s.emulates k then s.raise (emulFld k) else s
    if s.wakes k then s.leaveRetain k else s
  else s

/-- WAKE (R26, R547): from Retain the cells resume at the next tick; from Off the cluster powers up. -/
def State.wakeCluster (s : State) (k : Nat) : State :=
  let s := s.put (Reg.CLU_PWRCTL_REQ k) 0
  let s := { s with pwr := { s.pwr with retainDue := setErase k s.pwr.retainDue, offDue := setErase k s.pwr.offDue } }
  if s.power k = pwRetain then s.leaveRetain k
  else if s.power k = pwOff then { s with pwr := { s.pwr with upDue := setInsert k s.pwr.upDue } }
  else s

/-- CLUSTER_POWER_UP (R547): a cluster that leaves Off is STOPPED with cleared memories. -/
def State.powerUp (s : State) (k : Nat) : State :=
  if s.pwr.upDue.contains k then
    let s := { s with pwr := { s.pwr with upDue := setErase k s.pwr.upDue } }
    let s := (s.wipeCluster k).put (emulFld k) 0
    let s := (s.put (Reg.CLU_PWRSTAT_STATE k) pwRun).pump (k / 4)
    let s := s.eachCell k State.present
    if s.runState k = runDefective then s else s.put (Reg.CLU_RUNSTAT_STATE k) runStopped
  else s

/-- DOZE_ENTRY (R547): after 64 cycles in which every cell is idle or locked up, with its store buffer drained (R25). -/
def State.dozeEntry (s : State) (k : Nat) : State :=
  if s.power k = pwRun ∧ s.on (Reg.CLU_PWRCTL_DOZEEN k) ∧ s.drained k ∧
      (clusterCells k).all (fun c => decide (s.running c = bankIdle) || s.dead c) then
    s.put (Reg.CLU_PWRSTAT_STATE k) pwDoze
  else s

/-- A warm reset of every logical cell of a cluster, which ends a load's broadcast into it (R240). -/
def State.warmCluster (s : State) (k : Nat) : State := (s.ldvLost k).eachCell k State.warmReset

/-- A write of CLU_PWRCTL (R547, R549). -/
def State.writePwrCtl (s : State) (k : Nat) (v : Word) : State :=
  let s := s.putB (Reg.CLU_PWRCTL_DOZEEN k) (bit v 2)
  let s := if bit v 3 then s.warmCluster k else s
  match fld v 0 2 with
  | 1 => s.requestRetain k
  | 2 => s.requestOff k
  | r => (s.wakeCluster k).put (Reg.CLU_PWRCTL_REQ k) r

/-- A detach ends every emulation (R533): the clusters enter their states for real. -/
def State.endEmulation (s : State) : State :=
  (List.range 16).foldl (fun s k =>
    if s.on (emulFld k) then
      let s := s.put (emulFld k) 0
      if s.power k = pwOff then s.wipeCluster k else s
    else s) s

/-- What follows when an entry leaves the store buffer of a cell: a warm reset or an Off entry that waited (R205). -/
def State.afterStore (s : State) (c : Nat) : State :=
  let s := s.afterDrain c
  let k := clusterOf c
  if s.pwr.offDue.contains k ∧ s.drained k then s.enterOff k else s

/-! ## Retained lines (R372, R374) -/

/-- The line of a word of a cell store's logical window or of a cluster memory. -/
def lineOf (pa : Nat) : Option Nat :=
  if (0x100000 ≤ pa ∧ pa < 0x1100000) ∨ (0x2000000 ≤ pa ∧ pa < 0x2400000) then some (pa / 16) else none

/-- A write of a cell through a region with RET = 1 (R372): it sets its line's dirty bit, or is counted when its area is not
tracked. -/
def State.noteLine (s : State) (pa : Nat) : State :=
  match lineOf pa with
  | some l => { s with stby := { s.stby with dirty := setInsert l s.stby.dirty } }
  | none => s.bump Reg.STBY_UNTRK_COUNT

/-- A region entry has RET = 1. -/
def State.retained (s : State) (via : Option Nat) : Bool :=
  match via with
  | none => false
  | some r => match slookup r s.installed with
    | some e => e.ret
    | none => false

/-- An edit-window write through a region entry (R372). -/
def State.noteRetained (s : State) (via : Option Nat) (pa : Nat) : State := if s.retained via then s.noteLine pa else s

/-- STBY_SYNC (R374): in ACTIVE, every line that an installed region with RET = 1 covers becomes dirty. -/
def State.syncLines (s : State) : State :=
  if s.get Reg.STBY_STAT_STATE = 1 then
    s.installed.foldl (fun s e =>
      if e.2.ret ∧ e.2.size ≠ 0 ∧ (lineOf e.2.pbase).isSome then
        let lo := e.2.pbase / 16
        let hi := (e.2.pbase + e.2.size * 64 - 1) / 16
        { s with stby := { s.stby with dirty := (List.range' lo (hi + 1 - lo)).foldl (fun l x => setInsert x l) s.stby.dirty } }
      else s) s
  else s

end Sys2Proof.Machine
end

