-- ==== Sys2Proof/Machine/Ldv.lean ====
section
/-! DEFINITION. Ldv.lean: microcode images and the load verifier (08 R213, R218-R242, 22 R541). -/

namespace Sys2Proof.Machine

open Sys2Proof

def ldIdle : Nat := 0
def ldReceive : Nat := 1
def ldVerify : Nat := 2
def ldBroadcast : Nat := 3
def ldDone : Nat := 4
def ldReject : Nat := 5

def State.ldvState (s : State) : Nat := s.get Reg.LDV_STAT_STATE

/-! ## Legal opcodes (R92, R213, and the tables of 04 to 06) -/

/-- Ranges of legal dispatch indices, page x 384 + syllable. -/
def legalRanges : List (Nat × Nat) :=
  [(0, 0o141), (0o200, 0o274), (0o300, 0o357), (0o400, 0o414), (0o420, 0o427), (0o500, 0o562),
   (384, 384 + 0o5), (384 + 0o10, 384 + 0o10), (384 + 0o20, 384 + 0o24), (384 + 0o30, 384 + 0o34),
   (384 + 0o40, 384 + 0o42), (384 + 0o100, 384 + 0o237),
   (768, 768 + 0o17), (1152, 1152 + 0o117), (1536, 1536 + 0o13), (1536 + 0o20, 1536 + 0o33)]

def legalIndex (i : Nat) : Bool := legalRanges.any (fun r => decide (r.1 ≤ i ∧ i ≤ r.2))

def legalCount : Nat := legalRanges.foldl (fun a r => a + (r.2 + 1 - r.1)) 0

/-! ## Microwords (R218-R229) -/

def mfld (m : BitVec 144) (lo len : Nat) : Nat := (m.toNat >>> lo) % 2 ^ len

/-- A microword uses only defined codes (R219). -/
def microOk (m : BitVec 144) : Bool :=
  let seq := mfld m 138 3
  let cond := mfld m 122 6
  let dst := mfld m 104 4
  let mac := mfld m 70 6
  let trap := mfld m 56 6
  let regSel := decide (mfld m 112 4 = 0o17) || decide (mfld m 108 4 = 0o17) || decide (dst = 0o14)
  !(decide (0o34 ≤ cond) && decide (cond ≤ 0o37)) && decide (mfld m 116 6 ≤ 0o45) && decide (dst ≠ 0o17) &&
  decide (mfld m 92 5 ≤ 0o14) && decide (mfld m 82 6 ≤ 0o20) &&
  (decide (mac / 8 % 4 ≠ 0) || decide (mac = 0)) && decide (mfld m 66 3 ≤ 3) && decide (mfld m 62 1 = 0) &&
  decide (trap % 16 ≤ 11) && (decide (trap % 16 ≠ 0) || (decide (trap = 0) && decide (seq ≠ 6))) && decide (mfld m 52 4 ≤ 0o12) &&
  decide (mfld m 48 4 ≤ 6) && decide (mfld m 44 4 ≤ 0o10) && decide (mfld m 36 8 = 0) &&
  (!regSel || decide (mfld m 0 4 ≤ 11))

/-! ## The body (R235, R236) -/

/-- A microword from its four words. -/
def microOf (a b c d : Word) : BitVec 144 := d ++ c ++ b ++ a

def microSection (start : Nat) : List Word → List (Nat × BitVec 144)
  | a :: b :: c :: d :: l => (start, microOf a b c d) :: microSection (start + 1) l
  | _ => []

/-- The sections of a body: microwords and dispatch entries; none when it does not follow R235. -/
def parseBody : Nat → List Word → Option (List (Nat × BitVec 144) × List (Nat × Nat))
  | 0, _ => none
  | _, [] => none
  | n + 1, w :: rest =>
    let start := fld w 11 11
    let count := fld w 0 11
    if fld w 22 10 ≠ 0 then none
    else match fld w 32 4 with
      | 0 => if start = 0 ∧ count = 0 ∧ rest.all (fun x => decide (x = 0)) then some ([], []) else none
      | 1 =>
        if start + count ≤ 1024 ∧ 4 * count ≤ rest.length then
          (parseBody n (rest.drop (4 * count))).map (fun r => (microSection start (rest.take (4 * count)) ++ r.1, r.2))
        else none
      | 2 =>
        if start + count ≤ 1920 ∧ count ≤ rest.length ∧ (rest.take count).all (fun x => decide (fld x 10 26 = 0)) then
          (parseBody n (rest.drop count)).map (fun r =>
            (r.1, ((rest.take count).zipIdx.map (fun e => (start + e.2, e.1.toNat))) ++ r.2))
        else none
      | _ => none

def nodupKeys {α : Type} (l : List (Nat × α)) : Bool :=
  (l.foldl (fun acc e => setInsert e.1 acc) []).length == l.length

/-- Check 6 of R238 on the sections of an image. -/
def sectionsOk (base : Bool) (ms : List (Nat × BitVec 144)) (ds : List (Nat × Nat)) : Bool :=
  nodupKeys ms && nodupKeys ds && ms.all (fun e => microOk e.2) && ds.all (fun e => legalIndex e.1) &&
  (!base || (ms.length == 1024 && ds.length == legalCount))

/-- The words of a byte stream (R233). -/
def wordsOfBytes : Nat → List Nat → List Word
  | 0, _ => []
  | n + 1, bs =>
    if bs.isEmpty then []
    else
      let v := (bs.take 9).foldl (fun a b => a * 256 + b % 256) 0
      BitVec.ofNat 36 v :: BitVec.ofNat 36 (v / 2 ^ 36) :: wordsOfBytes n (bs.drop 9)

/-! ## The image in the receive buffer (R233, R234) -/

def State.ldvWord (s : State) (i : Nat) : Word := s.ldv.buf.getD i 0
/-- Words `i` to `i + n - 1` as 32-bit words, and as a byte stream. -/
def State.ldv32 (s : State) (i n : Nat) : List (BitVec 32) := ((s.ldv.buf.drop i).take n).map (fun w => w.setWidth 32)
def State.ldvBytes (s : State) (i n : Nat) : List Nat := byteStream ((s.ldv.buf.drop i).take n)
def State.ldvLen (s : State) : Nat := (s.ldvWord 4).toNat
def State.ldvBase (s : State) : Bool := decide (fld (s.ldvWord 1) 0 18 = 0)
def State.ldvSeq (s : State) : Nat := fld (s.ldvWord 3) 18 18
def State.ldvPatch (s : State) : Nat := fld (s.ldvWord 3) 0 18
def State.ldvTargets (s : State) : List Nat := (List.range 16).filter (fun k => s.ldv.target.testBit k)

/-- The body decrypted (check 5). -/
def State.ldvBody (s : State) : Option (List Word) :=
  match s.ldv.aes with
  | none => none
  | some key =>
    (Config.gcmOpen key (s.ldv32 5 3) (s.ldvBytes 0 40) (s.ldvBytes 40 s.ldvLen) (s.ldv32 (40 + s.ldvLen) 4)).map
      (fun bs => wordsOfBytes bs.length bs)

def State.ldvSections (s : State) : Option (List (Nat × BitVec 144) × List (Nat × Nat)) :=
  match s.ldvBody with
  | some ws => match parseBody (ws.length + 1) ws with
    | some r => if sectionsOk s.ldvBase r.1 r.2 then some r else none
    | none => none
  | none => none

def State.headerOk (s : State) : Bool :=
  decide (s.ldvWord 0 = 0x05AC00256) && decide (fld (s.ldvWord 1) 18 18 = 1) && decide (fld (s.ldvWord 1) 0 18 ≤ 1) &&
  ((List.range' 8 8).all (fun i => decide (s.ldvWord i = 0))) && decide (s.ldvWord 2 = s.reg Reg.BLK_REV_PART.off)

def State.sequenceOk (s : State) : Bool :=
  if s.ldvBase then decide (s.get Reg.LDV_MINSEQ_MIN ≤ s.ldvSeq)
  else s.ldvTargets.all (fun k => bit (s.reg Reg.LDV_VALID_V.off) k && decide (s.ldvSeq = s.get (Reg.LDV_CLSEQ_BASE k)) &&
    decide (s.get (Reg.LDV_CLSEQ_PATCH k) < s.ldvPatch))

/-- The code of the first check of R238 that fails. -/
def State.verifyCode (s : State) : Option Nat :=
  if ¬ s.headerOk then some 1
  else match s.ldv.aes, s.ldv.hash with
    | some _, some h =>
      if Config.sha384 (s.ldvBytes 16 24) ≠ h then some 3
      else if ¬ Config.ecdsaVerify (s.ldv32 16 24) (Config.sha384 (s.ldvBytes 0 (44 + s.ldvLen))) (s.ldv32 (44 + s.ldvLen) 24)
      then some 4
      else if s.ldvBody = none then some 5
      else if s.ldvSections = none then some 6
      else if ¬ s.sequenceOk then some 7
      else if s.ldv.target = 0 ∨ ¬ s.ldvTargets.all (fun k => decide (s.runState k = runStopped)) then some 8
      else none
    | _, _ => some 2

/-! ## States (R237, R239, R240) -/

/-- Rejection: control stores unchanged. -/
def State.ldvRejected (s : State) (code : Nat) : State := (s.put Reg.LDV_STAT_STATE ldReject).put Reg.LDV_STAT_CODE code

/-- START (R237): begins a load in IDLE, DONE or REJECT. -/
def State.ldvBegin (s : State) : State :=
  let st := s.ldvState
  if st = ldIdle ∨ st = ldDone ∨ st = ldReject then
    let s := { s with ldv := { s.ldv with buf := [], bufErr := [], target := s.get Reg.LDV_CTRL_TARGET }, thaw := { s.thaw with loading := true } }
    (s.put Reg.LDV_STAT_STATE ldReceive).put Reg.LDV_STAT_COUNT 0
  else s

/-- ABORT (R237). -/
def State.ldvCancel (s : State) : State :=
  if s.ldvState = ldReceive ∨ s.ldvState = ldVerify then s.ldvRejected 10 else s

/-- The load verifier answers writes: not during phases 1 to 3 and 5 of Thaw (R500, R510). -/
def State.ldvServed (s : State) : Bool :=
  let ph := s.get Reg.THAW_STATUS_PHASE
  s.on Reg.THAW_STATUS_HOLD || decide (ph = 4) || decide (ph = 6)

/-- A write of LDV_CTRL. DESIGN CHOICE (R237): with ABORT and START both 1 the ABORT acts first, so that a new load begins
at once. -/
def State.writeLdvCtrl (s : State) (v : Word) : State :=
  let s := s.put Reg.LDV_CTRL_TARGET (fld v 2 16)
  let s := if bit v 1 then s.ldvCancel else s
  if bit v 0 then s.ldvBegin else s

/-- A write of LDV_DATA (R237): word 4 is checked on arrival, and the last word starts verification. -/
def State.ldvReceive (s : State) (w : Word) : State :=
  if s.ldvState = ldReceive then
    let n := s.ldv.buf.length
    let s := { s with ldv := { s.ldv with buf := s.ldv.buf ++ [w], bufErr := serase n s.ldv.bufErr } }
    let s := s.put Reg.LDV_STAT_COUNT (n + 1)
    if n = 4 ∧ (w.toNat % 2 = 1 ∨ w.toNat > 8124) then s.ldvRejected 9
    else if 4 ≤ n ∧ n + 1 = 68 + s.ldvLen then s.put Reg.LDV_STAT_STATE ldVerify
    else s
  else s

/-- The reads of the receive buffer in VERIFY (R237, R320): a single-bit error is corrected in what is read and reported; an
uncorrectable word is reported. The buffer has no address: the message carries the word's index. -/
def State.ldvReads (s : State) : State :=
  (s.ldv.bufErr.filter (fun e => decide (e.1 < s.ldv.buf.length))).foldl (fun s e =>
    if e.2 then s.sendInfo srcVerifier 0x02 clsU e.1 else s.sendInfo srcVerifier 0x01 clsC e.1) s

/-- The check of R238 that an uncorrectable word of the image fails: the first one that reads the word (DESIGN CHOICE: the spec
names no code for such a word). A word past the image is read by no check. -/
def State.ldvBad (s : State) : Option Nat :=
  let bad := (s.ldv.bufErr.filter (fun e => e.2 && decide (e.1 < s.ldv.buf.length))).map (fun e => e.1)
  if bad.any (fun i => decide (i < 3 ∨ 8 ≤ i ∧ i < 16)) then some 1
  else if bad.any (fun i => decide (16 ≤ i ∧ i < 40)) then some 3
  else if bad = [] then none else some 4

/-- VERIFY (R238): the first check that fails, by its code, ends the load. -/
def State.ldvVerify (s : State) : State :=
  if s.ldvState = ldVerify then
    let code := match s.ldvBad, s.verifyCode with
      | some a, some b => some (min a b)
      | some a, none => some a
      | none, b => b
    let s := s.ldvReads
    match code with
    | some code => s.ldvRejected code
    | none => s.put Reg.LDV_STAT_STATE ldBroadcast
  else s

/-- Writes an image into a cluster's stores (R239); what it writes holds no error. `listed` tells whether its key is Onaed's,
whose images give every instruction its listed effect and count (R216). -/
def MicroStore.load (m : MicroStore) (base listed : Bool) (ms : List (Nat × BitVec 144)) (ds : List (Nat × Nat)) : MicroStore :=
  let m := if base then MicroStore.empty else m
  { words := ms.foldl (fun l e => sput 0 e.1 e.2 l) m.words
    disp := ds.foldl (fun l e => sput 0 e.1 e.2 l) m.disp
    listed := m.listed && listed
    wordErr := m.wordErr.filter (fun e => !(ms.any (fun q => decide (q.1 = e.2.1))))
    dispErr := m.dispErr.filter (fun e => !(ds.any (fun q => decide (q.1 = e.2.1)))) }

/-- BROADCAST (R239) into the target clusters that have kept their power (R240). -/
def State.ldvWrite (s : State) : State :=
  if s.ldvState = ldBroadcast then
    match s.ldvSections with
    | none => s.ldvRejected 6
    | some (ms, ds) =>
      let listed := decide (s.ldv.hash = some Config.onaedHash)
      let s := s.ldvTargets.foldl (fun s k =>
        let old := sget MicroStore.empty k s.ldv.stores
        let s := { s with ldv := { s.ldv with
          stores := sput MicroStore.empty k (old.load s.ldvBase listed ms ds) s.ldv.stores } }
        let s := s.put ⟨Reg.LDV_VALID_V.off, k, 1⟩ 1
        if s.ldvBase then (s.put (Reg.LDV_CLSEQ_BASE k) s.ldvSeq).put (Reg.LDV_CLSEQ_PATCH k) 0
        else s.put (Reg.LDV_CLSEQ_PATCH k) s.ldvPatch) s
      (s.put Reg.LDV_STAT_STATE ldDone).put Reg.LDV_STAT_CODE 0
  else s

/-- KP_READY (R539, R541): low in block reset, and while the load verifier is in VERIFY or BROADCAST. -/
def State.kpReady (s : State) : Bool := s.blockUp && decide (s.ldvState ≠ ldVerify) && decide (s.ldvState ≠ ldBroadcast)

/-- KEY_DELIVERY (R541): a delivery of the wrong length is discarded, and none is taken in VERIFY or BROADCAST. -/
def State.keyDelivery (s : State) (sel : Bool) (ws : List (BitVec 32)) : State :=
  if ¬ s.kpReady then s
  else
    let s := if sel then (if ws.length = 12 then { s with ldv := { s.ldv with hash := some ws } } else s)
      else (if ws.length = 8 then { s with ldv := { s.ldv with aes := some ws } } else s)
    s.putB Reg.LDV_STAT_KEY (s.ldv.aes.isSome && s.ldv.hash.isSome)

end Sys2Proof.Machine
end

