-- ==== Sys2Proof/Machine/Moraine.lean ====
section
/-! DEFINITION. Moraine.lean: recording fault messages, the log ring, acknowledgement and quiet exits (18 R457-R470). -/

namespace Sys2Proof.Machine

open Sys2Proof

/-! ## Message words (R457) and the log ring (R464) -/

def Msg.word0 (m : Msg) (cls : Nat) : Word :=
  setFld (setFld (setFld (setFld 0 24 12 m.src) 16 8 m.kind.toNat) 14 2 cls) 0 14 (m.info / 2 ^ 36)
def Msg.word1 (m : Msg) : Word := BitVec.ofNat 36 m.info
def Msg.flags (m : Msg) : Nat := 2 * b2n m.av + b2n m.pers

def logOff (i w : Nat) : Nat := 0x2400 + 4 * (i % 256) + w

/-- Log words that hold the same SOURCE, KIND, AV and address or INFO as a message (R461). -/
def State.sameEntry (s : State) (i : Nat) (m : Msg) : Bool :=
  let w0 := s.reg (logOff i 0)
  decide (setFld w0 14 2 0 = m.word0 0) && decide (s.reg (logOff i 1) = m.word1) &&
    decide (bit (s.reg (logOff i 3)) 19 = m.av)

/-- The newest unread entry among the 16 most recently written with which a message merges. -/
def State.mergeWith (s : State) (m : Msg) : Option Nat :=
  let next := s.get Reg.MOR_LOGHEAD_NEXT
  let n := min 16 (s.get Reg.MOR_LOGCNT_COUNT)
  ((List.range n).map (fun j => (next + 255 - j) % 256)).find? (fun i => s.sameEntry i m)

def State.countClass (s : State) (cls : Nat) : State :=
  if cls = clsC then s.bump Reg.MOR_CNTC_COUNT else if cls = clsU then s.bump Reg.MOR_CNTU_COUNT
  else s.bump Reg.MOR_CNTF_COUNT

/-- Writes a log entry; a full ring loses its oldest unread one (R464). Its words take fresh check bits. -/
def State.logEntry (s : State) (m : Msg) (cls : Nat) : State :=
  let i := s.get Reg.MOR_LOGHEAD_NEXT
  let word (s : State) (w : Nat) (v : Word) : State := (s.setReg (logOff i w) v).clearEcc (logOff i w)
  let s := word (word (word s 0 (m.word0 cls)) 1 m.word1) 2 s.frame36
  let s := word s 3 (setFld (setFld 0 18 2 m.flags) 16 2 m.cls)
  let s := s.put Reg.MOR_LOGHEAD_NEXT ((i + 1) % 256)
  if s.get Reg.MOR_LOGCNT_COUNT = 256 then
    let s := s.put Reg.MOR_LOGTAIL_TAIL ((s.get Reg.MOR_LOGTAIL_TAIL + 1) % 256)
    let s := s.bump Reg.MOR_LOGLOST_COUNT
    s.put Reg.MOR_IRQ_EV (s.get Reg.MOR_IRQ_EV ||| 8)
  else s.put Reg.MOR_LOGCNT_COUNT (s.get Reg.MOR_LOGCNT_COUNT + 1)

/-- MOR_LOGPOP: consumes min(n, MOR_LOGCNT) entries (R464). -/
def State.logPop (s : State) (n : Nat) : State :=
  let k := min n (s.get Reg.MOR_LOGCNT_COUNT)
  (s.put Reg.MOR_LOGTAIL_TAIL ((s.get Reg.MOR_LOGTAIL_TAIL + k) % 256)).put Reg.MOR_LOGCNT_COUNT
    (s.get Reg.MOR_LOGCNT_COUNT - k)

/-! ## Taking a message (R460, R461) -/

/-- The next source: the lowest-numbered one with a message waiting, except that one passed over for 64 cycles comes
first (R460). -/
def State.nextSource (s : State) : Option Nat :=
  let srcs := s.msgs.foldl (fun l m => setInsert m.src l) []
  match srcs.find? (fun src => decide (sget 0 src s.passed ≥ 64)) with
  | some src => some src
  | none => srcs.head?

/-- The scope of a class F record (R462): the logical cell in the reporting slot is a failure event (R474), unless the
record is a lockup; records of cluster and block scope have no further effect here. -/
def State.reactF (s : State) (m : Msg) : State :=
  if m.src < 0x110 ∧ m.kind ≠ 0x23 then
    match s.cellAt (m.src / 17) (m.src % 17) with
    | some c => s.failureEvent c 3
    | none => s
  else s

/-- The class with which a message is recorded (R461): an unacknowledged record of the same class raises it by one. -/
def State.recordClass (s : State) (m : Msg) : Nat :=
  if (m.cls = clsC ∧ s.on (Reg.MOR_SRCST_UC m.src) ∧ s.on Reg.MOR_CTRL_ESCC) ∨
     (m.cls = clsU ∧ s.on (Reg.MOR_SRCST_UU m.src) ∧ s.on Reg.MOR_CTRL_ESCU) then m.cls + 1 else m.cls

def unackFld (src cls : Nat) : Fld :=
  if cls = clsC then Reg.MOR_SRCST_UC src else if cls = clsU then Reg.MOR_SRCST_UU src else Reg.MOR_SRCST_UF src

/-- A source enters its fault state (R461). -/
def State.faultState (s : State) (src : Nat) : State :=
  (s.put (Reg.MOR_SRCST_FS src) 1).put (Reg.MOR_SRCST_QUIET src) 0

/-- Latches the first-error record, or notes that one is held (R461, R463). -/
def State.latchFirst (s : State) (m : Msg) (cls : Nat) : State :=
  if s.on Reg.MOR_STAT_FVALID then s.raise Reg.MOR_STAT_OVF
  else
    let s := s.setReg Reg.MOR_FIRST0_MSG.off (m.word0 cls)
    let s := s.setReg Reg.MOR_FIRST1_MSG.off m.word1
    let s := s.setReg Reg.MOR_FIRSTF_FRAME.off s.frame36
    let s := s.raise Reg.MOR_STAT_FVALID
    let s := (s.put Reg.MOR_STAT_FREAD 0).put Reg.MOR_STAT_TRANS 0
    (s.put Reg.MOR_STAT_FFLAGS m.flags).put Reg.MOR_STAT_FOCLASS m.cls

/-- The steps of R461 for a message that Moraine takes. -/
def State.record (s : State) (m : Msg) : State :=
  match (if s.on Reg.MOR_CTRL_LOGEN then s.mergeWith m else none) with
  | some i =>
    let w := s.reg (logOff i 3)
    let s := s.setReg (logOff i 3) (setFld w 20 16 (satInc (fld w 20 16) 16))
    (s.countClass (fld (s.reg (logOff i 0)) 14 2)).faultState m.src
  | none =>
    let cls := s.recordClass m
    let s := s.raise (unackFld m.src cls)
    let s := s.countClass cls
    let s := s.put Reg.MOR_IRQ_EV (s.get Reg.MOR_IRQ_EV ||| 2 ^ (cls - 1))
    let s := s.latchFirst m cls
    let s := if s.on Reg.MOR_CTRL_LOGEN then s.logEntry m cls else s
    let s := s.faultState m.src
    if cls = clsF then s.reactF m else s

/-- Moraine takes messages from the end of Thaw phase 3 on, and in Hold (R508, R510). -/
def State.moraineOn (s : State) : Bool := decide (4 ≤ s.get Reg.THAW_STATUS_PHASE) || s.on Reg.THAW_STATUS_HOLD

/-- MESSAGE_TAKEN (R460): Moraine takes the next source's oldest message and records it. -/
def State.takeMessage (s : State) : State :=
  match (if s.moraineOn then s.nextSource else none) with
  | none => s
  | some src =>
    match s.msgs.find? (fun m => decide (m.src = src)) with
    | none => s
    | some m =>
      let waiting := s.msgs.foldl (fun l m => setInsert m.src l) []
      let passed := waiting.filterMap (fun x => if x = src then none else some (x, min 64 (sget 0 x s.passed + 1)))
      ({ s with msgs := s.msgs.erase m, passed := passed }).record m

/-! ## Acknowledgement and recovery (R463, R466-R468) -/

/-- Clears a source's unacknowledged bits. -/
def State.ackSource (s : State) (src : Nat) : State :=
  ((s.put (Reg.MOR_SRCST_UC src) 0).put (Reg.MOR_SRCST_UU src) 0).put (Reg.MOR_SRCST_UF src) 0

/-- The sources of R458. -/
def sources : List Nat :=
  List.range 0x110 ++ (List.range 16).map srcCluster ++ (List.range 20).map (fun i => 0x400 + i)

def isSource (src : Nat) : Bool := decide (src < 0x110) || (decide (0x200 ≤ src) && decide (src < 0x210)) ||
  (decide (0x400 ≤ src) && decide (src < 0x414))

/-- The sources that are not in their reset state. -/
def State.activeSources (s : State) : List Nat :=
  s.ctl.filterMap (fun e => if 0x2800 ≤ e.1 ∧ e.1 < 0x2C20 then some (e.1 - 0x2800) else none)

def State.ackAll (s : State) : State := s.activeSources.foldl (fun s src => s.ackSource src) s

/-- MOR_ACK.FIRST (R463). -/
def State.ackFirst (s : State) : State :=
  ((s.put Reg.MOR_STAT_FVALID 0).put Reg.MOR_STAT_FREAD 0).put Reg.MOR_STAT_TRANS 0

/-- A write of MOR_ACK (R467). -/
def State.writeAck (s : State) (v : Word) : State :=
  let s := if bit v 33 ∧ isSource (fld v 0 12) then s.ackSource (fld v 0 12) else s
  let s := if bit v 34 then s.ackAll else s
  if bit v 35 then s.ackFirst else s

/-- Source of the first-error record. -/
def State.firstSource (s : State) : Nat := fld (s.reg Reg.MOR_FIRST0_MSG.off) 24 12

/-- A source whose quiet count has reached MOR_QUIET, at a tick at the earliest, while its error pin is low (R466). -/
def State.quietDue (s : State) (src : Nat) : Bool :=
  s.rimeRun && isSource src && s.on (Reg.MOR_SRCST_FS src) && !s.pins.contains src &&
    decide (max 1 (s.get Reg.MOR_QUIET_FRAMES) ≤ s.get (Reg.MOR_SRCST_QUIET src))

/-- QUIET_EXIT (R463, R466): a source whose quiet count is due leaves its fault state. -/
def State.quietExit (s : State) (src : Nat) : State :=
  if s.quietDue src then
    let s := (s.put (Reg.MOR_SRCST_FS src) 0).put (Reg.MOR_SRCST_QUIET src) 0
    let s := s.bump Reg.MOR_RECOV_COUNT
    if s.on Reg.MOR_STAT_FVALID ∧ ¬ s.on Reg.MOR_STAT_FREAD ∧ s.firstSource = src then s.raise Reg.MOR_STAT_TRANS
    else s
  else s

/-- The tick reaches Moraine (R466): a quiet tick of every source in its fault state whose pin is low. -/
def State.quietTick (s : State) : State :=
  s.activeSources.foldl (fun s src =>
    if s.on (Reg.MOR_SRCST_FS src) ∧ ¬ s.pins.contains src then s.bump (Reg.MOR_SRCST_QUIET src) else s) s

/-- A read of MOR_FIRST0 (R463). -/
def State.readFirst0 (s : State) : State := s.raise Reg.MOR_STAT_FREAD

/-- FAULT_N is driven low (R462, R508). -/
def State.faultLow (s : State) : Bool :=
  s.activeSources.any (fun src => s.on (Reg.MOR_SRCST_UF src)) || s.on Reg.THAW_STATUS_HOLD

end Sys2Proof.Machine
end

