-- ==== Sys2Proof/Machine/Edit.lean ====
section
/-! DEFINITION. Edit.lean: online edits: the map and its checks, the swap window, and the ticks at which it opens
(13 R353-R362). -/

namespace Sys2Proof.Machine

open Sys2Proof

/-! ## The tick in a cell (R26, R49, R252, R278, R283, R485) -/

/-- A DONE level with TICK = 0 and a pending count starts its activation (R283): one that its budget had barred, or whose
cluster was in Retain (R49). -/
def State.wakeLevels (s : State) (c : Nat) : State := (List.range 8).foldl (fun s n => s.wakeLevel c n) s

/-- The tick reaches a cell that runs: a cold entry first; level 0 is not started while the cell tests itself (R485). -/
def State.takeTick (s : State) (c : Nat) : State :=
  if s.live c then
    let s := if (s.cell c).cold ≠ 0 ∧ ¬ s.dead c then s.coldEntry c (s.cell c).cold else s
    if ¬ s.dead c ∨ s.moving c then
      ((List.range 8).foldl (fun s n => if n = 0 ∧ s.selfTest c then s else s.levelTick c n) s).wakeLevels c
    else s
  else s

/-- Step 5 of R18 in a cell: it follows the swap window where one waits to open (R358). -/
def State.cellTick (s : State) (c : Nat) : State :=
  if (s.cell c).win then s.modCell c (fun x => { x with tickDue := true }) else s.takeTick c

/-- Step 5 that has waited for the window. -/
def State.lateTick (s : State) (c : Nat) : State :=
  if (s.cell c).tickDue then (s.modCell c (fun x => { x with tickDue := false })).takeTick c else s

/-! ## Online edits: the map and arming (R353-R356, R359-R362) -/

def edIdle : Nat := 0
def edArmed : Nat := 1
def edWindow : Nat := 2
def edDone : Nat := 3
def edAborted : Nat := 4
def edRefused : Nat := 5

/-- A record of an edit map (R353). -/
structure EditOp where
  op : Nat
  level : Nat
  task : Nat
  count : Nat
  src : Nat
  dst : Nat
  arg : Word
deriving DecidableEq, Repr

/-- A record's words against R353; none is an illegal record. -/
def editOp (levels : Nat) (w0 w1 w2 w3 : Word) : Option EditOp :=
  let r : EditOp := ⟨fld w0 32 4, fld w0 29 3, fld w0 25 4, fld w0 0 16, fld w1 0 32, fld w2 0 32, w3⟩
  if r.op ≤ 5 ∧ fld w0 16 9 = 0 ∧ fld w1 32 4 = 0 ∧ fld w2 32 4 = 0 ∧ (r.op ≠ 1 ∧ r.op ≠ 2 ∨ r.count ≠ 0) ∧
      levels.testBit r.level then some r
  else none

/-- What reading an edit map gives: its records; no value where it does not follow R353, with the store offset of the word that
reads with an uncorrectable error where one does. -/
abbrev EditMap := Except (Option Nat) (List EditOp)

/-- Reads up to `n` records of a cell's map from store offset `at_`, up to the first with OP 0. -/
def State.editMap (s : State) (c levels at_ : Nat) : Nat → EditMap × State
  | 0 => (.error none, s)
  | n + 1 =>
    if at_ + 3 < 0x4000 then
      let rd (s : State) (o : Nat) : Option Word × State := s.readWord (s.storeWordKey c (at_ + o)) (ownStore c (at_ + o))
      let r0 := rd s 0
      let r1 := rd r0.2 1
      let r2 := rd r1.2 2
      let r3 := rd r2.2 3
      match r0.1, r1.1, r2.1, r3.1 with
      | some w0, some w1, some w2, some w3 =>
        if fld w0 32 4 = 0 then
          if fld w0 16 9 = 0 ∧ fld w1 32 4 = 0 ∧ fld w2 32 4 = 0 then (.ok [], r3.2) else (.error none, r3.2)
        else match editOp levels w0 w1 w2 w3 with
          | none => (.error none, r3.2)
          | some e =>
            let rest := State.editMap r3.2 c levels (at_ + 4) n
            (rest.1.map (fun l => e :: l), rest.2)
      | none, _, _, _ => (.error (some at_), r3.2)
      | _, none, _, _ => (.error (some (at_ + 1)), r3.2)
      | _, _, none, _ => (.error (some (at_ + 2)), r3.2)
      | _, _, _, none => (.error (some (at_ + 3)), r3.2)
    else (.error none, s)

/-- The cell whose EDIT registers and map govern an edit of cell `c` (R359). -/
def State.editOwner (s : State) (c : Nat) : Nat := if s.paired c then c - c % 2 else c

def State.editLevels (s : State) (c : Nat) : Nat := s.get (Reg.EDIT_CTRL_LEVELS c)

/-- The old and the new domain of a level (R354). -/
def State.oldDomain (s : State) (c n : Nat) : Nat := (s.bank c n).dom.toNat
def State.newDomain (s : State) (c : Nat) (ops : List EditOp) (n : Nat) : Nat :=
  match (ops.reverse).find? (fun e => decide (e.op = 3) && decide (e.level = n)) with
  | some e => fld e.arg 0 6
  | none => s.oldDomain c n

/-- A virtual address translates, in a domain, into the cell's own store or its own cluster's memory: the physical
address (R354, R356). -/
def State.editAddr (s : State) (c dom va : Nat) : Option Phys :=
  match s.translate c dom va with
  | none => none
  | some p => match s.area p.pa with
    | .store key => if storeKey (clusterOf c) (s.slotOf c) 0 ≤ key ∧ key < storeKey (clusterOf c) (s.slotOf c) 0 + 0x4000
        then some p else none
    | .cluster k => if k = clusterOf c then some p else none
    | _ => none

/-- The cycles of one word (R355). -/
def wordCost (p : Phys) : Nat := if 0x2000000 ≤ p.pa ∧ p.pa < 0x2400000 then 24 else 1

/-- Sum of the charges of `count` words from `va`; none when one does not translate. -/
def State.spanCost (s : State) (c dom va count : Nat) : Option Nat :=
  (List.range count).foldl (fun acc i => match acc, s.editAddr c dom (va + i) with
    | some n, some p => some (n + wordCost p)
    | _, _ => none) (some 0)

/-- The charge of one record in cell `c` (R355), none when an address fails cause 2 of R356. -/
def State.opCost (s : State) (c : Nat) (ops : List EditOp) (e : EditOp) : Option Nat :=
  let old := s.oldDomain c e.level
  let new := s.newDomain c ops e.level
  match e.op with
  | 1 => match s.spanCost c old e.src e.count, s.spanCost c new e.dst e.count with
    | some a, some b => some (a + b)
    | _, _ => none
  | 2 => s.spanCost c new e.dst e.count
  | 3 => some 64
  | 4 => (s.editAddr c new (fld e.arg 2 32)).map (fun _ => 2)
  | _ => match s.editAddr c new (e.src - e.src % 2), s.editAddr c new (e.src - e.src % 2 + 1) with
    | some _, some _ => some 4
    | _, _ => none

def State.mapCost (s : State) (c : Nat) (ops : List EditOp) : Option Nat :=
  ops.foldl (fun acc e => match acc, s.opCost c ops e with
    | some n, some m => some (n + m)
    | _, _ => none) (some 16)

/-- The cells that an edit of `c` arms (R359). -/
def State.editCells (s : State) (c : Nat) : List Nat := if s.paired c then [c, partner c] else [c]

/-- EDIT_STAT of the edit's cells. -/
def State.editStat (s : State) (c state cause : Nat) : State :=
  (s.editCells c).foldl (fun s x => (s.put (Reg.EDIT_STAT_STATE x) state).put (Reg.EDIT_STAT_CAUSE x) cause) s

/-- The checks of R356 in order: the first cause that fails, or the cost. -/
def State.editCheck (s : State) (c : Nat) (ops : EditMap) : Except Nat Nat :=
  match ops with
  | .error _ => .error 1
  | .ok ops =>
    let costs := (s.editCells c).map (fun x => s.mapCost x ops)
    if costs.any (fun x => x.isNone) then .error 2
    else
      let cost := costs.foldl (fun a x => max a (x.getD 0)) 0
      if cost > s.get (Reg.EDIT_WINDOW_CYC c) then .error 3
      else if s.paired c ∧ c % 2 = 1 then .error 8
      else if s.editLevels c = 0 ∨ (s.editCells c).any (fun x =>
          (List.range 8).any (fun n => (s.editLevels c).testBit n && !s.lvEn x n)) then .error 9
      else .ok cost

/-- The cell's EDIT_STAT, and its partner's with an even cell of a pair (R359). -/
def State.editRefuse (s : State) (c cause : Nat) : State :=
  if s.editOwner c = c then s.editStat c edRefused cause
  else (s.put (Reg.EDIT_STAT_STATE c) edRefused).put (Reg.EDIT_STAT_CAUSE c) cause

/-- EDITSWAP (R356, R359). -/
def State.editSwap (s : State) (c : Nat) : State :=
  let st := s.get (Reg.EDIT_STAT_STATE c)
  if st = edArmed ∨ st = edWindow then s
  else
    let (ops, s) := s.editMap c (s.editLevels c) (4 * s.get (Reg.EDIT_MAP_BASE c)) 256
    match s.editCheck c ops with
    | .error cause => s.editRefuse c cause
    | .ok cost =>
      let s := (s.editStat c edArmed 0).put (Reg.EDIT_COST_CYC c) cost
      (s.editCells c).foldl (fun s x => s.put (Reg.EDIT_STAT_WAITED x) 0) s

/-- The cells of an edit wait for its window, or no longer do (R358). -/
def State.markWindow (s : State) (own : Nat) (b : Bool) : State :=
  (s.editCells own).foldl (fun s c => s.modCell c (fun x => { x with win := b })) s

/-- The window that waited is over: step 5 follows in the cells of the edit (R358). -/
def State.endWindow (s : State) (own : Nat) : State := (s.editCells own).foldl State.lateTick (s.markWindow own false)

/-- EDIT_CANCEL (R360). -/
def State.editCancel (s : State) (c : Nat) : State :=
  if s.get (Reg.EDIT_STAT_STATE c) = edArmed then (s.editStat (s.editOwner c) edAborted 5).endWindow (s.editOwner c) else s

/-- A write of EDIT_CTRL (R356, R360, R362). -/
def State.writeEditCtrl (s : State) (c : Nat) (v : Word) : State :=
  let armed := decide (s.get (Reg.EDIT_STAT_STATE c) = edArmed)
  let s := if armed then s else s.put (Reg.EDIT_CTRL_LEVELS c) (fld v 2 8)
  let s := if bit v 1 then s.editCancel c else s
  if bit v 0 ∧ ¬ armed then s.editSwap c else s

/-- The edit has waited through EDIT_TIMEOUT unclean ticks (R357); the even cell's registers govern a pair (R359). -/
def State.editDue (s : State) (c : Nat) : Bool :=
  let own := s.editOwner c
  decide (s.get (Reg.EDIT_STAT_STATE own) = edArmed) &&
    decide (max 1 (s.get (Reg.EDIT_TIMEOUT_FRAMES own)) ≤ s.get (Reg.EDIT_STAT_WAITED own))

/-- EDIT_TIMEOUT (R357). -/
def State.editTimeout (s : State) (c : Nat) : State :=
  if s.editDue c then
    let own := s.editOwner c
    (s.editStat own edAborted 4).sendInfo (srcCell s own) 0x40 clsC (s.get (Reg.EDIT_TAG_TAG own))
  else s

/-! ## The swap window (13 R354-R361) -/

/-- A part of a window: how it ends, a cause of R360 or a value, with the state it leaves. -/
abbrev Win (α : Type) := Except Nat α × State

def winBind {α β : Type} (r : Win α) (f : α → State → Win β) : Win β :=
  match r.1 with
  | .ok a => f a r.2
  | .error e => (.error e, r.2)

def winEach {α : Type} (l : List α) (f : α → State → Win Unit) (s : State) : Win Unit :=
  l.foldl (fun r a => winBind r (fun _ s => f a s)) (.ok (), s)

/-- A read of the window at a physical address: an uncorrectable error is cause 7 (R360). -/
def State.winRead (s : State) (c pa : Nat) : Win Word :=
  match s.readWord (s.key pa) pa with
  | (some w, s) => (.ok w, s)
  | (none, s) => (.error 7, s.sendAddr (srcCell s c) 0x41 clsU pa)

/-- The physical address of a word that the window names: a miss is cause 6 (R360). -/
def State.winAddr (s : State) (c dom va : Nat) : Win Phys :=
  match s.editAddr c dom va with
  | some p => (.ok p, s)
  | none => (.error 6, s)

/-- A write of COPY or FILL: data only, the tag becomes 0 (R354), with the dirty bit of R372. -/
def State.winWrite (s : State) (c : Nat) (p : Phys) (w : Word) : State :=
  ((s.writeWord (s.key p.pa) w 0xF false).coherent p.pa (some c)).noteRetained p.via p.pa

/-- One word of COPY or FILL. -/
def State.winWord (c old new : Nat) (e : EditOp) (i : Nat) (s : State) : Win Unit :=
  let put (w : Word) (s : State) : Win Unit :=
    winBind (s.winAddr c new (e.dst + i)) fun p s => (.ok (), s.winWrite c p w)
  if e.op = 1 then
    winBind (s.winAddr c old (e.src + i)) fun p s => winBind (s.winRead c p.pa) put
  else put e.arg s

/-- COPY and FILL in record order; `s0` gives the domains as the window opened. -/
def State.winMoves (s0 : State) (c : Nat) (ops : List EditOp) (s : State) : Win Unit :=
  winEach (ops.filter (fun e => decide (e.op = 1 ∨ e.op = 2)))
    (fun e s => winEach (List.range e.count)
      (fun i s => s.winWord c (s0.oldDomain c e.level) (s0.newDomain c ops e.level) e i) s) s

/-- What the commit writes: a word of a task's TCW, or a capability register. -/
inductive Commit where
  | word (level task o : Nat) (w : Word)
  | dom (level : Nat) (d : BitVec 6)
  | cap (level task : Nat) (k : Fin 4) (v : Cap)
deriving DecidableEq, Repr

/-- A word of a TCW with its place in the cell store. -/
def State.winTcw (s : State) (c n j o : Nat) : Win Word := s.winRead c (ownStore c (s.tcwBase c n j + o))

/-- What a record of DOM, ENTRY or CAP commits: its words are read in the window. -/
def State.winPlan (s0 : State) (c : Nat) (ops : List EditOp) (e : EditOp) (s : State) : Win (List Commit) :=
  match e.op with
  | 3 =>
    let d := BitVec.ofNat 6 (fld e.arg 0 6)
    let tasks := List.range (s.get (Reg.CELL_LCFG_NTASK c e.level) + 1)
    let r := tasks.foldl (fun (r : Win (List Commit)) j => winBind r fun l s =>
      winBind (s.winTcw c e.level j 18) fun w s =>
        (.ok (l ++ [.word e.level j 18 (setFld w 16 6 d.toNat)]), s)) (.ok [], s)
    winBind r fun l s => (.ok (l ++ [.dom e.level d]), s)
  | 4 => (.ok [.word e.level e.task 13 (BitVec.ofNat 36 (fld e.arg 0 34))], s)
  | 5 =>
    let va := e.src - e.src % 2
    let new := s0.newDomain c ops e.level
    winBind (s.winAddr c new va) fun p s => winBind (s.winAddr c new (va + 1)) fun q s =>
      winBind (s.winRead c p.pa) fun lo s => winBind (s.winRead c q.pa) fun hi s =>
        let tag := s.tagOf (s.key p.pa)
        let s := s.tagCheck (s.key p.pa) (memSource (s.key p.pa)) p.pa
        let k := fld e.arg 0 2
        (.ok [.cap e.level e.task ⟨k % 4, Nat.mod_lt _ (by decide)⟩ ⟨lo, hi, tag⟩], s)
  | _ => (.ok [], s)

/-- Writes a word of a TCW; a place past the cell store does not exist. -/
def State.winTcwWrite (s : State) (c n j o : Nat) (w : Word) (tag : Bool) : State :=
  let a := s.tcwBase c n j + o
  if a < 0x4000 then s.writeWord (s.storeWordKey c a) w 0xF tag else s

/-- The commit of one item (R354): the TCW, and the bank where it holds the task; the window has refilled the region set of a new
domain (R355). -/
def State.winCommit (s : State) (c : Nat) (x : Commit) : State :=
  match x with
  | .word n j o w => s.winTcwWrite c n j o w false
  | .dom n d => (s.modBank c n (fun k => { k with dom := d })).modCell c (fun x => { x with sets := sinsert n d x.sets })
  | .cap n j k v =>
    let s := (s.winTcwWrite c n j (2 * k.val) v.lo v.tag).winTcwWrite c n j (2 * k.val + 1) v.hi v.tag
    if s.curTask c n = j then s.modBank c n (fun b => { b with c := b.c.set k.val v }) else s

/-- What a window finds and leaves of the cell's pipeline (R198, R358): it is a bank switch, and it executes FLUSHI. -/
def State.winFlush (s : State) (c : Nat) : State :=
  (s.retireLoad c).modCell c (fun x => { x with pq := [], icache := [] })

/-- The records of a window in one cell, with the map of cell `own` as it stands (R359, R361). -/
def State.winRecords (s : State) (c own : Nat) : Win (List Commit) :=
  let (ops, s) := s.editMap own (s.editLevels own) (4 * s.get (Reg.EDIT_MAP_BASE own)) 256
  match ops with
  | .error none => (.error 1, s)
  | .error (some o) => (.error 7, s.sendAddr (srcCell s own) 0x41 clsU (ownStore own o))
  | .ok ops =>
    winBind (s.winMoves c ops s) fun _ t =>
      ops.foldl (fun (r : Win (List Commit)) e => winBind r fun l t =>
        winBind (s.winPlan c ops e t) fun m t => (.ok (l ++ m), t)) (.ok [], t)

/-- The window's length (R358, R360), charged to level 0. -/
def State.winCharge (s : State) (c own : Nat) (aborted : Bool) : State :=
  if s.throughput c then
    if aborted then (s.bumpBy (Reg.CELL_LUSED_CYC c 0) (Config.throughputCycles s.fresh)).tickFresh
    else s.bumpBy (Reg.CELL_LUSED_CYC c 0) (s.get (Reg.EDIT_COST_CYC own))
  else s.bumpBy (Reg.CELL_LUSED_CYC c 0) (s.get (Reg.EDIT_WINDOW_CYC own))

/-- Drops a staging set that holds a covered level: its task control word may have changed. -/
def State.winStaging (s : State) (c own : Nat) : State :=
  s.modCell c (fun x => match x.staging with
    | some g => if (s.editLevels own).testBit g.level then { x with staging := none } else x
    | none => x)

/-- SWAP_WINDOW in one cell (R358, R360): how it ended. -/
def State.swapOne (s : State) (c own : Nat) : Option Nat × State :=
  let s := s.winFlush c
  match s.winRecords c own with
  | (.error cause, s) => (some cause, s.winCharge c own true)
  | (.ok l, s) =>
    let s := l.foldl (fun s x => s.winCommit c x) s
    (none, (s.winStaging c own).winCharge c own false)

/-- The swap windows of an edit, one in each of its cells, and then step 5 of the tick where it has waited (R358); EDIT_STAT follows
the governing cell (R359). -/
def State.swapWindow (s : State) (own : Nat) : State :=
  let s := s.editStat own edWindow 0
  let cells := s.editCells own
  let (r, s) := s.swapOne own own
  let s := (cells.filter (fun c => decide (c ≠ own))).foldl (fun s c => (s.swapOne c own).2) s
  (match r with
  | some cause => s.editStat own edAborted cause
  | none => s.editStat own edDone 0).endWindow own

/-- A window that waits opens once every cell of the edit has completed what held it and drained its store buffer (R205, R358). It
was accepted at its tick: what becomes of the cell meanwhile does not stop it (DESIGN CHOICE, R358). -/
def State.tryWindow (s : State) (own : Nat) : State :=
  if (s.editCells own).all (fun c => !(s.cell c).hold && (s.cell c).sb.isEmpty) then s.swapWindow own else s

/-- The window of an edit is due: its cells accept nothing more before it (R200). -/
def State.beginWindow (s : State) (own : Nat) : State := (s.markWindow own true).tryWindow own

/-- The windows that wait. -/
def State.openWindows (s : State) : State :=
  (s.cells.filter (fun e => e.2.win && decide (s.editOwner e.1 = e.1))).foldl (fun s e => s.tryWindow e.1) s

/-! ## Which windows open (R357, R376) -/

/-- The cell meets the conditions of a clean boundary (R357). -/
def State.cleanCell (s : State) (c own : Nat) (moved : List Nat) : Bool :=
  (List.range 8).all (fun n => !(s.editLevels own).testBit n ||
    (decide (s.lvState c n = lvDone) && (s.cell c).fended.getLsbD n)) &&
  (decide (s.running c < 8) || decide (s.running c = bankIdle)) && !s.dead c && !moved.contains c && decide ((s.cell c).cold = 0) &&
    !(s.cell c).resetDue

/-- An ARMED edit examines this tick (R357). -/
def State.editExamined (s : State) (c : Nat) : Bool :=
  decide (s.get (Reg.EDIT_STAT_STATE c) = edArmed) && decide (s.editOwner c = c) && !s.editDue c && !(s.cell c).win &&
    decide (s.runState (clusterOf c) = runRun) && decide (s.power (clusterOf c) ≤ 1) &&
    decide ((s.frame36.toNat + 2 ^ 36 - s.get (Reg.EDIT_AT_FRAME c)) % 2 ^ 36 < 2 ^ 35)

/-- A tick that is not clean (R357). -/
def State.editWaits (s : State) (own : Nat) : State :=
  (s.editCells own).foldl (fun s c => s.bump (Reg.EDIT_STAT_WAITED c)) s

/-- Online edit swaps at a tick; the governing cells of the windows that opened. -/
def State.editTick (s : State) (moved : List Nat) : List Nat × State :=
  (List.range 256).foldl (fun (acc : List Nat × State) c =>
    if acc.2.editExamined c then
      if (acc.2.editCells c).all (fun x => acc.2.cleanCell x c moved) then (acc.1 ++ [c], acc.2.beginWindow c)
      else (acc.1, acc.2.editWaits c)
    else acc) ([], s)

end Sys2Proof.Machine
end

