-- ==== Sys2Proof/Machine/Standby.lean ====
section
/-! DEFINITION. Standby.lean: the standby port: roles, the stream sent and received, tracking and takeover
(13 R369-R380, 22 R543). -/

namespace Sys2Proof.Machine

open Sys2Proof

/-! ## Roles (R369, R375, R376, R379, R380) -/

/-- A role other than off is refused. -/
def State.roleRefused (s : State) : Bool :=
  decide (s.get Reg.FRM_TPS_TPS = 0) || decide (s.get Reg.STBY_MAXL_LINES > 1024) ||
    decide (s.get Reg.STBY_WINDOW_CYC < 8 * s.get Reg.STBY_MAXL_LINES + 16) ||
    decide (s.get Reg.STBY_INRANGE_LAST < s.get Reg.STBY_INRANGE_FIRST)

def State.setStby (s : State) (f : Standby → Standby) : State := { s with stby := f s.stby }

/-- The port starts a role afresh. -/
def State.enterRole (s : State) (st : Nat) : State :=
  let s := (s.put Reg.STBY_STAT_STATE st).put Reg.STBY_STAT_MISS 0
  s.setStby (fun x => { x with rx := StreamRx.empty, whole := false, takeDue := false })

/-- A write of ROLE (R369, R379); 11 acts as off. -/
def State.writeRole (s : State) (role : Nat) : State :=
  let st := s.stbyState
  let s := s.put Reg.STBY_CTRL_ROLE role
  match role with
  | 1 =>
    if st = sbActive then s
    else if st = sbTracking then s.setStby (fun x => { x with takeDue := true })
    else if s.roleRefused then (s.enterRole sbOff).raise Reg.STBY_STAT_CFGERR
    else s.enterRole sbActive
  | 2 =>
    if sbSyncing ≤ st ∧ st ≤ sbPaused then s.setStby (fun x => { x with takeDue := false })
    else if s.roleRefused then (s.enterRole sbOff).raise Reg.STBY_STAT_CFGERR
    else (s.enterRole sbSyncing).holdRequests
  | _ => (s.enterRole sbOff).put Reg.STBY_STAT_CFGERR 0

/-- A write of STBY_CTRL (R374, R380). While Thaw runs the role is off (R507, R512): DEDUCED, ROLE stays as it is. DESIGN
CHOICE (R8, R380): SYNC reads 0, since the lines are marked at once and a 1 written outside ACTIVE, to which R374 gives no
effect, is done at once as well. -/
def State.writeStbyCtrl (s : State) (v : Word) : State :=
  let s := s.putB Reg.STBY_CTRL_PAUSE (bit v 3)
  let s := if s.thawOver then s.writeRole (fld v 0 2) else s
  if bit v 2 then s.syncLines else s

/-- Tracking is lost (R369). -/
def State.loseTracking (s : State) (why : Nat) : State :=
  (s.put Reg.STBY_STAT_STATE sbLost).sendInfo srcStandby 0x42 clsU why

/-! ## The stream received (R371, R376, R377) -/

def State.setRx (s : State) (f : StreamRx → StreamRx) : State := s.setStby (fun x => { x with rx := f x.rx })

/-- A beat of a record came with SBR_ERR = 1 and is discarded (R543): the record is incomplete, and the frame fails its check. -/
def State.loseBeat (s : State) : State :=
  if s.following then s.setRx (fun r => { r with bad := true, lost := true }) else s

/-- A record comes in order: after the FRAME record and before the heartbeat. -/
def StreamRx.open_ (r : StreamRx) : Bool := r.frame.isSome && !r.good && !r.bad

/-- FRAME_RECORD (R369): `agrees` tells whether the frame's period is that of the block's own FRM_PERIOD, which the record's words
do not carry (R371). -/
def State.frameRecord (s : State) (n : Nat) (agrees : Bool) : State :=
  if s.following then
    let ws : List Word := [setFld 0 32 4 1, BitVec.ofNat 36 n, BitVec.ofNat 36 (n / 2 ^ 36)]
    if s.stby.rx.frame.isSome then s.setRx (fun r => { r with bad := true })
    else
      let s := s.setRx (fun r => { r with frame := some n, words := ws })
      if n = s.frame.toNat ∧ agrees then s else (s.raise Reg.STBY_STAT_FRMIS).loseTracking 2
  else s

/-- INPUT_RECORD (R376): the in-range words go into the filling plane. -/
def State.inputRecord (s : State) (first : Nat) (ws : List Word) : State :=
  if s.following then
    let r := s.stby.rx
    if r.open_ ∧ ¬ r.inputs ∧ r.lines.isEmpty ∧ r.edits.isEmpty then
      let s := s.setRx (fun r => { r with inputs := true,
                                          words := r.words ++ [setFld (setFld 0 32 4 2) 0 17 first, BitVec.ofNat 36 ws.length] ++ ws })
      ws.zipIdx.foldl (fun s (v, i) => if s.rimeRun ∧ s.inRange (first + i) then s.fillWrite (first + i) none v else s) s
    else s.setRx (fun r => { r with bad := true })
  else s

/-- LINE_RECORD (R376): the line waits in the line buffer of 1,024 lines (R375). -/
def State.lineRecord (s : State) (line : Nat) (ws : List Word) : State :=
  if s.following then
    let r := s.stby.rx
    if r.open_ ∧ r.edits.isEmpty ∧ ws.length = 16 ∧ r.lines.length < 1024 then
      s.setRx (fun r => { r with lines := r.lines ++ [(line, ws)], words := r.words ++ [setFld (setFld 0 32 4 3) 0 22 line] ++ ws })
    else s.setRx (fun r => { r with bad := true })
  else s

/-- EDIT_RECORD (R376). -/
def State.editRecord (s : State) (c : Nat) (tag : Word) : State :=
  if s.following then
    if s.stby.rx.open_ then
      s.setRx (fun r => { r with edits := r.edits ++ [(c, tag)], words := r.words ++ [setFld (setFld 0 32 4 4) 0 8 c, tag] })
    else s.setRx (fun r => { r with bad := true })
  else s

/-- HEARTBEAT (R369, R377, R378): its CRC, its L and the record order are checked; `synced` tells whether the frame was sent after
the active block's SYNC, which its words do not carry. -/
def State.heartbeat (s : State) (pause incomplete : Bool) (lines : Word) (crc : Nat) (synced : Bool) : State :=
  if s.following then
    let r := s.stby.rx
    let crcOk := !r.lost && decide (crc = crc32c r.words)
    let s := if crcOk then s else s.bump Reg.STBY_CRCERR_COUNT
    if crcOk ∧ r.open_ ∧ lines.toNat = r.lines.length then
      let s := s.setRx (fun r => { r with good := true })
      let s := (s.put Reg.STBY_STAT_MISS 0).put Reg.STBY_LASTF_FRAME (r.frame.getD 0)
      let s := s.put Reg.STBY_WORDS_COUNT (r.words.length + 3)
      if s.stbyState = sbSyncing ∧ ¬ incomplete ∧ synced then s.put Reg.STBY_STAT_STATE sbTracking
      else if s.stbyState = sbTracking ∧ pause then s.put Reg.STBY_STAT_STATE sbPaused
      else if s.stbyState = sbPaused ∧ ¬ pause then s.put Reg.STBY_STAT_STATE sbTracking
      else s
    else s.setRx (fun r => { r with bad := true })
  else s

/-! ## At a tick (R376-R379) -/

/-- A frame's heartbeat is missing or bad (R369, R377). -/
def State.heartbeatMiss (s : State) : State :=
  let s := (s.bump Reg.STBY_MISSCNT_COUNT).bump Reg.STBY_STAT_MISS
  if s.stbyState = sbSyncing then s.loseTracking 1 else s

/-- TAKEOVER (R379). -/
def State.takeover (s : State) : State :=
  let s := ((s.raise Reg.STBY_STAT_TAKEN).put Reg.STBY_CTRL_ROLE 1).put Reg.STBY_STAT_STATE sbActive
  (s.setStby (fun x => { x with takeDue := false, whole := false })).sendInfo srcStandby 0x43 clsU 0

/-- What a tick finds of the frame's stream: the lines and edits to apply, and the range of inputs that a missed frame
makes questionable. -/
structure StreamTick where
  lines : List (Nat × List Word)
  edits : List (Nat × Word)
  good : Bool
  missed : Option (Nat × Nat)
deriving DecidableEq, Repr

/-- The standby role at a tick (R376, R377, R379): judges the frame that ends, and takes over when it is due. -/
def State.judgeStream (s : State) : StreamTick × State :=
  if s.following then
    let r := s.stby.rx
    let whole := s.stby.whole
    let miss := whole && !r.good
    let range := if miss && s.on Reg.STBY_INRANGE_EN then
        some (s.get Reg.STBY_INRANGE_FIRST, s.get Reg.STBY_INRANGE_LAST) else none
    let s := s.setStby (fun x => { x with rx := StreamRx.empty, whole := true })
    let s := if miss then s.heartbeatMiss else s
    let limit := s.get Reg.STBY_MISS_LIMIT_LIMIT
    let due := s.stbyState = sbTracking ∧
      (s.stby.takeDue ∨ (miss ∧ limit ≠ 0 ∧ limit ≤ s.get Reg.STBY_STAT_MISS))
    let s := if due then s.takeover else s
    (⟨if r.good then r.lines else [], if r.good then r.edits else [], r.good, range⟩, s)
  else (⟨[], [], false, none⟩, s)

/-- APPLY_WINDOW (R376): the lines of a good frame are written, and the window is charged to level 0 of every running
cell. -/
def State.applyLines (s : State) (t : StreamTick) : State :=
  if t.good then
    let s := t.lines.foldl (fun s (l, ws) =>
      ws.zipIdx.foldl (fun s (w, i) => if (lineOf (16 * l + i)).isSome then s.writeRaw (16 * l + i) w else s) s) s
    let s := s.put Reg.STBY_LINES_COUNT t.lines.length
    (List.range 256).foldl (fun s c =>
      if s.live c then s.bumpBy (Reg.CELL_LUSED_CYC c 0) (s.get Reg.STBY_WINDOW_CYC) else s) s
  else s

/-- The words of the INPUT record (R371). -/
def State.inputWords (s : State) : List Word :=
  if s.on Reg.STBY_INRANGE_EN then
    let a := s.get Reg.STBY_INRANGE_FIRST
    let n := s.get Reg.STBY_INRANGE_LAST + 1 - a
    [setFld (setFld 0 32 4 2) 0 17 a, BitVec.ofNat 36 n] ++ (List.range n).map (fun i => s.readInput s.rime.lat (a + i))
  else []

/-- The 16 words of a line; none when one is uncorrectable. -/
def State.readLine (s : State) (l : Nat) : Option (List Word) × State :=
  (List.range 16).foldl (fun (acc : Option (List Word) × State) i =>
    let r := acc.2.readWord (acc.2.key (16 * l + i)) (16 * l + i)
    match acc.1, r.1 with
    | some ws, some w => (some (ws ++ [w]), r.2)
    | _, _ => (none, r.2)) (some [], s)

/-- One line of the send set after those before it (R373): its LINE record, or the line left after three reads that a store reached,
or when a word is uncorrectable; none once STBY_MAXL lines have been sent. -/
def State.sendLine (frame most : Nat) (acc : List Word × List Nat × Nat × State) (l : Nat) : List Word × List Nat × Nat × State :=
  if most ≤ acc.2.2.1 then (acc.1, acc.2.1 ++ [l], acc.2.2.1, acc.2.2.2) else
  let r := acc.2.2.2.readLine l
  match (if Config.lineContended frame l then none else r.1) with
  | some ws => (acc.1 ++ [setFld (setFld 0 32 4 3) 0 22 l] ++ ws, acc.2.1, acc.2.2.1 + 1, r.2)
  | none => (acc.1, acc.2.1 ++ [l], acc.2.2.1, r.2.bump Reg.STBY_LRETRY_COUNT)

/-- The LINE records that are sent: their words, the lines left, and the count (R373). -/
def State.sendLines (s : State) (ls : List Nat) : List Word × List Nat × Nat × State :=
  ls.foldl (State.sendLine s.fresh (s.get Reg.STBY_MAXL_LINES)) ([], [], 0, s)

/-- The beats of a frame's records (R313, R370): two words each, the earlier one in the low half. -/
def beatsOf : List Word → List DWord
  | a :: b :: l => dword a b :: beatsOf l
  | [a] => [dword a 0]
  | [] => []

/-- STREAM_SEND (R371-R373): the frame's records, with the send set frozen at the tick and the cells whose edit window
opened at it. -/
def State.streamSend (s : State) (set : List Nat) (edits : List Nat) : State :=
  let m := Config.linesBeforeCutoff s.fresh
  let s := s.tickFresh
  let (lw, failed, n, s) := s.sendLines (set.take m)
  let left := failed ++ set.drop m
  let s := s.setStby (fun x => { x with dirty := left.foldl (fun l x => setInsert x l) x.dirty })
  let num := s.frame.toNat
  let head : List Word := [setFld 0 32 4 1, BitVec.ofNat 36 num, BitVec.ofNat 36 (num / 2 ^ 36)]
  let ed := edits.flatMap (fun c => [setFld (setFld 0 32 4 4) 0 8 c, s.reg (Reg.EDIT_TAG_TAG c).off])
  let body := head ++ s.inputWords ++ lw ++ ed
  let hb : List Word := [setFld (setFld (setFld 0 32 4 5) 1 1 (b2n (s.on Reg.STBY_CTRL_PAUSE))) 0 1 (b2n (!left.isEmpty)),
    BitVec.ofNat 36 n, BitVec.ofNat 36 (crc32c body)]
  let s := s.setStby (fun x => { x with sent := beatsOf (body ++ hb) })
  let s := (s.put Reg.STBY_WORDS_COUNT (body.length + 3)).put Reg.STBY_LINES_COUNT n
  (s.put Reg.STBY_BACKLOG_COUNT left.length).put Reg.STBY_LASTF_FRAME num

end Sys2Proof.Machine
end

