-- ==== Sys2Proof/Machine/Thaw.lean ====
section
/-! DEFINITION. Thaw.lean: power-up and self-test, Hold, and the block reset (20 R499-R514, 22 R542, R551). -/

namespace Sys2Proof.Machine

open Sys2Proof

def State.phase (s : State) : Nat := s.get Reg.THAW_STATUS_PHASE

/-- Thaw runs phase `i` (R499). -/
def State.inPhase (s : State) (i : Nat) : Bool := s.thaw.started && decide (s.phase = i) && !s.on Reg.THAW_STATUS_HOLD

/-- Thaw is complete or has entered Hold: LOCK takes the port's indication without a message (R30). -/
def State.thawLock (s : State) : State := s.putB Reg.FRM_STAT_LOCK s.lockSeen

/-- HOLD (R508). -/
def State.enterHold (s : State) (cause unit detail : Nat) : State :=
  let s := (((s.raise Reg.THAW_STATUS_HOLD).put Reg.THAW_STATUS_CAUSE cause).put Reg.THAW_STATUS_UNIT unit).put
    Reg.THAW_STATUS_DETAIL detail
  let s := { s with thaw := { s.thaw with fuseReq := false } }
  let w := (s.reg Reg.THAW_STATUS_PHASE.off).toNat
  let s := s.send { src := srcThaw, kind := 0xA0, cls := clsF, av := false, pers := true, info := w }
  s.thawLock

/-- Hold for a cause with which no unit or cluster has failed. -/
def State.holdPlain (s : State) (cause : Nat) : State :=
  let u := Config.holdUnit s.fresh
  s.tickFresh.enterHold cause u 0

/-- A phase ends and the next begins (R499); its time is a free value. -/
def State.endPhase (s : State) (i : Nat) : State :=
  let s := s.put (Reg.THAW_PEND_US i) (Config.thawMicros s.fresh)
  s.tickFresh.put Reg.THAW_STATUS_PHASE (i + 1)

/-! ## Phase 1 (R499, R501, R542) -/

/-- THAW_START: RF_REQ rises, and the slave port returns its grant of 32 credits (R318). -/
def State.thawStart (s : State) : State :=
  if s.thaw.started then s
  else { s with thaw := { s.thaw with started := true, fuseReq := true }, dbg := { s.dbg with powered := true },
                slave := { s.slave with credits := 32, qinit := false } }

/-- FUSE_WORD (R542): TYPE 15 closes the stream. -/
def State.fuseWord (s : State) (w : Word) : State :=
  if s.thaw.fuseReq then
    if fld w 32 4 = 15 then { s with thaw := { s.thaw with fuseReq := false } }
    else if s.thaw.fuses.length < 2048 then { s with thaw := { s.thaw with fuses := s.thaw.fuses ++ [w] } }
    else s
  else s

/-- FUSE_STREAM_TIMEOUT (R542). -/
def State.fuseTimeout (s : State) : State := if s.thaw.fuseReq then s.enterHold 1 srcThaw 0 else s

/-- Spare rows and columns of a macro come into use, of 8 and 4 (R487). -/
def State.useSpares (s : State) (m r c : Nat) : State :=
  { s with rpr := { s.rpr with rows := sput 0 m (min 8 (s.rowsUsed m + r)) s.rpr.rows,
                               cols := sput 0 m (min 4 (sget 0 m s.rpr.cols + c)) s.rpr.cols } }

/-- A repair entry of type 1 or 2 takes a spare row or a spare column of its macro (R491, R501). -/
def State.applyRow (s : State) (w : Word) : State :=
  match fld w 32 4 with
  | 1 => s.useSpares (fld w 18 14) 1 0
  | 2 => s.useSpares (fld w 18 14) 0 1
  | _ => s

def badFld (k slot : Nat) : Fld := ⟨(Reg.THAW_BAD_SLOT k).off, 2 * slot, 2⟩

/-- A slot is unusable (R504): retired, and recorded once, with its message (R513). -/
def State.unusable (s : State) (k slot why phase : Nat) : State :=
  if s.get (badFld k slot) ≠ 0 then s
  else ((s.put (badFld k slot) why).retireSlot k slot).sendInfo srcThaw 0xA1 clsC (phase * 512 + 17 * k + slot)

/-- The repair area as it is read (R491): its entries from block 2, or from block 3 where the copy in block 2 fails its CRC,
up to the first erased entry; none for an entry that fails in both. DEDUCED: the end is judged in block 2. -/
def repairList : List RepairEntry → List RepairEntry → List (Option Word)
  | [], _ => []
  | a :: as, bs =>
    let b := bs.headD ⟨erasedWord, erasedWord⟩
    let sound (e : RepairEntry) : Bool := decide (fld e.crc 0 32 = crc32c [e.word, 0])
    if fld a.word 32 4 = 15 then []
    else (if sound a then some a.word else if sound b then some b.word else none) :: repairList as bs.tail

/-- Slots that a type 3 entry retires and no later type 4 entry restores (R491). -/
def retiredSlots (l : List (Option Word)) : List Nat :=
  l.foldl (fun acc e => match e with
    | none => acc
    | some w =>
      if fld w 32 4 = 3 then setInsert (fld w 18 9) acc
      else if fld w 32 4 = 4 then setErase (fld w 18 9) acc
      else acc) []

/-- The repair area (R491, R501 step 3): an entry that fails in both blocks is skipped, with its message. -/
def State.applyRepairs (s : State) (l : List (Option Word)) : State :=
  let s := l.zipIdx.foldl (fun s (e, i) => match e with
    | some w => s.applyRow w
    | none => s.sendInfo srcThaw 0xA3 clsC i) s
  (retiredSlots l).foldl (fun s p => if p < 272 then s.unusable (p / 17) (p % 17) 1 0 else s) s

/-- The hot load (R451). Firn numbers on from the record loaded (DEDUCED, log entry 71). The slots behind it in its block that the
load found blank are prepared (R449). -/
def State.loadHot (s : State) : State :=
  let l := s.firn.hot
  let slots (b from_ : Nat) : List Nat :=
    (List.range' (25 * b) 25).filter (fun n => decide (from_ ≤ n) && !l.any (fun h => decide (h.slot = n)))
  match newestHot l with
  | none => (({ s with firn := { s.firn with prepared := slots 0 0 } }).hotSupply).raise Reg.KEEP_STAT_HOTLOST
  | some h =>
    let s := ({ s with firn := { s.firn with prepared := slots (h.slot / 25) (h.slot + 1) } }).hotSupply
    let s := s.setReg Reg.KEEP_SEQ_SEQ.off (recSeq h.words + 1)
    let s := ((recBody h.words).take 512).zipIdx.foldl (fun s (w, i) => s.setWord (firnBase + i) w) s
    (s.raise Reg.KEEP_STAT_HOTLOAD).setReg Reg.KEEP_HOTSEQ_SEQ.off (recSeq h.words)

/-- A log block as the device holds it: its erase count stands in its BLOCK record, where that is sound (R443). -/
def blockRead (b : FlashBlock) : FlashBlock :=
  if (blockOpened b).isSome then { b with erases := ((recBody b.header).getD 0 0).toNat } else b

/-- The flash device and the repair area: accepted, or refused with the rest of phase 1 left out (R439, R501). -/
def State.takeDevice (s : State) (img : FlashImage) : State :=
  match img.params with
  | some d =>
    if deviceOk d then
      let l := repairList img.repair2 img.repair3
      let s := { s with firn := { s.firn with
        dev := some d, blocks := img.blocks.map blockRead, hot := img.hot, area2 := (img.repair2.take l.length).map some,
        area3 := (img.repair3.take l.length).map some } }
      (s.applyRepairs l).noteHotTime
    else ((s.raise Reg.KEEP_STAT_DEVERR).sendInfo srcFirn 0x60 clsU 0).raise Reg.KEEP_STAT_HOTLOST
  | none => ((s.raise Reg.KEEP_STAT_DEVERR).sendInfo srcFirn 0x60 clsU 0).raise Reg.KEEP_STAT_HOTLOST

/-! ## Memory tests (R502) -/

def macroCode (m : MacroId) : Nat := m.cls.toNat * 512 + m.inst.toNat

/-- Source of the block unit that owns a macro (R502, R458). -/
def macroUnit (m : MacroId) : Nat :=
  match m.cls.toNat with
  | 7 => srcRime
  | 8 => srcQueue
  | 9 => srcFirn
  | 11 => srcVerifier
  | 12 => srcMoraine
  | 13 => srcPort (m.inst.toNat % 8)
  | _ => srcControl

/-- A macro with more defects than spares. -/
def State.badMacro (s : State) (m : MacroId) : State :=
  let s := s.sendInfo srcThaw 0xA2 clsU (macroCode m * 2 ^ 18)
  if m.cls.toNat ≤ 4 then
    if m.inst.toNat < 272 then s.unusable (m.inst.toNat / 17) (m.inst.toNat % 17) 2 2 else s
  else if m.cls.toNat ≤ 6 then
    { s with thaw := { s.thaw with badClusters := setInsert (m.inst.toNat / 16 % 16) s.thaw.badClusters } }
  else s

/-- The spares that BIST allots to the defects of its macros (R487, R502): rows and columns. -/
def State.allotSpares (s : State) (l : List (MacroId × Nat × Nat)) : State :=
  l.foldl (fun s e => s.useSpares (macroCode e.1) e.2.1 e.2.2) s

/-- Block units with a macro that cannot be repaired: Hold with CAUSE 2, which names the first of them (R502, R508). -/
def State.holdMacros (s : State) (units : List Nat) (unit detail : Nat) : State :=
  ({ s with thaw := { s.thaw with failed := units } }).enterHold 2 unit detail

/-- After its test a memory holds zero with valid check bits and tag 0 (R502); `keep` tells which words the test leaves alone. -/
def State.cleared (s : State) (keep : Nat → Bool) : State :=
  { s with mem := s.mem.filter (fun e => keep e.1), ecc := s.ecc.filter (fun e => keep e.1),
           tagA := s.tagA.filter keep, tagB := s.tagB.filter keep }

/-- Keys of Firn RAM (R296). -/
def inFirn (key : Nat) : Bool := decide (firnBase ≤ key) && decide (key < firnBase + 0x1200)

/-- PHASE1_END (R501): the fuse repairs, the flash, the test of Firn RAM (class 9), the hot load. A refused device ends the
steps from the flash on. -/
def State.phase1End (s : State) (img : FlashImage) (bad : List MacroId) (spares : List (MacroId × Nat × Nat)) : State :=
  if s.inPhase 1 ∧ ¬ s.thaw.fuseReq then
    let s := (s.thaw.fuses.foldl State.applyRow s).takeDevice img
    if s.firn.dev.isNone then (s.raise Reg.KEEP_STAT_PH1).endPhase 1
    else
      let s := s.allotSpares (spares.filter (fun e => decide (e.1.cls = 9)))
      match bad.filter (fun m => decide (m.cls = 9)) with
      | m :: rest => ((m :: rest).foldl State.badMacro s).holdMacros [srcFirn] srcFirn (macroCode m)
      | [] => (((s.cleared (fun a => !inFirn a)).loadHot).raise Reg.KEEP_STAT_PH1).endPhase 1
  else s

/-! ## Phases 2 and 3 (R502-R504) -/

/-- The interrupt source tables cannot be repaired: the spec gives them no macro class. -/
def State.badTables (s : State) : State := s.tickFresh.sendInfo srcThaw 0xA2 clsU (Config.irqTables s.fresh % 2 ^ 14 * 2 ^ 18)

/-- What the test of phase 2 leaves behind: every memory but Firn RAM zero, its stored errors gone. -/
def State.testedMemories (s : State) : State :=
  let s := s.cleared inFirn
  { s with ldv := { s.ldv with bufErr := [], stores := [] }, cells := s.cells.filterMap (fun e =>
      let x := { e.2 with icache := [], dcache := [] }
      if x = Cell.reset then none else some (e.1, x)) }

/-- PHASE2_END (R502): every macro but Firn RAM. -/
def State.phase2End (s : State) (bad : List MacroId) (spares : List (MacroId × Nat × Nat)) (irqTables : Bool) : State :=
  if s.inPhase 2 then
    let s := s.testedMemories.allotSpares (spares.filter (fun e => decide (e.1.cls ≠ 9)))
    let bad := bad.filter (fun m => decide (m.cls ≠ 9))
    let s := bad.foldl State.badMacro s
    let own := bad.filter (fun m => decide (7 ≤ m.cls.toNat))
    let d := Config.irqTables s.fresh
    let s := if irqTables then s.badTables else s
    let units := own.map macroUnit ++ (if irqTables then [srcIrq] else [])
    match own with
    | m :: _ => s.holdMacros units (macroUnit m) (macroCode m)
    | [] => if irqTables then s.holdMacros units srcIrq d else s.endPhase 2
  else s

/-- Unusable slots of a cluster. -/
def State.badSlots (s : State) (k : Nat) : List Nat := (List.range 17).filter (fun i => decide (s.get (badFld k i) ≠ 0))

/-- The map of a cluster from its usable slots (R473, R504); a cluster that cannot be mapped becomes DEFECTIVE. -/
def State.buildMap (s : State) (k : Nat) : State :=
  let bad := s.badSlots k
  let low := bad.filter (fun i => decide (i < 16))
  if low.length ≥ 2 ∨ (low.length = 1 ∧ bad.contains 16) ∨ s.thaw.badClusters.contains k then
    (if bad.contains 16 then (s.put (Reg.RPR_SP_SLOT k) 31).spareIdle k else s).markDefective k
  else
    let s := (List.range 16).foldl (fun s p => s.put (Reg.CELL_MAP_SLOT (16 * k + p)) (if low.contains p then 16 else p)) s
    let spare := if low.isEmpty ∧ ¬ bad.contains 16 then 16 else 31
    let s := if bad.contains 16 then s else s.put (slotFld k 16) (if spare = 16 then 1 else 0)
    (s.put (Reg.RPR_SP_SLOT k) spare).spareIdle k

/-- Builds the map of every cluster that is not DEFECTIVE; every cluster DEFECTIVE is Hold (R504). -/
def State.buildMaps (s : State) : State :=
  let s := (List.range 16).foldl (fun s k => if s.runState k = runDefective then s else s.buildMap k) s
  s.noteSpares

def State.allDefective (s : State) : Bool := (List.range 16).all (fun k => decide (s.runState k = runDefective))

/-- PHASE3_END (R503, R504). -/
def State.phase3End (s : State) (slots : List (Nat × Nat)) (clusters units : List Nat) : State :=
  if s.inPhase 3 then
    let s := slots.foldl (fun s (k, i) => if i ≤ 16 then s.unusable k i 3 3 else s) s
    match units with
    | u :: _ => ({ s with thaw := { s.thaw with failed := units } }).enterHold 3 u 0
    | [] =>
      let s := { s with thaw := { s.thaw with badClusters := clusters.foldl (fun l k => setInsert k l) s.thaw.badClusters } }
      let s := s.buildMaps
      if s.allDefective then s.holdPlain 7 else s.endPhase 3
  else s

/-! ## Phases 4 and 5 (R505-R507) -/

/-- MCDONE (R505). -/
def State.microDone (s : State) : State :=
  if s.inPhase 4 then
    if (List.range 16).all (fun k => decide (s.runState k = runDefective) || bit (s.reg Reg.LDV_VALID_V.off) k) then
      s.endPhase 4
    else s.holdPlain 5
  else s

/-- Clears each cell store and each bank after the self-check (R506). -/
def State.clearCells (s : State) : State :=
  let keep (a : Nat) : Bool := decide (a < 0x8000000)
  { s with
    mem := s.mem.filter (fun e => keep e.1), ecc := s.ecc.filter (fun e => keep e.1),
    tagA := s.tagA.filter keep, tagB := s.tagB.filter keep,
    cells := s.cells.filterMap (fun e =>
      let x := { e.2 with banks := [], staging := none }
      if x = Cell.reset then none else some (e.1, x)) }

/-- The cluster in which more than 8 usable slots fail with one signature (R506). -/
def State.imageFault (s : State) (fails : List (Nat × Nat × Nat)) : Option Nat :=
  (List.range 16).find? (fun k =>
    let l := fails.filter (fun f => decide (f.1 = k) && decide (s.get (badFld k f.2.1) = 0))
    l.any (fun f => decide ((l.filter (fun g => decide (g.2.2 = f.2.2))).length > 8)))

/-- PHASE5_END (R506, R507). -/
def State.phase5End (s : State) (fails : List (Nat × Nat × Nat)) : State :=
  if s.inPhase 5 then
    let s := s.clearCells
    match s.imageFault fails with
    | some k => s.enterHold 6 (srcCluster k) k
    | none =>
      let s := fails.foldl (fun s (k, i, _) => if i ≤ 16 then s.unusable k i 3 5 else s) s
      let s := s.buildMaps
      if s.allDefective then s.holdPlain 7 else (s.endPhase 5).thawLock.moveAllFailed
  else s

/-- PHASE_TIMEOUT (R499, R505). -/
def State.phaseTimeout (s : State) : State :=
  if s.thaw.started ∧ s.phase ≤ 5 ∧ ¬ s.on Reg.THAW_STATUS_HOLD then
    if s.phase = 4 then s.holdPlain (if s.thaw.loading then 5 else 4) else s.holdPlain 1
  else s

/-! ## Requests during self-test (R510) -/

/-- The area of an address is under test, so that a slave-port request receives RETRY; the queue channels and the interrupt
writes are served from RUN-READY on (R408, R507, R512). A cell store is refused in phases 3 and 5 only while its own slot is
tested: one that is not retired (R503, R506). -/
def State.underTest (s : State) (pa : Nat) : Bool :=
  if s.on Reg.THAW_STATUS_HOLD then false
  else
    let ph := s.phase
    let early := decide (ph ≤ 3)
    if pa < 0x100000 then
      if pa < 0x1000 then false
      else if (0x5100 ≤ pa ∧ pa < 0x5500) ∨ (0x12000 ≤ pa ∧ pa < 0x12005) then decide (ph ≤ 5)
      else if 0x6000 ≤ pa ∧ pa < 0x7000 then decide (ph = 1)
      else if 0x8000 ≤ pa ∧ pa < 0x9000 then false
      else if 0xA000 ≤ pa ∧ pa < 0xA100 then false
      else if 0xA100 ≤ pa ∧ pa < 0xB000 then early || decide (ph = 5)
      else if 0xC0000 ≤ pa then early || decide (ph = 5)
      else early
    else match s.area pa with
      | .store key =>
        let phys := (key - 0x8000000) / 0x10000
        decide (ph ≤ 2) || ((decide (ph = 3) || decide (ph = 5)) && decide (s.slotState (phys / 17) (phys % 17) ≠ 2))
      | .firn => decide (ph = 1)
      | .cluster _ => early
      | .image => early
      | .queues => early
      | _ => false

/-- The block unit whose registers or memory hold an address of a master's access. -/
def unitAt (pa : Nat) : Option Nat :=
  if pa < 0x1000 then some srcControl
  else if pa < 0x2000 then some srcFrame
  else if pa < 0x3000 then some srcMoraine
  else if pa < 0x4000 then some srcRepair
  else if pa < 0x5000 then some srcRime
  else if pa < 0x6000 then some srcQueue
  else if pa < 0x7000 then some srcFirn
  else if pa < 0x8000 then some (srcPort ((pa - 0x7000) / 0x200))
  else if 0x9000 ≤ pa ∧ pa < 0xA000 then some srcStandby
  else if 0xA100 ≤ pa ∧ pa < 0xB000 then some srcVerifier
  else if 0x10000 ≤ pa ∧ pa < 0x13000 then some srcIrq
  else if 0x20000 ≤ pa ∧ pa < 0x30000 then some srcControl
  else if 0x30000 ≤ pa ∧ pa < 0x34000 then some (srcPort ((pa - 0x30000) / 0x800))
  else if imageBase ≤ pa ∧ pa < queueBase then some srcRime
  else if queueBase ≤ pa ∧ pa < firnBase then some srcQueue
  else if firnBase ≤ pa ∧ pa < firnBase + 0x1200 then some srcFirn
  else none

/-- In Hold, a unit whose test failed answers ERROR (R508). -/
def State.unitFailed (s : State) (pa : Nat) : Bool :=
  s.on Reg.THAW_STATUS_HOLD && (match unitAt pa with
    | some u => s.thaw.failed.contains u
    | none => false)

/-! ## Block reset (R11, R516, R520, R546, R551) -/

/-- A register of the debug domain, which a block reset leaves (R516, R535). -/
def debugReg (off : Nat) : Bool :=
  (decide (0x8000 ≤ off) && decide (off < 0x9000) && decide (off ≠ 0x8001)) ||
  (decide (0xC0000 ≤ off) && decide (0x1C0 ≤ (off - 0xC0000) % 0x400) && decide ((off - 0xC0000) % 0x400 < 0x1D0))

/-- The packet in progress is discarded and the bit cell returns to 1 us (R515). -/
def State.dropPacket (s : State) : State :=
  ({ s with dbg := { s.dbg with last := none, slots := [] } }).put Reg.DBG_STAT_RATE 0

/-- BLOCK_RESET: everything but the debug domain, the boundary inputs and the waiting commands takes its reset value. -/
def State.blockReset (s : State) (drst : Bool) : State :=
  let s' : State := { State.reset with
    pending := s.pending, ctl := s.ctl.filter (fun e => debugReg e.1), dbg := { s.dbg with powered := s.dbg.powered && drst }, fresh := s.fresh,
    frm := { FrameClock.reset with lockPin := s.frm.lockPin, ppsOk := s.frm.ppsOk },
    firn := { Firn.reset with pfOk := s.firn.pfOk, pfWarn := s.firn.pfWarn } }
  let s' := s'.put Reg.DBG_STAT_EMUL 0
  if drst then (s'.put Reg.DBG_STAT_ATT 0).dropPacket else s'

end Sys2Proof.Machine
end

