-- ==== Sys2Proof/Machine/RegWrite.lean ====
section
/-! DEFINITION. RegWrite.lean: reads and writes of block control space (23 R555-R561), one operation each, with the
effects that the chapters give a write of a register. -/

namespace Sys2Proof.Machine

open Sys2Proof

/-! ## Views -/

/-- CELL_STATE with READY and MTASK as the scheduler shows them (R277, R286). -/
def State.cellState (s : State) (c : Nat) : Word :=
  let ready := (List.range 8).foldl (fun a n => if s.ready c n then a + 2 ^ n else a) 0
  let mtask := !s.throughput c && (List.range 8).any (fun n => decide (s.get (Reg.CELL_LCFG_NTASK c n) > 0))
  setFld (setFld (s.reg (Reg.CELL_STATE_BANK c).off) 14 8 ready) 34 1 (b2n mtask)

/-- CELL_MASK: the mask of the running bank, 0 when the cell is idle (R262). -/
def State.cellMask (s : State) (c : Nat) : Word :=
  if s.running c = bankIdle then 0 else BitVec.ofNat 36 (s.cur c).mask.toNat

/-- The effective debug level (R523). -/
def State.debugLevel (s : State) : Nat :=
  let a := s.get ⟨0x8001, 0, 2⟩
  let b := s.dbg.fuse.toNat
  min (if a = 3 then 0 else a) (if b = 3 then 0 else b)

/-- DBG_STAT (R535): a block reset is in progress until Thaw starts, and what crosses from the unpowered block domain is clamped
(R536). -/
def State.dbgStat (s : State) : Word :=
  let w := s.reg Reg.DBG_STAT_EMUL.off
  let w := setFld (setFld w 34 2 s.debugLevel) 32 2 s.dbg.fuse.toNat
  if s.dbg.powered then
    let w := setFld (setFld (setFld w 30 2 (s.get ⟨0x8001, 0, 2⟩)) 28 1 1) 27 1 (b2n (!s.thaw.started))
    setFld (setFld w 26 1 (s.get Reg.THAW_STATUS_HOLD)) 22 4 (s.get Reg.THAW_STATUS_PHASE)
  else w

/-- Counters that run by themselves take the value at which a read finds them. -/
def State.refresh (s : State) (off : Nat) : State :=
  if off = 0x100E ∨ off = 0x100F then s.readTime else
  if 0xC0000 ≤ off then
    let o := (off - 0xC0000) % 0x400
    if 0x138 ≤ o ∧ o < 0x140 then s.readTimer ((off - 0xC0000) / 0x400) (o - 0x138) else s
  else if 0x80000 ≤ off ∧ off < 0x90000 then
    let k := (off - 0x80000) / 0x1000
    if (off % 0x1000 = 0x20 ∨ off % 0x1000 = 0x21) ∧ s.power k ≤ 1 then s.takeCycles k else s
  else s

/-- A word of a cell's CSR window whose cluster is without power, so that the crossing is clamped (R536). -/
def State.clamped (s : State) (off : Nat) : Bool :=
  decide (0xC0000 ≤ off) && (let k := clusterOf ((off - 0xC0000) / 0x400)
    inCellDomain k off && decide (s.power k = pwOff) && !s.on (emulFld k))

/-- A word of control space as a read shows it: WO fields and unassigned words read 0 (R8, R296). -/
def State.regView (s : State) (off : Nat) : Word :=
  match regRow off with
  | none => 0
  | some row =>
    let w := s.reg off &&& ~~~ BitVec.ofNat 36 row.wo
    if s.clamped off then resetWord off
    else if 0xC0000 ≤ off then
      let c := (off - 0xC0000) / 0x400
      match (off - 0xC0000) % 0x400 with
      | 0x48 => s.cellMask c
      | 0x150 => s.cellState c
      | _ => w
    else match off with
      | 0x10 => (List.range 16).foldl (fun w k => setFld w k 1 (b2n (s.reg (cluBase k + 0x31) ≠ 0))) w
      | 0x100E => BitVec.ofNat 36 (s.frm.now / 65536)
      | 0x100F => BitVec.ofNat 36 (s.frm.now / 65536 / 2 ^ 36 % 2 ^ 28)
      | 0x8000 => s.dbgStat
      | _ =>
        if 0x7000 ≤ off ∧ off < 0x8000 ∧ off % 0x200 = 1 then
          let n := (off - 0x7000) / 0x200
          setFld w 1 1 (b2n (s.rxOnly n))
        else w

/-- The side effects of a read: RTC fields clear (R8), MOR_FIRST0 is noted (R463), words 0 and 22 of a receive buffer
move the port's lock (R422). -/
def State.readEffect (s : State) (off : Nat) : State :=
  match regRow off with
  | none => s
  | some row =>
    let s := if row.rtc = 0 then s else s.setReg off (s.reg off &&& ~~~ BitVec.ofNat 36 row.rtc)
    if off = Reg.MOR_FIRST0_MSG.off then s.readFirst0
    else if 0x30000 ≤ off ∧ off < 0x34000 then
      let n := (off - 0x30000) / 0x800
      let b := off % 0x800 / 32
      if off % 32 = 0 then s.lockBuffer n b else if off % 32 = 22 then s.releaseLock n b else s
    else s

/-- A read of a word of control space with its side effects. -/
def State.regRead (s : State) (off : Nat) : Word × State :=
  let s := s.refresh off
  (s.regView off, s.readEffect off)

/-- Hidden tag of a control-space doubleword: only words 4 to 7 of an entry register have one (R245). -/
def entryTagged (off : Nat) : Bool :=
  decide (0xC0000 ≤ off) && decide (off < 0x100000) && (let o := (off - 0xC0000) % 0x400
    decide (0x80 ≤ o) && decide (o < 0xC0) && decide (4 ≤ o % 8))

/-- A word of CELL_SEEDbk or CELL_SEEDV (R251). -/
def seedReg (off : Nat) : Bool :=
  decide (0xC0000 ≤ off) && decide (off < 0x100000) && (let o := (off - 0xC0000) % 0x400
    decide (0xC0 ≤ o) && decide (o ≤ 0xD8))

/-! ## Writes -/

/-- A write by the access classes of R8 alone. -/
def State.plainWrite (s : State) (off : Nat) (v : Word) : State :=
  match regRow off with
  | none => s
  | some row =>
    let rw := BitVec.ofNat 36 row.rw
    let w := (s.reg off &&& ~~~ rw) ||| (v &&& rw)
    let w := w &&& ~~~ (v &&& BitVec.ofNat 36 row.w1c)
    s.setReg off (w ||| (v &&& BitVec.ofNat 36 row.w1s))

/-- A status bit stays set while its error pin is high (R9, R465). -/
def State.holdPins (s : State) : State := s.pins.foldl (fun s src => s.raise (pinFld src)) s

/-- The five checks of R306, as BLK_RTERR.CAUSE. -/
def regionCause (e : Region) : Option Nat :=
  let lo := e.vbase * 64
  let hi := lo + e.size * 64
  let area := targetArea e.pbase (e.size * 64)
  if e.size = 0 ∨ e.size > 2 ^ 26 then some 1
  else if hi > 2 ^ 32 ∨ hi ≤ 0x4000 then some 2
  else if area.isNone then some 3
  else if e.cache = 3 then some 4
  else if e.dev ∧ area ≠ some fabricBase then some 5
  else none

/-- The entry that the four words of the region table at `off` spell (R305). -/
def State.regionAt (s : State) (off : Nat) (w0 : Word) : Region :=
  let w3 := s.reg (off + 3)
  { vbase := fld w0 6 26, size := fld (s.reg (off + 1)) 0 27,
    pbase := fld (s.reg (off + 2)) 6 30 * 64 + fld w3 0 14 * 2 ^ 36,
    ret := bit w3 35, dev := bit w3 34, cache := BitVec.ofNat 2 (fld w3 32 2) }

/-- A fill through an entry that is invalidated leaves no line behind, and brings the words that an instruction waits for all the
same (R309). -/
def FabTx.unline (t : FabTx) (r : Nat) : FabTx :=
  match t.purpose with
  | .load id (some v) => if v = r then { t with purpose := .load id none } else t
  | .words (some v) => if v = r then { t with purpose := .words none } else t
  | .prefetch v => if v = r then { t with purpose := .dropped } else t
  | .code v => if v = r then { t with purpose := .words none } else t
  | _ => t

/-- A cell drops what an invalidated entry gave it (R303, R308, R309): its cache lines, and the region sets of its domain, which
then wait for their refill. -/
def Cell.forget (x : Cell) (r : Nat) : Cell :=
  { x with
    dcache := x.dcache.filter (fun l => decide (l.via ≠ r)), icache := x.icache.filter (fun l => decide (l.via ≠ r)),
    sets := x.sets.filter (fun e => decide (e.2.toNat ≠ r / 8)) }

/-- The invalidation of an entry reaches every cell (R309). -/
def State.invalidate (s : State) (r : Nat) : State :=
  let s := { s with fab := { s.fab with txs := s.fab.txs.map (fun t => t.unline r) } }
  (List.range 256).foldl (fun s c =>
    let x := s.cell c
    if x.dcache = [] ∧ x.icache = [] ∧ x.sets = [] then s else s.setCell c (x.forget r)) s

/-- REGION_INSTALL (R306, R309): a write of word 0 of entry `r` = 8 x domain + region. -/
def State.regionInstall (s : State) (r : Nat) (v : Word) : State :=
  let off := 0x20000 + 4 * r
  let e := s.regionAt off v
  let bad := if bit v 35 then regionCause e else none
  let s := s.plainWrite off v
  match bad with
  | some cause =>
    let s := s.put ⟨off, 35, 1⟩ 0
    let s := s.setReg Reg.BLK_RTERR_VALID.off (setFld (setFld (setFld 0 35 1 1) 3 9 r) 0 3 cause)
    if (slookup r s.installed).isSome then { s with installed := serase r s.installed }.invalidate r else s
  | none =>
    let s := { s with installed := if bit v 35 then sinsert r e s.installed else serase r s.installed }
    s.invalidate r

/-- Frame settings, RPR, Rime, standby, load verifier: registers whose writes have conditions or effects. -/
def State.writeFrm (s : State) (off : Nat) (v : Word) : State :=
  if off = 0x1000 then s.writeFrmCtrl v
  else if (0x1002 ≤ off ∧ off ≤ 0x1007) ∨ off = 0x100A ∨ off = 0x100B then
    if s.allStopped then s.plainWrite off v else s.raise Reg.FRM_STAT_WERR
  else s.plainWrite off v

def State.writeMor (s : State) (off : Nat) (v : Word) : State :=
  if off = Reg.MOR_ACK_SRC.off then s.writeAck v
  else if off = Reg.MOR_LOGPOP_N.off then s.logPop (fld v Reg.MOR_LOGPOP_N.lo Reg.MOR_LOGPOP_N.len)
  else s.plainWrite off v

def State.writeRpr (s : State) (off : Nat) (v : Word) : State :=
  if off = Reg.RPR_CMD_OP.off then s.writeRprCmd (fld v 32 4) (fld v 0 32)
  else if 0x3050 ≤ off ∧ off < 0x3060 then s.writeSpare (off - 0x3050) v
  else if 0x3060 ≤ off ∧ off < 0x3070 then s.writeClk (off - 0x3060) v
  else s.plainWrite off v

def State.writeImg (s : State) (off : Nat) (v : Word) : State :=
  if 0x4020 ≤ off ∧ off < 0x407F ∧ s.rimeRun then s.raise Reg.IMG_STAT_WERR else s.plainWrite off v

def State.writeQm (s : State) (off : Nat) (v : Word) : State :=
  if 0x5100 ≤ off ∧ off < 0x5500 ∧ off % 32 = 0x10 then
    let ch := (off - 0x5100) / 32
    match fld v 16 2 with
    | 1 => s.channelStart ch (fld v 0 16) false
    | 2 => s.channelStart ch (fld v 0 16) true
    | _ => s.channelIllegal ch
  else s.plainWrite off v

def State.writeKeepReg (s : State) (off : Nat) (v : Word) : State :=
  if off = 0x6000 then s.writeKeepCfg v
  else if off = 0x6002 then s.writeKeepCmd (fld v 32 4) (fld v 0 13)
  else if off = 0x6006 ∨ off = 0x6007 then s.setReg off v
  else s.plainWrite off v

def State.writePort (s : State) (n o : Nat) (v : Word) : State :=
  let off := bpBase n + o
  let en := s.on (Reg.BP_CTRL_EN n)
  match o with
  | 0 => s.writePortCtrl n v
  | 2 => if en then s.raise (Reg.BP_STAT_WERR n) else s.plainWrite off v
  | 3 => if en then s.raise (Reg.BP_STAT_WERR n) else s.plainWrite off v
  | 4 =>
    if en then (s.put (Reg.BP_TDC_TDCE n) (fld v 35 1)).raise (Reg.BP_STAT_WERR n) else s.plainWrite off v
  | _ => (s.noteFilter n o).plainWrite off v

def State.writeStby (s : State) (off : Nat) (v : Word) : State :=
  if off = 0x9000 then s.writeStbyCtrl v
  else if 0x9002 ≤ off ∧ off ≤ 0x9005 ∧ s.get Reg.STBY_CTRL_ROLE % 3 ≠ 0 then s.raise Reg.STBY_STAT_WERR
  else s.plainWrite off v

def State.writeThaw (s : State) (off : Nat) (v : Word) : State :=
  if off = 0xA000 then if bit v 0 then s.microDone else s
  else if off = 0xA100 then s.writeLdvCtrl v
  else if off = 0xA102 then s.ldvReceive v
  else if off = 0xA103 then if fld v 0 18 < s.get Reg.LDV_MINSEQ_MIN then s else s.plainWrite off v
  else s.plainWrite off v

def State.writeIrq (s : State) (off : Nat) (v : Word) : State :=
  let src := fld v 0 12
  if off < 0x12000 then
    if off % 2 = 0 then s.irqConfigure ((off - 0x10000) / 2) (fun s => s.plainWrite off v) else s.plainWrite off v
  else match off with
    | 0x12000 => s.irqAssert src
    | 0x12001 => s.irqDeassert src
    | 0x12002 => s.irqPulse src
    | 0x12003 => s.irqPendset src
    | 0x12004 => s.irqPendclr src
    | _ => s.plainWrite off v

/-- The window of a cluster (R559). -/
def State.writeCluster (s : State) (k o : Nat) (v : Word) : State :=
  match o with
  | 0x10 => s.writeRunCtl k v
  | 0x12 => s.writePwrCtl k v
  | 0x31 => (s.plainWrite (cluBase k + o) v).holdPins
  | _ => s.plainWrite (cluBase k + o) v

/-- A cell's CSR window takes writes: its cluster is not DEFECTIVE (R560), and the word's domain has power (R536). -/
def State.cellTakes (s : State) (off : Nat) : Bool :=
  decide (s.runState (clusterOf ((off - 0xC0000) / 0x400)) ≠ runDefective) && !s.clamped off

/-- The window of a logical cell (R560): a write to a cell of a DEFECTIVE cluster takes effect at the next block reset, which
only the debug registers outlast. -/
def State.writeCell (s : State) (c o : Nat) (v : Word) : State :=
  let off := cellBase c + o
  if ¬ s.cellTakes off then
    if s.runState (clusterOf c) = runDefective ∧ 0x1C0 ≤ o ∧ o < 0x1CC then
      { s with dbg := { s.dbg with late := s.dbg.late ++ [(off, v)] } }
    else s
  else if o = 0x48 then s
  else if o = 0x4A then if bit v 0 then s.warmReset c else s
  else if 0x120 ≤ o ∧ o < 0x128 then s.writeLcfg c (o - 0x120) v
  else if o = 0x180 then s.writeEditCtrl c v
  else if o = 0x182 ∨ o = 0x183 then
    if s.get (Reg.EDIT_STAT_STATE c) = edArmed then s else s.plainWrite off v
  else
    let s := s.plainWrite off v
    if entryTagged off then s.setEntryTag off false else s

/-- REGISTER_WRITE (R556): one word of block control space under nonet enables. True when a rule refuses it: a write
whose nonet enables are not all set, but for the data words of a message buffer, and a cell's or the debug port's write
of DBG_GRANT (R524). The lines that block units drive follow (R381). -/
def State.regWrite (s : State) (m : Master) (off : Nat) (v : Word) (en : BitVec 4) : Bool × State :=
  if 0x30000 ≤ off ∧ off < 0x34000 ∧ 7 ≤ off % 32 ∧ off % 32 ≤ 22 then
    (false, (s.writePortRam ((off - 0x30000) / 0x800) (off % 0x800) v en).settle)
  else if en ≠ 0xF then (true, s)
  else if off = 0x8001 ∧ m ≠ .slave then (true, s)
  else if (regRow off).isNone then (false, s)
  else
    (false, State.settle <|
      if 0xC0000 ≤ off then s.writeCell ((off - 0xC0000) / 0x400) ((off - 0xC0000) % 0x400) v
      else if 0x80000 ≤ off then s.writeCluster ((off - 0x80000) / 0x1000) (off % 0x1000) v
      else if 0x30000 ≤ off then s.writePortRam ((off - 0x30000) / 0x800) (off % 0x800) v en
      else if 0x20000 ≤ off then
        if off % 4 = 0 then s.regionInstall ((off - 0x20000) / 4) v else s.plainWrite off v
      else if 0x10000 ≤ off then s.writeIrq off v
      else if 0xA000 ≤ off then s.writeThaw off v
      else if 0x9000 ≤ off then s.writeStby off v
      else if 0x8000 ≤ off then s.plainWrite off v
      else if 0x7000 ≤ off then s.writePort ((off - 0x7000) / 0x200) ((off - 0x7000) % 0x200) v
      else if 0x6000 ≤ off then s.writeKeepReg off v
      else if 0x5000 ≤ off then s.writeQm off v
      else if 0x4000 ≤ off then s.writeImg off v
      else if 0x3000 ≤ off then s.writeRpr off v
      else if 0x2000 ≤ off then s.writeMor off v
      else if 0x1000 ≤ off then s.writeFrm off v
      else (s.plainWrite off v).holdPins)

/-- BLOCK_RESET with the writes that waited for it (R560). -/
def State.resetBlock (s : State) (drst : Bool) : State :=
  let t := s.blockReset drst
  s.dbg.late.foldl (fun t e => t.plainWrite e.1 e.2) { t with dbg := { t.dbg with late := [] } }

end Sys2Proof.Machine
end

