-- ==== Sys2Proof/Machine/Bus.lean ====
section
/-! DEFINITION. Bus.lean: reads and writes of the block's addresses by any master (11 R296-R300, R313, R318, R319; 12 R323). -/

namespace Sys2Proof.Machine

open Sys2Proof

/-- The answer to a read of one word. -/
inductive ReadRes where
  | word (w : Word) (tag : Bool)
  /-- uncorrectable: the memory's report has been made -/
  | bad
  | error
  | retry
deriving DecidableEq, Repr

/-- The answer to a write of one word. -/
inductive WriteRes where
  | done
  | error
  | retry
deriving DecidableEq, Repr

/-- A cluster without power, or one that still clears its memories after power-up (R547). -/
def State.unpowered (s : State) (k : Nat) : Bool := (decide (s.power k = pwOff) && !s.on (emulFld k)) || s.pwr.upDue.contains k

/-- The cluster that holds an address, if a cluster does. -/
def State.clusterAt (s : State) (pa : Nat) : Option Nat :=
  match s.area pa with
  | .store key => some ((key - 0x8000000) / 0x10000 / 17)
  | .cluster k => some k
  | _ => none

/-- The address lies in a memory of an unpowered cluster, or in the CSR window of a cell whose cluster leaves Off (R547). -/
def State.busBusy (s : State) (pa : Nat) : Bool :=
  match s.clusterAt pa with
  | some k => s.unpowered k
  | none => decide (0xC0000 ≤ pa ∧ pa < 0x100000) &&
      (let k := clusterOf ((pa - 0xC0000) / 0x400)
       s.pwr.upDue.contains k && inCellDomain k pa)

/-- A write to this address is answered RETRY: unpowered, or the register of a busy command channel (R409). -/
def State.writeBusy (s : State) (pa : Nat) : Bool :=
  s.busBusy pa || (decide (0x5100 ≤ pa ∧ pa < 0x5500) && s.on (Reg.QM_CHST_BUSY ((pa - 0x5100) / 32)))

/-- Reads one word for a master. -/
def State.busRead (s : State) (pa : Nat) : ReadRes × State :=
  if s.busBusy pa then (.retry, s)
  else if s.unitFailed pa then (.error, s)
  else match s.area pa with
    | .control =>
      match s.eccAt pa with
      | some true => (.bad, (s.sendAddr (memSource pa) 0x02 clsU pa).candidate pa pa)
      | e =>
        let s := if e.isSome then (s.sendAddr (memSource pa) 0x01 clsC pa).corrected pa pa false else s
        let (w, s) := s.regRead pa
        (.word w (entryTagged pa && s.entryTag pa), s)
    | .image =>
      match s.readWord pa pa with
      | (some _, s) => (.word (s.imageRead (pa - imageBase)) false, s)
      | (none, s) => (.bad, s)
    | .store key =>
      match s.readWord key pa with
      | (some w, s) => (.word w (s.tagOf key), s)
      | (none, s) => (.bad, s)
    | .cluster _ =>
      match s.readWord pa pa with
      | (some w, s) => (.word w (s.tagOf pa), s)
      | (none, s) => (.bad, s)
    | .queues =>
      if s.eccAt pa = some true then (.bad, s.touchDesc ((pa - queueBase) / 4))
      else match s.readWord pa pa with
        | (some w, s) => (.word w false, s)
        | (none, s) => (.bad, s)
    | .firn =>
      match s.readWord pa pa with
      | (some w, s) => (.word w false, s)
      | (none, s) => (.bad, s)
    | .fabric => (.error, s)
    | .hole => (.error, s)

/-- What reading the tag of a word does when its two copies disagree (R245). -/
def State.readTag (s : State) (pa : Nat) : State :=
  match s.area pa with
  | .store key => s.tagCheck key (memSource key) pa
  | .cluster k => s.tagCheck pa (srcCluster k) pa
  | .control => if entryTagged pa then s.entryCheck pa else s
  | _ => s

/-- Writes one word for a master under nonet enables; `tag` is the hidden tag written with it (R246). A write of a log word changes
nothing (R464). -/
def State.busWrite (s : State) (m : Master) (pa : Nat) (w : Word) (en : BitVec 4) (tag : Bool) (self : Option Nat) :
    WriteRes × State :=
  if s.writeBusy pa then (.retry, s)
  else if s.unitFailed pa then (.error, s)
  else match s.area pa with
    | .control =>
      match s.regWrite m pa w en with
        | (true, s) => (.error, s)
        | (false, t) =>
          let t := if tag ∧ entryTagged pa ∧ s.cellTakes pa then t.setEntryTag pa true else t
          (.done, if en = 0xF ∧ ¬ (0x2400 ≤ pa ∧ pa < 0x2800) then t.clearEcc pa else t)
    | .image =>
      if s.imageWritable (pa - imageBase) then (.done, s.writeWord pa w en false) else (.error, s)
    | .store key => (.done, s.writeWord key w en tag)
    | .cluster _ => (.done, (s.writeWord pa w en tag).coherent pa self)
    | .queues =>
      match s.descWrite ((pa - queueBase) / 4) ((pa - queueBase) % 4) w en with
      | (true, s) => (.done, s)
      | (false, s) => (.error, s)
    | .firn => if s.firnWritable (pa - firnBase) then (.done, s.writeWord pa w en false) else (.error, s)
    | .fabric => (.error, s)
    | .hole => (.error, s)

/-- Gives the slave port's response to a beat (R318, R319, R322). -/
def State.answer (s : State) (tag : BitVec 8) (a : Answer) : State :=
  let s := if a = .error then s.bump Reg.BLK_SPERR_COUNT else s
  { s with slave := { s.slave with last := some (tag, a) } }

/-- One word of a beat that a read enables (R318): a word that the beat does not enable is not read. -/
def State.beatRead (s : State) (pa : Nat) (en : BitVec 4) : Option Word × State :=
  if en = 0 then (some 0, s)
  else match s.busRead pa with
    | (.word w _, s) => (some w, s)
    | (.retry, s) => (none, s)
    | (.bad, s) => (none, s)
    | (.error, s) => (none, s)

/-- One word of a beat that a write enables; false when the unit refuses it. -/
def State.beatWrite (s : State) (pa : Nat) (w : Word) (en : BitVec 4) : Bool × State :=
  if en = 0 then (true, s)
  else match s.busWrite .slave pa w en false none with
    | (.done, s) => (true, s)
    | (.retry, s) => (true, s)
    | (.error, s) => (false, s)

/-- A beat, which is one indivisible access to the doubleword at `pa` (R318), even word first: its data for a read. -/
def State.readBeat (s : State) (pa : Nat) (en : BitVec 8) : Option DWord × State :=
  let (a, s) := s.beatRead pa (en.extractLsb' 0 4)
  let (b, s) := s.beatRead (pa + 1) (en.extractLsb' 4 4)
  match a, b with
  | some a, some b => (some (dword a b), s)
  | _, _ => (none, s)

/-- A beat of a write: false when a unit refuses it. A beat to a queue descriptor is refused as a whole (R400). -/
def State.writeBeat (s : State) (pa : Nat) (en : BitVec 8) (d : DWord) : Bool × State :=
  let a := s.beatWrite pa (dlo d) (en.extractLsb' 0 4)
  let b := a.2.beatWrite (pa + 1) (dhi d) (en.extractLsb' 4 4)
  if s.area pa = .queues ∧ ¬ s.unitFailed pa ∧ ¬ (a.1 && b.1) then
    (false, ((s.touchDesc ((pa - queueBase) / 4)).raise Reg.QM_STAT_WERR).bump Reg.QM_WERR_COUNT)
  else (a.1 && b.1, b.2)

/-- SLAVE_MEMORY_ACCESS (R297, R313, R314, R318, R319): the beats of a transaction in order, and one response: RETRY where a
beat must wait, ERROR where one is refused or meets an uncorrectable word, which returns no data. A request whose beats find
no credit is discarded (R546); the credits of a request that is served come back to the chip at once. -/
def State.slaveAccess (s : State) (tag : BitVec 8) (addr : Nat) (wr : Bool) (beats : List (BitVec 8 × DWord)) : State :=
  let pa := addr - addr % 2
  let at_ := beats.zipIdx.map (fun e => (pa + 2 * e.2, e.1))
  if s.slave.credits < (if wr then 1 + beats.length else 1) then s
  else if at_.any (fun e => s.underTest e.1 || (if wr then s.writeBusy e.1 else s.busBusy e.1)) then s.answer tag .retry
  else if wr then
    let r := at_.foldl (fun (acc : Bool × State) e =>
      let b := acc.2.writeBeat e.1 e.2.1 e.2.2
      (acc.1 && b.1, b.2)) (true, s)
    r.2.answer tag (if r.1 then .okay [] else .error)
  else
    let r := at_.foldl (fun (acc : Option (List DWord) × State) e =>
      let b := acc.2.readBeat e.1 e.2.1
      (match acc.1, b.1 with
        | some l, some d => some (l ++ [d])
        | _, _ => none, b.2)) (some [], s)
    r.2.answer tag (match r.1 with
      | some l => .okay l
      | none => .error)

/-- A slave-port beat that enables nonets of one word. -/
def State.slaveWord (s : State) (pa : Nat) (en : BitVec 4) (w : Option Word) : State :=
  let d := w.getD 0
  s.slaveAccess 0 pa w.isSome
    [if pa % 2 = 0 then (en.setWidth 8, dword d 0) else ((en.setWidth 8) <<< 4, dword 0 d)]

end Sys2Proof.Machine
end

