-- ==== Sys2Proof/Machine/Data.lean ====
section
/-! DEFINITION. Data.lean: the memory side of a cell: fabric transactions, the store buffer, translation of an access,
reads and stores (06 R159-R162, 07 R190-R206, 11 R298-R317). -/

namespace Sys2Proof.Machine

open Sys2Proof

/-- A part of an instruction: it completes, raises a fault, or waits with nothing done beyond the requests it made. -/
inductive Ex (α : Type) where
  | ok (a : α) (s : State)
  | flt (f : CellFault) (s : State)
  | stall (s : State)
deriving DecidableEq, Repr

def Ex.bind {α β : Type} (x : Ex α) (f : α → State → Ex β) : Ex β :=
  match x with
  | .ok a s => f a s
  | .flt e s => .flt e s
  | .stall s => .stall s

/-- What a part costs, once it has ended. -/
def Ex.costs {α : Type} (x : Ex α) (f : State → State) : Ex α :=
  match x with
  | .ok a s => .ok a (f s)
  | .flt e s => .flt e (f s)
  | .stall s => .stall s

/-- What a part costs where it raises its fault: the rest of a listed count (R186). -/
def Ex.faultCosts {α : Type} (x : Ex α) (f : State → State) : Ex α :=
  match x with
  | .flt e s => .flt e (f s)
  | x => x

/-- Runs a step for every member of a list, in order. -/
def Ex.each {α : Type} (l : List α) (f : α → State → Ex Unit) (s : State) : Ex Unit :=
  l.foldl (fun x a => x.bind (fun _ s => f a s)) (.ok () s)

/-- Collects the results of a step for every member of a list, in order. -/
def Ex.collect {α β : Type} (l : List α) (f : α → State → Ex β) (s : State) : Ex (List β) :=
  l.foldl (fun x a => x.bind (fun bs s => (f a s).bind (fun b s => .ok (bs ++ [b]) s))) (.ok [] s)

/-- A fault 2 whose check concerns no virtual address (R255). -/
def State.fault2 {α : Type} (s : State) (info : Nat) : Ex α :=
  .flt { code := 2, info := info, va := (Config.checkAddr s.fresh).toNat } s.tickFresh

/-- The cycles of a wait, which count to the level as stalls (R48, R410): how many is free. -/
def State.wait (s : State) (c : Nat) : State := (s.charge c (Config.waitCycles s.fresh)).tickFresh

/-! ## Fabric transactions (R313-R317) -/

/-- Port of a cluster, and its TAG bits [9:4] for a cell (R314). -/
def fabPort (c : Nat) : Nat := clusterOf c / 4
def tagBase (c : Nat) : Nat := clusterOf c % 4 * 256 + c % 16 * 16

/-- The lowest free transaction number of a cell; a TAG that timed out is not used again (R315, R317). -/
def State.freeTag (s : State) (c : Nat) : Option Nat :=
  ((List.range 16).map (fun i => tagBase c + i)).find? (fun t =>
    !(s.fab.txs.any (fun x => decide (x.port = fabPort c ∧ x.tag = t))) && !s.fab.retired.contains (fabPort c, t))

/-- Opens a transaction of cell `c`; none without a free TAG. -/
def State.openTx (s : State) (c addr beats : Nat) (wr dev spec dw : Bool) (data : List (Word × BitVec 4))
    (use : FabUse) : Option State :=
  (s.freeTag c).map fun tag =>
    let t : FabTx := ⟨fabPort c, tag, c, addr, beats, wr, dev, spec, dw, data, use, if wr then 1 + beats else 1, false⟩
    { s with fab := { s.fab with txs := s.fab.txs ++ [t] } }.pump (fabPort c)

/-- The data of a write as its beats carry it: the even word first, with no nonet enabled when the write begins at an odd
address (R313, R314). -/
def fabLanes (pa : Nat) (ws : List (Word × BitVec 4)) : List (Word × BitVec 4) := if pa % 2 = 0 then ws else (0, 0) :: ws

/-- A line enters a cache, or becomes its most recently used: the least recently used line of its set leaves (R302). -/
def cacheIn (ls : List CacheLine) (l : CacheLine) : List CacheLine :=
  let others := ls.filter (fun e => decide (e.line ≠ l.line))
  let keep := (others.filter (fun e => decide (e.line % 128 = l.line % 128))).take 1
  l :: others.filter (fun e => decide (e.line % 128 ≠ l.line % 128) || keep.contains e)

/-- The words of a line that its cache holds with an error. -/
def CacheLine.errAt (l : CacheLine) (i : Nat) : Option Bool := slookup i l.err

/-- A data-cache line enters, or becomes the most recently used one. -/
def Cell.install (x : Cell) (l : CacheLine) : Cell := { x with dcache := cacheIn x.dcache l }

/-- A fabric word that the cell itself writes, in its data cache (R302): the write mends the word. -/
def Cell.cacheWrite (x : Cell) (pa : Nat) (w : Word) (en : BitVec 4) : Cell :=
  { x with dcache := x.dcache.map (fun l =>
      if l.line = pa / 8 then
        { l with words := l.words.set (pa % 8) (mergeNonets (l.words.getD (pa % 8) 0) w en),
                 err := if en = 0xF then serase (pa % 8) l.err else l.err }
      else l) }

/-- A line of the fabric leaves the data cache. -/
def Cell.cacheDrop (x : Cell) (line : Nat) : Cell := { x with dcache := x.dcache.filter (fun l => decide (l.line ≠ line)) }

/-- The eight words of a line of cluster memory, each as it reads (R302). -/
def State.readLine8 (s : State) (pa : Nat) : List (Option Word) × State :=
  let base := pa - pa % 8
  (List.range 8).foldl (fun (acc : List (Option Word) × State) i =>
    let r := acc.2.readWord (base + i) (base + i)
    (acc.1 ++ [r.1], r.2)) ([], s)

/-! ## Where an address lies, seen from a cell (R298) -/

inductive Reach where
  | own
  | cluster
  | other
  | fabric
deriving DecidableEq, Repr

def State.reach (s : State) (c pa : Nat) : Reach :=
  match s.area pa with
  | .store key => if (key - 0x8000000) / 0x10000 = s.physOf c then .own else .other
  | .cluster k => if k = clusterOf c then .cluster else .other
  | .control => if cellBase c ≤ pa ∧ pa < cellBase c + 0x400 then .own else .other
  | .fabric => .fabric
  | _ => .other

/-- Sets CELL_STATE.DETV for an access beyond the cell's own store and cluster memory (R298). -/
def State.noteDet (s : State) (c pa : Nat) : State :=
  if s.throughput c then s
  else match s.reach c pa with
    | .other => s.raise (Reg.CELL_STATE_DETV c)
    | .fabric => s.raise (Reg.CELL_STATE_DETV c)
    | _ => s

/-- Listed cycles of an access: x in the cell store, y in cluster memory (R157). DESIGN CHOICE (R173, R298): a word of fabric
memory, whose count the spec leaves open, is charged as one of the cell store beside the free cycles of its waits. -/
def State.reachCost (s : State) (c pa : Nat) : Nat := if s.reach c pa = .cluster then 24 else 1

/-! ## Draining the store buffer (R202-R206) -/

/-- A refused or failed drain (R206). -/
def State.storeError (s : State) (c pa : Nat) : State := s.sendAddr (srcCell s c) 0x10 clsU pa

/-- Writes the words of an entry from `pa` on to block addresses, one after the other; what must wait is left. A refusal
discards the entry as a whole, with the one message of R206. -/
def State.drainFrom (c : Nat) (e : SbEntry) : Nat → List (Word × BitVec 4) → State → Option SbEntry × State
  | _, [], s => (none, s)
  | pa, (w, en) :: l, s =>
    match s.busWrite (.cell (BitVec.ofNat 8 c)) pa w en e.tag (some c) with
    | (.retry, s) => (some { e with pa := pa, words := (w, en) :: l, dbl := e.dbl && decide (pa = e.pa), waited := true }, s)
    | (.error, s) => (none, s.storeError c e.pa)
    | (.done, s) => State.drainFrom c e (pa + 1) l (if e.ret then s.noteLine pa else s)

/-- A drain to a block address (R204, R206): it waits as a whole while one of its words must wait, up to the bound of 65,536
cycles, at which the entry is discarded; the model has no clock, so when a drain that has waited meets it is free. -/
def State.drainWords (s : State) (c : Nat) (e : SbEntry) : Option SbEntry × State :=
  if (List.range e.words.length).any (fun i => s.writeBusy (e.pa + i)) then
    if e.waited ∧ Config.drainExpired s.fresh then (none, s.tickFresh.storeError c e.pa)
    else (some { e with waited := true }, s.tickFresh)
  else State.drainFrom c e e.pa e.words s

def State.setSb (s : State) (c : Nat) (l : List SbEntry) : State := s.modCell c (fun x => { x with sb := l })

/-- Sends the head entry to the fabric (R314, R316); one that crosses a 16-word boundary goes in two transactions. -/
def State.drainFabric (s : State) (c : Nat) (e : SbEntry) (rest : List SbEntry) : State :=
  match e.words with
  | [a, b] =>
    if e.pa % 16 = 15 then
      let e1 := { e with words := [a], dbl := false }
      let e2 := { e with pa := e.pa + 1, words := [b], dbl := false }
      match s.openTx c (e.pa - 1) 1 true e.dev false false (fabLanes e.pa [a]) .drain with
      | some s => s.setSb c ({ e1 with issued := true } :: e2 :: rest)
      | none => s
    else
      match s.openTx c (e.pa - e.pa % 2) (1 + e.pa % 2) true e.dev false true (fabLanes e.pa [a, b]) .drain with
      | some s => s.setSb c ({ e with issued := true } :: rest)
      | none => s
  | _ =>
    match s.openTx c (e.pa - e.pa % 2) 1 true e.dev false false (fabLanes e.pa e.words) .drain with
    | some s => s.setSb c ({ e with issued := true } :: rest)
    | none => s

/-- STORE_BUFFER_DRAIN: the entry at the head drains, or is sent to the fabric and awaits its response. -/
def State.drainHead (s : State) (c : Nat) : State :=
  match (s.cell c).sb with
  | [] => s
  | e :: rest =>
    if s.area e.pa = .fabric then
      if e.issued ∨ (e.dev ∧ s.fab.txs.any (fun t => decide (t.cell = c ∧ t.dev = true))) then s
      else s.drainFabric c e rest
    else
      match s.drainWords c e with
      | (some e, s) => s.setSb c (e :: rest)
      | (none, s) => (s.setSb c rest).afterStore c

/-- Drains entries while they leave at once. -/
def State.drainMany (s : State) (c : Nat) : Nat → State
  | 0 => s
  | n + 1 =>
    let t := s.drainHead c
    if (t.cell c).sb.length < (s.cell c).sb.length ∨ (s.cell c).sb.length < (t.cell c).sb.length then t.drainMany c n else t

/-- Drains the whole buffer, or waits for what is left (R205). -/
def State.drainAll (s : State) (c : Nat) : Ex Unit :=
  let s := s.drainMany c (2 * (s.cell c).sb.length)
  if (s.cell c).sb = [] then .ok () s else .stall s

/-- An entry holds an old bank's store: the new bank's data access waits for it (R205). -/
def State.drainOld (s : State) (c : Nat) : Ex Unit :=
  if (s.cell c).sb.any (fun e => decide (e.bank ≠ s.running c)) then s.drainAll c else .ok () s

/-! ## Checks and translation (R118, R162) -/

/-- The capability check and the translation of `size` words from `ea`: each word's virtual address and target. DESIGN CHOICE
(R255): a check that fails in the second word only records the first word's address. DESIGN CHOICE (R117, log entry 75): the second
word of an access at ea 0xFFFFFFFF that the capability admits is at virtual address 0. -/
def State.locate (s : State) (c : Nat) (k : Bank) (cap : Cap) (perm : Bool) (ea size : Nat) : Ex (List (Nat × Phys)) :=
  match cap.check perm ea size with
  | some info => .flt { code := 2, info := info, va := ea } s
  | none =>
    Ex.collect (List.range size) (fun i s =>
      let va := (ea + i) % 2 ^ 32
      let s := s.refill c va
      match s.place c k.dom.toNat va with
      | some p => .ok (va, p) s
      | none => .flt { code := 6, info := 1, va := va } s) s

/-- Notes a watchpoint that an access of the running bank hits (R529). -/
def State.watchAccess (s : State) (c : Nat) (wr : Bool) (vas : List Nat) : State :=
  let b := s.running c
  if b ≤ 8 ∧ (s.get (Reg.CELL_DBSEL_BANKS c)).testBit b ∧ (List.range 2).any (fun j =>
      s.on (Reg.CELL_DWATL_EN c j) && s.on (if wr then Reg.CELL_DWATL_W c j else Reg.CELL_DWATL_R c j) &&
      vas.any (fun va => decide (s.get (Reg.CELL_DWATL_LO c j) ≤ va ∧ va ≤ s.get (Reg.CELL_DWATH_HI c j))))
  then s.modCell c (fun x => { x with watch := true }) else s

/-! ## Live stack entries in memory (R113) -/

/-- Data and return depth of a bank (R108). -/
def Bank.depth (k : Bank) : Nat := (k.c[3]).top - k.dsp.toNat
def Bank.rdepth (k : Bank) : Nat := k.rsp.toNat - (k.c[3]).base

/-- Ring slot of data entry Si, and of return entry i from the top (R110, R115). -/
def Bank.slot (k : Bank) (i : Nat) : Nat := (k.depth - i) % 16
def Bank.rslot (k : Bank) (i : Nat) : Nat := (k.rdepth - i) % 8

def Bank.dget (k : Bank) (slot : Nat) : Word := k.dwin.toList.getD slot 0
def Bank.dset (k : Bank) (slot : Nat) (w : Word) : Bank := { k with dwin := k.dwin.setIfInBounds slot w }
def Bank.rget (k : Bank) (slot : Nat) : Word := k.rwin.toList.getD slot 0
def Bank.rset (k : Bank) (slot : Nat) (w : Word) : Bank := { k with rwin := k.rwin.setIfInBounds slot w }

/-- The windowed entries of a bank: home word's virtual address, in the return window, slot; the first `skip` data
entries are left out. -/
def Bank.homes (k : Bank) (skip : Nat) : List (Nat × Bool × Nat) :=
  ((List.range k.dw).drop skip).map (fun i => ((k.dsp.toNat + i) % 2 ^ 32, false, k.slot i)) ++
  (List.range k.rw).map (fun i => ((k.rsp.toNat + 2 ^ 32 - 1 - i) % 2 ^ 32, true, k.rslot i))

/-- The slot of the running bank that holds the live entry whose home word is at `pa` (R113): no other bank's windows are read
or written (R272). -/
def State.liveSlot (s : State) (c pa skip : Nat) : Option (Bool × Nat) :=
  ((s.cur c).homes skip).findSome? (fun (va, r, slot) =>
    match s.translate c (s.cur c).dom.toNat va with
    | some p => if p.pa = pa then some (r, slot) else none
    | none => none)

def findMark (l : List SlotMark) (slot : Nat) : Option SlotMark := l.find? (fun m => decide (m.slot = slot))

/-- The fault of a marked slot (R112, R192). -/
def SlotMark.fault (m : SlotMark) : CellFault := ⟨m.code.toNat, m.info.toNat, m.va.toNat, m.pa⟩

/-! ## Reads -/

/-- Nonet enables that an access reads or writes: one nonet, or the whole word. -/
def enables (nonet : Option (BitVec 2)) : BitVec 4 :=
  match nonet with
  | some n => 1#4 <<< n.toNat
  | none => 0xF

/-- Words and enables of an entry at an address. -/
def SbEntry.at? (e : SbEntry) (pa : Nat) : Option (Word × BitVec 4) :=
  if e.pa ≤ pa then e.words[pa - e.pa]? else none

/-- The store buffer's part of a read of one word (R202, R203): the merged nonets, oldest entry first. -/
def State.buffered (s : State) (c pa : Nat) : Word × BitVec 4 :=
  (s.cell c).sb.foldl (fun (acc : Word × BitVec 4) e =>
    match e.at? pa with
    | some (w, en) => (mergeNonets acc.1 w en, acc.2 ||| en)
    | none => acc) (0, 0)

/-- The youngest entry that overlaps the nonets of a read. -/
def State.youngest (s : State) (c pa : Nat) (need : BitVec 4) : Option (Word × BitVec 4) :=
  ((s.cell c).sb.reverse).findSome? (fun e => match e.at? pa with
    | some (w, en) => if en &&& need ≠ 0 then some (w, en) else none
    | none => none)

/-- The access may use the data cache (R302). -/
def State.cacheable (s : State) (c : Nat) (p : Phys) : Bool :=
  s.throughput c && !p.dev && decide (p.cache = 1) && (decide (s.reach c p.pa = .cluster) || decide (s.reach c p.pa = .fabric))

/-- The line of the data cache that holds a word. -/
def State.cacheLine (s : State) (c : Nat) (p : Phys) : Option CacheLine :=
  if s.cacheable c p then (s.cell c).dcache.find? (fun l => decide (l.line = p.pa / 8)) else none

/-- A read that hits a line (R302): the word of the memory with which a line of cluster memory is coherent (R303), or the line's
own; an error that the cache holds is corrected and reported, or gives no word (R320). -/
def State.cacheRead (s : State) (c : Nat) (p : Phys) (l : CacheLine) : Option Word × State :=
  let w := if s.area p.pa = .fabric then l.words.getD (p.pa % 8) 0 else s.word p.pa
  let key := cacheKey (s.physOf c) 2048 (s.cell c).dcache l (p.pa % 8)
  let s := s.modCell c (fun x => x.install l)
  match l.errAt (p.pa % 8) with
  | none => (some w, s)
  | some bad => (if bad then none else some w, s.cacheError c key p.pa bad)

/-- Fills a line from cluster memory: every word is read, and an uncorrectable one leaves no line. The words as read. -/
def State.fillLine (s : State) (c : Nat) (p : Phys) : List (Option Word) × State :=
  let r := s.readLine8 p.pa
  if r.1.all Option.isSome then (r.1, r.2.modCell c (fun x => x.install ⟨p.pa / 8, p.via.getD 0, [], []⟩)) else r

/-- Device accesses of a cell are made one after the other (R312). -/
def State.deviceWaits (s : State) (c : Nat) : Bool :=
  s.fab.txs.any (fun t => decide (t.cell = c ∧ t.dev = true)) || (s.cell c).sb.any (fun e => e.dev)

/-- A device access waits for the cell's earlier ones, whose stores drain meanwhile. -/
def State.deviceTurn (s : State) (c : Nat) (dev : Bool) : Ex Unit :=
  if dev ∧ s.deviceWaits c then .stall (s.drainMany c (2 * (s.cell c).sb.length)) else .ok () s

/-- A blocking instruction of the cell waits for a transaction that reads from `start` on. -/
def State.awaits (s : State) (c start : Nat) : Bool :=
  s.fab.txs.any (fun t => decide (t.cell = c) && t.purpose.blocks && !t.wr && decide (t.addr = start))

/-- A fabric word for a blocking instruction: requested once, with its line when the data cache takes it, and kept with its
translation until the instruction ends (R309). -/
def State.fetchFabric (s : State) (c : Nat) (p : Phys) (va info : Nat) : Ex Word :=
  match slookup p.pa (s.cell c).got with
  | some (some w) => .ok w s
  | some none => .flt { code := 7, info := info, va := va, pa := p.pa } (s.modCell c (fun x => { x with got := [] }))
  | none =>
    let line := if s.cacheable c p then some (p.via.getD 0) else none
    let (start, beats) := if line.isSome then (p.pa - p.pa % 8, 4) else (p.pa - p.pa % 2, 1)
    if s.awaits c start then .stall s
    else (s.deviceTurn c p.dev).bind fun _ s =>
      .stall (((s.openTx c start beats false p.dev false false [] (.words line)).map (fun s => s.keepPlace c va p)).getD s)

/-- Reads a word of memory for a blocking instruction of cell `c` (R298, R302); `info` names the fault 7 that an error
raises. -/
def State.readMemory (s : State) (c : Nat) (va : Nat) (p : Phys) (info : Nat) : Ex Word :=
  let s := s.noteDet c p.pa
  let bad (s : State) : Ex Word := .flt { code := 7, info := info, va := va, pa := p.pa } s
  match s.cacheLine c p with
  | some l => match s.cacheRead c p l with
    | (some w, s) => .ok w s
    | (none, s) => bad s
  | none =>
    if s.area p.pa = .fabric then s.fetchFabric c p va info
    else if s.cacheable c p ∧ ¬ s.busBusy p.pa then
      match s.fillLine c p with
      | (ws, s) => match ws.getD (p.pa % 8) none with
        | some w => .ok w s
        | none => bad s
    else match s.busRead p.pa with
      | (.word w _, s) => .ok w s
      | (.bad, s) => bad s
      | (.error, s) => bad s
      | (.retry, s) => .stall s

/-- The old value that a slot of the running bank still shows (R120). -/
def State.shadowed (s : State) (c : Nat) (at_ : Bool × Nat) : Option Word :=
  if at_.1 then none else ((s.cur c).shadow.find? (fun q => decide (q.1 = at_.2))).map (fun q => q.2)

/-- A live entry read through memory (R113), under the load shadow (R120, DEDUCED: an access to the entry reads its slot). -/
def State.readLive (s : State) (c : Nat) (at_ : Bool × Nat) : Ex Word :=
  let k := s.cur c
  match s.shadowed c at_ with
  | some w => .ok w s
  | none => match findMark (if at_.1 then k.rmark else k.dmark) at_.2 with
    | some m => .flt m.fault s
    | none =>
      if ¬ at_.1 ∧ k.pend.any (fun q => decide (q.1 = at_.2)) then .stall s
      else .ok (if at_.1 then k.rget at_.2 else k.dget at_.2) s

/-- Drains the youngest entry that overlaps a read and every older one, or waits for what is left (R202). -/
def State.drainPast (c pa : Nat) (need : BitVec 4) : Nat → State → Ex Unit
  | 0, s => if (s.youngest c pa need).isNone then .ok () s else .stall s
  | n + 1, s =>
    if (s.youngest c pa need).isNone then .ok () s
    else
      let t := s.drainHead c
      if (t.cell c).sb.length = (s.cell c).sb.length then .stall t else State.drainPast c pa need n t

/-- Drains what a read of a word that buffered stores overlap in part must wait for. -/
def State.drainFor (s : State) (c pa : Nat) (need : BitVec 4) : Ex Unit :=
  State.drainPast c pa need (2 * (s.cell c).sb.length) s

/-- A word as the cell sees it: the live entry, the store buffer over memory, or memory (R113, R202, R203). -/
def State.readNow (s : State) (c : Nat) (need : BitVec 4) (info : Nat) (a : Nat × Phys) : Ex Word :=
  match s.liveSlot c a.2.pa 0 with
  | some l => s.readLive c l
  | none =>
    match s.youngest c a.2.pa need with
    | none => s.readMemory c a.1 a.2 info
    | some (w, en) =>
      if en &&& need = need then .ok w s
      else if s.throughput c then (s.drainFor c a.2.pa need).bind (fun _ s => s.readMemory c a.1 a.2 info)
      else
        let b := s.buffered c a.2.pa
        if b.2 &&& need = need then .ok b.1 s
        else (s.readMemory c a.1 a.2 info).bind (fun w s => .ok (mergeNonets w b.1 b.2) s)

/-- A blocking read of whole words (R155, R162, R175, R183). -/
def State.readWords (s : State) (c : Nat) (info : Nat) (l : List (Nat × Phys)) : Ex (List Word) :=
  (s.drainOld c).bind fun _ s =>
    Ex.collect l (fun a s => s.readNow c 0xF info a) (s.watchAccess c false (l.map (fun a => a.1)))

/-- The hidden tag of a doubleword as CLD and LOADM read it (R161, R202, R245). -/
def State.readTagOf (s : State) (c pa : Nat) : Bool × State :=
  match ((s.cell c).sb.reverse).find? (fun e => (e.at? pa).isSome || (e.at? (pa + 1)).isSome) with
  | some e => (e.tag, s)
  | none =>
    if entryTagged pa then (s.entryTag pa, s.entryCheck pa)
    else match s.area pa with
      | .store key => (s.tagOf key, s.readTag pa)
      | .cluster _ => (s.tagOf pa, s.readTag pa)
      | _ => (false, s)

/-! ## Stores -/

/-- Room that the buffer's entries take: words in Throughput mode, entries otherwise (R202, R203). -/
def State.sbRoom (s : State) (c : Nat) : Nat :=
  if s.throughput c then 4 - ((s.cell c).sb.map (fun e => e.words.length)).foldl (· + ·) 0
  else 1 - (s.cell c).sb.length

/-- A new store merges into the youngest entry, unless its drain has begun (R201). -/
def SbEntry.mergesWith (e : SbEntry) (n : SbEntry) : Bool :=
  decide (e.pa = n.pa) && !e.dbl && !n.dbl && !e.issued && !e.waited && !e.dev && !n.dev && decide (e.bank = n.bank)

def SbEntry.merge (e n : SbEntry) : SbEntry :=
  match e.words, n.words with
  | [(w, en)], [(w2, en2)] => { e with words := [(mergeNonets w w2 en2, en ||| en2)], tag := n.tag, ret := e.ret || n.ret }
  | _, _ => n

/-- Room for a store of `words` words: all of it must find room, and outside Throughput mode the one entry must be free. -/
def State.sbTakes (s : State) (c words : Nat) : Bool :=
  if s.throughput c then decide (words ≤ s.sbRoom c) else decide (0 < s.sbRoom c)

/-- Stores enter the buffer together, merge, or wait for room (R201-R203): the words of one WIDE store or CST whose physical
addresses do not follow each other come as two entries. -/
def State.pushStores (s : State) (c : Nat) (ns : List SbEntry) : Ex Unit :=
  let words := (ns.map (fun e => e.words.length)).foldl (· + ·) 0
  let push (s : State) : Ex Unit := .ok () (s.setSb c ((s.cell c).sb ++ ns))
  let make (s : State) : State := if s.sbTakes c words then s else s.drainHead c
  match (s.cell c).sb.getLast?, ns with
  | some e, [n] =>
    if e.mergesWith n then .ok () (s.setSb c ((s.cell c).sb.dropLast ++ [e.merge n]))
    else
      let s := make (make s)
      if s.sbTakes c words then push s else .stall s
  | some _, _ =>
    let s := make (make s)
    if s.sbTakes c words then push s else .stall s
  | none, _ => push s

/-- A word stored into a live entry of a window (R113). A nonet store to an entry whose load is on its way waits for it. One to
a marked entry leaves it marked (R112, R160): a failed fill left the word in its home word, so `none` sends the store there. -/
def State.storeLive (s : State) (c : Nat) (at_ : Bool × Nat) (home : Nat) (w : Word) (en : BitVec 4) : Option (Ex Unit) :=
  let k := s.cur c
  let mark := findMark (if at_.1 then k.rmark else k.dmark) at_.2
  let write (k : Bank) : Bank :=
    if at_.1 then k.rset at_.2 (mergeNonets (k.rget at_.2) w en) else k.dset at_.2 (mergeNonets (k.dget at_.2) w en)
  if en = 0xF then
    some (.ok () (s.modCur c (fun k =>
      if at_.1 then { write k with rmark := k.rmark.filter (fun m => decide (m.slot ≠ at_.2)) }
      else { write k with
        dmark := k.dmark.filter (fun m => decide (m.slot ≠ at_.2)),
        pend := k.pend.filter (fun q => decide (q.1 ≠ at_.2)) })))
  else if ¬ at_.1 ∧ k.pend.any (fun q => decide (q.1 = at_.2)) then some (.stall s)
  else match mark with
    | some m => if m.va.toNat = home then none else some (.ok () (s.modCur c write))
    | none => some (.ok () (s.modCur c write))

/-- A fault that a store raises for its address: a seed register (R251). -/
def storeRefused (l : List (Nat × Phys)) : Option CellFault :=
  (l.find? (fun a => seedReg a.2.pa)).map (fun a => { code := 2, info := 10, va := a.1 })

/-- The cell's own CELL_MASK. -/
def maskAddr (c : Nat) : Nat := cellBase c + 0x48

/-- A store to the cell's own CELL_MASK (R262): it sets the executing bank's mask and skips the buffer, at two cycles more;
a nonet store is refused (R556). -/
def State.maskStore (s : State) (c : Nat) (w : Word) (en : BitVec 4) : State :=
  if en = 0xF then s.modCur c (fun k => { k with mask := BitVec.ofNat 2 (fld w 0 2) }) else s.storeError c (maskAddr c)

/-- Where one word of a store goes: done at once, or into the buffer. -/
def State.storeOne (s : State) (c skip : Nat) (a : Nat × Phys) (w : Word) (en : BitVec 4) : Option (Ex Unit) :=
  match s.liveSlot c a.2.pa skip with
  | some at_ => s.storeLive c at_ a.1 w en
  | none => if a.2.pa = maskAddr c then some (.ok () (s.maskStore c w en)) else none

/-- Makes a store of one or two words whose checks have passed (R160-R162, R201-R205); `skip` data entries are being popped,
and `tag` is the hidden tag. DESIGN CHOICE (R161): where one word of a CST is a live window entry, the other word alone
reaches memory, and the tag of its doubleword becomes that of the capability. -/
def State.storeWords (s : State) (c : Nat) (l : List (Nat × Phys)) (ws : List Word) (en : BitVec 4) (tag dbl : Bool)
    (skip : Nat) : Ex Unit :=
  match storeRefused l with
  | some f => .flt f s
  | none =>
    (s.drainOld c).bind fun _ s =>
      let s := l.foldl (fun s a => s.noteDet c a.2.pa) (s.watchAccess c true (l.map (fun a => a.1)))
      let parts := l.zip ws
      let here (a : Nat × Phys) (w : Word) : Bool := (s.storeOne c skip a w en).isSome
      let contiguous : Bool := match l with
        | [a, b] => decide (b.2.pa = a.2.pa + 1)
        | _ => true
      let entry (a : Nat × Phys) (ws : List Word) : SbEntry :=
        { pa := a.2.pa, words := ws.map (fun w => (w, en)), tag := tag && decide (s.area a.2.pa ≠ .fabric), dev := a.2.dev,
          ret := s.retained a.2.via, bank := s.running c, issued := false, dbl := dbl }
      let rest := parts.filter (fun (a, w) => !here a w)
      let entries : List SbEntry := match l with
        | a :: _ => if rest.length = parts.length ∧ contiguous then [entry a ws] else rest.map (fun (a, w) => entry a [w])
        | [] => []
      let queued := if entries = [] then .ok () s else s.pushStores c entries
      queued.bind fun _ s =>
        (Ex.each parts (fun (a, w) s => (s.storeOne c skip a w en).getD (.ok () s)) s).bind fun _ s =>
          let s := if l.any (fun a => decide (a.2.pa = maskAddr c)) ∧ ¬ s.throughput c then s.charge c 2 else s
          if ¬ s.throughput c ∧ l.any (fun a => decide (s.reach c a.2.pa = .cluster)) then
            .ok () (s.drainMany c (2 * (s.cell c).sb.length))
          else .ok () s

end Sys2Proof.Machine
end

