-- ==== Sys2Proof/Machine/Window.lean ====
section
/-! DEFINITION. Window.lean: the stack windows of a bank and their spills and fills (04 R108-R116, 07 R191). The data window
is `r = false`, the return window `r = true`. -/

namespace Sys2Proof.Machine

open Sys2Proof

def winSize (r : Bool) : Nat := if r then 8 else 16
/-- A window spills in background above its high mark and fills below its low mark (R110, R115). -/
def winHigh (r : Bool) : Nat := if r then 6 else 12
def winLow (r : Bool) : Nat := if r then 2 else 4

def Bank.occ (k : Bank) (r : Bool) : Nat := if r then k.rw else k.dw
def Bank.setOcc (k : Bank) (r : Bool) (n : Nat) : Bank := if r then { k with rw := n } else { k with dw := n }
def Bank.deep (k : Bank) (r : Bool) : Nat := if r then k.rdepth else k.depth
/-- Slot and home word of entry `i` from the top. -/
def Bank.slotI (k : Bank) (r : Bool) (i : Nat) : Nat := if r then k.rslot i else k.slot i
def Bank.homeI (k : Bank) (r : Bool) (i : Nat) : Nat :=
  if r then (k.rsp.toNat + 2 ^ 32 - 1 - i) % 2 ^ 32 else (k.dsp.toNat + i) % 2 ^ 32
def Bank.getI (k : Bank) (r : Bool) (slot : Nat) : Word := if r then k.rget slot else k.dget slot
def Bank.setI (k : Bank) (r : Bool) (slot : Nat) (w : Word) : Bank := if r then k.rset slot w else k.dset slot w
def Bank.marks (k : Bank) (r : Bool) : List SlotMark := if r then k.rmark else k.dmark
def Bank.setMarks (k : Bank) (r : Bool) (l : List SlotMark) : Bank := if r then { k with rmark := l } else { k with dmark := l }
def Bank.unmark (k : Bank) (r : Bool) (slot : Nat) : Bank := k.setMarks r ((k.marks r).filter (fun m => decide (m.slot ≠ slot)))
def Bank.isPend (k : Bank) (slot : Nat) : Bool := k.pend.any (fun q => decide (q.1 = slot))

/-- Charges listed cycles: in Throughput mode the count of an instruction is free and covers them (R111, R124). -/
def State.chargeListed (s : State) (c n : Nat) : State := if s.throughput c then s else s.charge c n

/-- Charges a forced spill or fill: the cost of R111, or in Throughput mode a hold whose length is free. -/
def State.chargeForced (s : State) (c n : Nat) : State := if s.throughput c then s.wait c else s.charge c n

/-- What a fill finds: the word, or why it fails. -/
def State.fillRead (s : State) (c va : Nat) : Ex Word :=
  let s := s.refill c va
  match s.place c (s.cur c).dom.toNat va with
  | none => .flt { code := 6, info := 3, va := va } s
  | some p =>
    (s.drainFor c p.pa 0xF).bind (fun _ s => s.readMemory c va p 3)

/-- The next deeper entry enters the window. -/
def State.fillOne (s : State) (c : Nat) (r : Bool) : Ex Unit :=
  let va := (s.cur c).homeI r ((s.cur c).occ r)
  (s.fillRead c va).bind fun w s =>
    .ok () (s.modCur c (fun k => (k.setI r (k.slotI r (k.occ r)) w).setOcc r (k.occ r + 1)))

/-- A word that a cell writes past its store buffer: a spill, an instance of a function block, a task control word. A fabric
word is in the cell's own data cache at once (R302), and nothing waits for its response. -/
def State.writeThrough (s : State) (c : Nat) (p : Phys) (w : Word) (tag : Bool) : Ex Unit :=
  let s := s.noteDet c p.pa
  let s := if s.retained p.via then s.noteLine p.pa else s
  if s.area p.pa = .fabric then
    (s.deviceTurn c p.dev).bind fun _ s =>
      match s.openTx c (p.pa - p.pa % 2) 1 true p.dev false false (fabLanes p.pa [(w, 0xF)]) .write with
      | some s => .ok () (s.modCell c (fun x => x.cacheWrite p.pa w 0xF))
      | none => .stall s
  else if p.pa = maskAddr c then .ok () (s.maskStore c w 0xF)
  else match s.busWrite (.cell (BitVec.ofNat 8 c)) p.pa w 0xF tag (some c) with
    | (.done, s) => .ok () s
    | (.error, s) => .ok () (s.storeError c p.pa)
    | (.retry, s) => .stall s

/-- The deepest window entry leaves the window; a marked one writes nothing (R112), a pending one waits (R191), and one whose
home word is a seed register faults (R251). -/
def State.spillOne (s : State) (c : Nat) (r : Bool) : Ex Unit :=
  let k := s.cur c
  let i := k.occ r - 1
  let slot := k.slotI r i
  let va := k.homeI r i
  let out (s : State) : State := s.modCur c (fun k => (k.unmark r slot).setOcc r i)
  if (findMark (k.marks r) slot).isSome then .ok () (out s)
  else if ¬ r ∧ k.isPend slot then .stall s
  else
    let s := s.refill c va
    match s.translate c k.dom.toNat va with
    | none => .flt { code := 6, info := 3, va := va } s
    | some p =>
      if seedReg p.pa then .flt { code := 2, info := 10, va := va } s
      else (s.drainFor c p.pa 0xF).bind fun _ s =>
        (s.writeThrough c p (k.getI r slot) false).bind fun _ s => .ok () (out s)

/-- Cost of a forced spill or fill (R111). -/
def State.forcedCost (s : State) (c va : Nat) : Nat :=
  match s.translate c (s.cur c).dom.toNat va with
  | some p => s.reachCost c p.pa
  | none => 1

/-- Forced fills until `need` entries are in the window. -/
def State.fillTo (s : State) (c : Nat) (r : Bool) (need : Nat) : Nat → Ex Unit
  | 0 => .ok () s
  | n + 1 =>
    if (s.cur c).occ r < need ∧ (s.cur c).occ r < (s.cur c).deep r then
      let cost := s.forcedCost c ((s.cur c).homeI r ((s.cur c).occ r))
      (s.fillOne c r).bind (fun _ s => (s.chargeForced c cost).fillTo c r need n)
    else .ok () s

/-- Forced spills until at most `most` entries are in the window. -/
def State.spillTo (s : State) (c : Nat) (r : Bool) (most : Nat) : Nat → Ex Unit
  | 0 => .ok () s
  | n + 1 =>
    if (s.cur c).occ r > most then
      let cost := s.forcedCost c ((s.cur c).homeI r ((s.cur c).occ r - 1))
      (s.spillOne c r).bind (fun _ s => (s.chargeForced c cost).spillTo c r most n)
    else .ok () s

/-- Makes room for an instruction that pops and pushes (R110). -/
def State.ensure (s : State) (c : Nat) (r : Bool) (need dropped pushes : Nat) : Ex Unit :=
  (s.fillTo c r need 16).bind fun _ s => s.spillTo c r (winSize r + dropped - pushes) 16

/-- Spills both windows under the old pointers (R114), but for the `keep` topmost data entries, which the instruction pops
only once nothing can wait or fault any more (R169). -/
def State.spillBelow (s : State) (c keep : Nat) : Ex Unit :=
  (s.spillTo c false keep 16).bind fun _ s => s.spillTo c true 0 16

/-! ## Background work (R110-R112) -/

/-- The mark of a background spill that met a region miss carries a slot number past the ring. -/
def missSlot : Nat := 16

/-- The home word of the entry admits background work (R110). -/
def State.inBackground (s : State) (c va : Nat) : Bool :=
  match s.translate c (s.cur c).dom.toNat va with
  | none => true
  | some p => match s.reach c p.pa with
    | .own => true
    | .cluster => s.throughput c
    | _ => false

/-- A background fill: a miss or an uncorrectable error marks the entry (R112). -/
def State.backFill (s : State) (c : Nat) (r : Bool) : State :=
  let k := s.cur c
  let i := k.occ r
  match s.fillOne c r with
  | .ok _ s => s
  | .stall s => s
  | .flt f s =>
    let m : SlotMark := ⟨k.slotI r i, BitVec.ofNat 4 f.code, BitVec.ofNat 8 f.info, BitVec.ofNat 32 f.va, f.pa⟩
    s.modCur c (fun k => (k.setMarks r (m :: k.marks r)).setOcc r (i + 1))

/-- A background spill: a miss becomes forced, and the next instruction raises it (R112). -/
def State.backSpill (s : State) (c : Nat) (r : Bool) : State :=
  match s.spillOne c r with
  | .ok _ s => s
  | .stall s => s
  | .flt f s =>
    let m : SlotMark := ⟨missSlot, BitVec.ofNat 4 f.code, BitVec.ofNat 8 f.info, BitVec.ofNat 32 f.va, f.pa⟩
    s.modCur c (fun k => (k.unmark r missSlot).setMarks r (m :: (k.unmark r missSlot).marks r))

/-- BACKGROUND_SPILL_FILL of the running bank (R110, R292). -/
def State.background (s : State) (c : Nat) (r : Bool) : State :=
  let k := s.cur c
  if ¬ s.live c ∨ s.dead c ∨ s.running c > 10 then s
  else if k.occ r > winHigh r then
    if s.inBackground c (k.homeI r (k.occ r - 1)) then s.backSpill c r else s
  else if k.occ r < winLow r ∧ k.occ r < k.deep r then
    if s.inBackground c (k.homeI r (k.occ r)) then s.backFill c r else s
  else s

end Sys2Proof.Machine
end

