-- ==== Sys2Proof/Machine/Operands.lean ====
section
/-! DEFINITION. Operands.lean: what every instruction of a cell shares: its form and legality, its fetch, its guard, its stack
checks, its operands and results, its completion and its cost (04 R87-R123, 07 R186-R210, R529-R531). -/

namespace Sys2Proof.Machine

open Sys2Proof

/-- What an instruction's entry admits and does to the stacks (R96, R109, R124-R128). -/
structure Form where
  /-- syllables of the opcode -/
  op : Nat := 1
  /-- admitted numbers of extension syllables -/
  exts : List Nat := [0]
  wide : Bool := false
  sat : Bool := false
  rep : Bool := true
  /-- predicate written -/
  pred : Option Nat := none
  /-- writes RC -/
  rc : Bool := false
  /-- a further form that the entry does not admit (R133, R139, R158) -/
  bad : Bool := false
  /-- starts a load shadow (R120) -/
  load : Bool := false
  /-- a guarded BR or CALL, which moves a branch history counter (R194) -/
  branch : Bool := false
  /-- listed cycles, which `fixed` instructions take in Throughput mode too (R189, R193) -/
  cyc : Nat := 1
  fixed : Bool := false
  pops : Nat := 0
  pushes : Nat := 0
  rpops : Nat := 0
  rpushes : Nat := 0
deriving DecidableEq, Repr

/-- The eight or fewer admitted extension counts of an optional immediate. -/
def ext06 : List Nat := [0, 1, 2, 3, 4, 5, 6]

/-- Prefix syllables of an instruction (R94). -/
def guardLen (g : Guard) : Nat := match g with
  | .always => 0
  | .ifSet _ => 1
  | .ifClear _ => 1
def reptLen (r : Repeat) : Nat := match r with
  | .once => 0
  | .rep => 1
  | .repn => 1

/-- Length in syllables. -/
def encLen (x : Enc) (op : Nat) : Nat := guardLen x.guard + reptLen x.rept + b2n x.wide + b2n x.sat + op + x.ext.length

/-- Bits of the extension syllables, the first one most significant, and their sign-extended value (R98). -/
def encRaw (x : Enc) : Nat := x.ext.foldl (fun a e => a * 64 + e.toNat) 0
def encImm (x : Enc) : Int := sextNat (encRaw x) (6 * x.ext.length)

/-- The predicate that a guard names, P0 excepted (R96). -/
def guardNamed (g : Guard) : Option Nat := match g with
  | .always => none
  | .ifSet p => if p = 0 then none else some p.toNat
  | .ifClear p => if p = 0 then none else some p.toNat

/-- INFO of fault 1 under R95, R96 and R106: 3 for a seventh extension syllable, at which the decode ends; 4 for a repeat
prefix on an instruction that writes RC or its guard's predicate, 3 for a prefix, form or extension count that is not
admitted. -/
def Form.fault1 (f : Form) (x : Enc) : Option Nat :=
  let repeated := decide (x.rept ≠ .once)
  if 7 ≤ x.ext.length then some 3
  else if repeated && (f.rc || ((guardNamed x.guard).isSome && decide (guardNamed x.guard = f.pred))) then some 4
  else if (repeated && !f.rep) || (x.wide && !f.wide) || (x.sat && !f.sat) || !f.exts.contains x.ext.length || f.bad then some 3
  else none

/-- The guard passes (R101). -/
def guardPasses (g : Guard) (k : Bank) : Bool := match g with
  | .always => true
  | .ifSet p => k.p.getLsbD p.toNat
  | .ifClear p => !k.p.getLsbD p.toNat

/-- The next instruction's first syllable (R95). -/
def nextPc (k : Bank) (x : Enc) (op : Nat) : SylAddr := k.pc + BitVec.ofNat 34 (encLen x op)

/-- The cell may execute an instruction: its cluster runs, a bank runs, and nothing that R257 and R258 put first waits. What is
in progress and holds events back goes on whatever waits (R200), also while the cluster is STOPPING (R364). -/
def State.canIssue (s : State) (c : Nat) : Bool :=
  let b := s.running c
  let x := s.cell c
  decide (b ≤ 10) && !s.dead c && !s.selfTest c && !x.resetDue && x.stall.isNone && decide (x.cold = 0) &&
    ((x.hold && s.holding c) || (s.live c && !x.win &&
      (decide (b ≥ 8) || (x.held.isEmpty && decide (s.lvState c b = lvActive) && !s.spentOut c b)) && (decide (b ≥ 9) || !s.debugDue c)))

/-- An instruction breakpoint matches (R529, R530). -/
def State.breaks (s : State) (c : Nat) : Bool :=
  let b := s.running c
  decide (b ≤ 8) && (s.get (Reg.CELL_DBSEL_BANKS c)).testBit b && !((s.cell c).skipBrk && decide ((s.cell c).dFrom = b)) &&
    (List.range 4).any (fun j => s.on (Reg.CELL_DBRK_EN c j) && decide (s.get (Reg.CELL_DBRK_PC c j) = (s.cur c).pc.toNat))

/-- Syllables that the fetch of an instruction needs: its own and the one after it (R89), or the run of R95 up to a seventh
extension syllable, where the decode stops. -/
def fetchLen (x : Enc) (op : Nat) : Nat := encLen { x with ext := x.ext.take 7 } op + (if x.ext.length < 7 then 1 else 0)

/-- A code word has been fetched: the prefetch queue keeps the last four (R210). A word of the cell's own store that reads
without an error costs nothing at any fetch (R187), so it is not listed. -/
def Cell.fetched (x : Cell) (pa : Nat) : Cell := { x with pq := (pa :: x.pq).take 4 }

/-- The instruction cache may hold the word (R302). -/
def State.codeCached (s : State) (c : Nat) (p : Phys) : Bool :=
  s.throughput c && (p.cache = 1 || p.cache = 2) && (match s.area p.pa with
    | .cluster _ => true
    | .fabric => true
    | _ => false)

/-- Reads a code word that the prefetch queue does not hold (R208, R210, R298): an error is fault 7 with INFO 2. -/
def State.readCode (s : State) (c va : Nat) (p : Phys) : Ex Unit :=
  let bad (s : State) : Ex Unit := .flt { code := 7, info := 2, va := va, pa := p.pa } s
  let took (s : State) : Ex Unit := .ok () (s.modCell c (fun x => x.fetched p.pa))
  let plain : Bool := s.reach c p.pa = .own && (s.eccAt (s.key p.pa)).isNone
  let s := s.noteDet c p.pa
  if s.codeCached c p then
    match (s.cell c).icache.find? (fun l => decide (l.line = p.pa / 8)) with
    | some l =>
      let key := cacheKey (s.physOf c) 0 (s.cell c).icache l (p.pa % 8)
      let s := s.modCell c (fun x => { x with icache := cacheIn x.icache l })
      match l.errAt (p.pa % 8) with
      | none => took s
      | some false => took (s.cacheError c key p.pa false)
      | some true => bad (s.cacheError c key p.pa true)
    | none =>
      if s.area p.pa = .fabric then
        match slookup p.pa (s.cell c).got with
        | some (some _) => took s
        | some none => bad (s.modCell c (fun x => { x with got := [] }))
        | none =>
          if s.awaits c (p.pa - p.pa % 8) then .stall s
          else .stall (((s.openTx c (p.pa - p.pa % 8) 4 false false false false [] (.code (p.via.getD 0))).map
            (fun s => s.keepPlace c va p)).getD s)
      else if s.busBusy p.pa then .stall s
      else
        let (ws, s) := s.readLine8 p.pa
        let s := if ws.all Option.isSome then
            s.modCell c (fun x => { x with icache := cacheIn x.icache ⟨p.pa / 8, p.via.getD 0, ws.map (fun w => w.getD 0), []⟩ })
          else s
        if (ws.getD (p.pa % 8) none).isSome then took s else bad s
  else if s.area p.pa = .fabric then
    (s.fetchFabric c p va 2).bind fun _ s => took s
  else match s.busRead p.pa with
    | (.word _ _, s) =>
      if plain then .ok () s
      else took (if s.reach c p.pa = .cluster ∧ ¬ s.throughput c then s.charge c 24 else s)
    | (.bad, s) => bad s
    | (.error, s) => bad s
    | (.retry, s) => .stall s

/-- The fetch of one word of code (R89, R177, R312). -/
def State.fetchWord (c va : Nat) (s : State) : Ex Unit :=
  let k := s.cur c
  if ¬ (k.c[2]).usable ∨ ¬ (k.c[2]).x ∨ va < (k.c[2]).base ∨ va ≥ (k.c[2]).top then .flt { code := 2, info := 6, va := va } s
  else
    let s := s.refill c va
    match s.place c k.dom.toNat va with
    | some p =>
      if p.dev then .flt { code := 6, info := 2, va := va } s
      else if (s.cell c).pq.contains p.pa then .ok () s
      else s.readCode c va p
    | none => .flt { code := 6, info := 2, va := va } s

/-- The fetch of the `n` syllables from the PC on, word by word (R89, R210). -/
def State.fetch (s : State) (c n : Nat) : Ex Unit :=
  let pc := (s.cur c).pc.toNat
  Ex.each (List.range ((pc % 4 + n + 3) / 4)) (fun i => State.fetchWord c ((pc / 4 + i) % 2 ^ 32)) s

/-- What follows a change at once: a swap window that waited (R358), a migration that is due while RUN = 0 (R480), and the
lines that units drive (R381). -/
def State.close (s : State) : State := s.openWindows.migrateIdle.settle

/-- A synchronous fault of the instruction in progress is taken (R186); an uncorrectable microword or dispatch entry is a failure
event as well (R474). -/
def State.faultOut (s : State) (c : Nat) (f : CellFault) : State :=
  let s := s.modCell c (fun x => { x.settled with watch := false, hold := false, micro := none, skipBrk := x.skipBrk && decide (x.dFrom ≠ s.running c) })
  let s := s.takeFault c f
  (if f.code = 7 ∧ (f.info = 5 ∨ f.info = 6) then s.failureEvent c 2 else s).close

/-- Counts cycles to a level: the listed count, or a free one in Throughput mode (R48, R124) where R189 and R193 fix none. -/
def State.spend (s : State) (c : Nat) (lvl : Option Nat) (n : Nat) (fixed : Bool) : State :=
  match lvl with
  | none => s
  | some l =>
    if s.throughput c ∧ ¬ fixed then (s.bumpBy (Reg.CELL_LUSED_CYC c l) (Config.throughputCycles s.fresh)).tickFresh
    else s.bumpBy (Reg.CELL_LUSED_CYC c l) n

/-- The fault of an instruction listed at `n` cycles, which holds EX for its count outside Throughput mode (R186); none where
the count has been charged already. -/
def State.faultAt (s : State) (c : Nat) (lvl : Option Nat) (n : Nat) (f : CellFault) : State :=
  (s.spend c lvl n (decide (n = 0))).faultOut c f

/-- The stack checks of R109. -/
def State.stackFault (s : State) (c : Nat) (f : Form) : Ex Unit :=
  let k := s.cur c
  let c3 := k.c[3]
  if f.pops = 0 ∧ f.pushes = 0 ∧ f.rpops = 0 ∧ f.rpushes = 0 then .ok () s
  else if ¬ c3.usable ∨ ¬ c3.r ∨ ¬ c3.w then s.fault2 11
  else if k.depth < f.pops then .flt { code := 5, info := 1 } s
  else if k.rdepth < f.rpops then .flt { code := 5, info := 2 } s
  else if (k.rsp.toNat : Int) - f.rpops + f.rpushes > k.dsp.toNat + f.pops - f.pushes then .flt { code := 5, info := 3 } s
  else .ok () s

/-- LINK words (R266). -/
def Link.word (l : Link) (i : Nat) : Word :=
  match i with
  | 0 => l.pc.setWidth 36
  | 1 => l.dsp.setWidth 36
  | 2 => l.rsp.setWidth 36
  | 3 => setFld (setFld (setFld (setFld 0 35 1 (b2n l.occ)) 8 3 l.n.toNat) 3 3 l.args.toNat) 0 3 l.res.toNat
  | 4 => l.c2.lo
  | 5 => l.c2.hi
  | 6 => l.c3.lo
  | _ => l.c3.hi

def Link.tag (l : Link) (i : Nat) : Bool := if i = 4 ∨ i = 5 then l.c2.tag else decide (6 ≤ i) && l.c3.tag

/-! ## Operands and results -/

/-- Data entry Si as an instruction finds it: under the load shadow (R120), marked (R112), pending (R191: none) or plain. -/
def Bank.entry (k : Bank) (i : Nat) : Except CellFault (Option Word) :=
  match k.shadow.find? (fun q => decide (q.1 = k.slot i)) with
  | some q => .ok (some q.2)
  | none => match findMark k.dmark (k.slot i) with
    | some m => .error m.fault
    | none => .ok (if k.isPend (k.slot i) then none else some (k.dget (k.slot i)))

/-- Data entry Si as the instruction reads it. DESIGN CHOICE (R112, log entry 74): a mark stays after its fault, until its slot is
popped, overwritten or spilled, so that the instruction faults again when it is retried. -/
def State.operand (s : State) (c : Nat) (i : Nat) : Ex Word :=
  match (s.cur c).entry i with
  | .ok (some w) => .ok w s
  | .ok none => .stall s
  | .error f => .flt f s

/-- A slot that an instruction pops or overwrites: a shadowed one keeps its old value, and the loaded value is discarded
(R121, R191). -/
def Bank.release (k : Bank) (slot : Nat) : Bank :=
  let old := k.shadow.find? (fun q => decide (q.1 = slot))
  let k := match old with
    | some q => k.dset slot q.2
    | none => k
  { k with shadow := k.shadow.filter (fun q => decide (q.1 ≠ slot)), pend := k.pend.filter (fun q => decide (q.1 ≠ slot)),
           dmark := k.dmark.filter (fun m => decide (m.slot ≠ slot)) }

/-- Pops `n` data entries. -/
def Bank.popN (k : Bank) : Nat → Bank
  | 0 => k
  | n + 1 =>
    let k := k.release (k.slot 0)
    { k with dsp := k.dsp + 1, dw := k.dw - 1 }.popN n

/-- Pushes one word. -/
def Bank.push (k : Bank) (w : Word) : Bank :=
  let k := { k with dsp := k.dsp - 1, dw := k.dw + 1 }
  (k.release (k.slot 0)).dset (k.slot 0) w

/-- Pushes words, the deepest first. -/
def Bank.pushAll (k : Bank) (ws : List Word) : Bank := ws.foldl Bank.push k

/-- The return stack's top entry. -/
def Bank.rtop (k : Bank) : Word := k.rget (k.rslot 0)
def Bank.rpush (k : Bank) (w : Word) : Bank :=
  let k := { k with rsp := k.rsp + 1, rw := k.rw + 1 }
  (k.unmark true (k.rslot 0)).rset (k.rslot 0) w
def Bank.rpop (k : Bank) : Bank :=
  let k := k.unmark true (k.rslot 0)
  { k with rsp := k.rsp - 1, rw := k.rw - 1 }

/-- Reads the data entries listed. -/
def State.operands (s : State) (c : Nat) (ixs : List Nat) : Ex (List Word) := Ex.collect ixs (fun i s => s.operand c i) s

/-! ## Execution -/

/-- The debug event that the completion of an instruction of bank `b`, or of an iteration that is not its last, raises (R529, R531);
breakpoints match again from the next instruction on (R530). -/
def Cell.debugAfter (x : Cell) (b : Nat) (last : Bool) : Cell :=
  let hit := x.step && decide (x.dFrom = b)
  { x with
    dreq := if x.watch then some 2 else if hit then some 3 else x.dreq,
    watch := false, step := x.step && !hit, skipBrk := x.skipBrk && (decide (x.dFrom ≠ b) || !last) }

/-- Completion of an instruction, or of one iteration of a REP, of bank `b`: the PC moves on unless the instruction set
it, which flushes the prefetch queue (R193), a load shadow that was pending ends, and the cycles count. -/
def State.complete (s : State) (c b : Nat) (lvl : Option Nat) (f : Form) (next : SylAddr) (cost : Nat) (last jumped : Bool) :
    State :=
  let s := s.modBank c b (fun k => { k with
    pc := if last && !jumped then next else k.pc,
    shadow := if f.load || !last then k.shadow else [] })
  let s := s.modCell c (fun x =>
    let x := { x.settled with entF := x.entF && decide (b ≠ bankF), hold := false, micro := none }
    { x with pq := if jumped then [] else x.pq }.debugAfter b last)
  s.spend c lvl cost f.fixed

/-- One iteration: the stack checks, forced spills and fills, then the instruction itself, which a routine in progress only
goes on with; `last` tells whether a load shadow follows. -/
def State.iterate (s : State) (c : Nat) (f : Form) (iter : Bool → State → Ex Bool) (last : Bool) : Ex Bool :=
  if (s.cell c).micro.isSome then iter last s
  else (s.stackFault c f).bind fun _ s =>
    (s.ensure c false f.pops f.pops f.pushes).bind fun _ s =>
      (s.ensure c true f.rpops f.rpops f.rpushes).bind fun _ s => iter last s

/-- An event that the boundary between two items of SAVEM or LOADM admits waits for acceptance (R184, R200, R257). -/
def State.eventDue (s : State) (c : Nat) : Bool :=
  let b := s.running c
  !s.live c || (s.cell c).win || ((slookup c s.presented).isSome && s.acceptsIrq c) || (s.debugDue c && decide (b ≤ 8)) ||
    (decide (b < 8) && (!(s.cell c).held.isEmpty || s.spentOut c b || !s.ready c b || (match s.urgent c with
      | some n => decide (n < b)
      | none => false)))

/-- The branch history counter of a guarded BR or CALL moves toward the outcome, in Throughput mode (R194). -/
def State.noteBranch (s : State) (c pc : Nat) (taken : Bool) : State :=
  if s.throughput c then
    let i := pc % 256
    s.modCell c (fun x =>
      let v := sget 1 i x.bht
      { x with bht := sput 1 i (if taken then min 3 (v + 1) else v - 1) x.bht })
  else s

/-- The control store of the cell's slot holds an image of Onaed's with no error in it: every instruction then has its listed
effect and count (R216), which the references of 05 and 06 give. -/
def State.asListed (s : State) (c : Nat) : Bool :=
  let m := sget MicroStore.empty (clusterOf c) s.ldv.stores
  m.listed && m.wordErr.all (fun e => decide (e.1 ≠ s.slotOf c)) && m.dispErr.all (fun e => decide (e.1 ≠ s.slotOf c))

/-- DE resolves an opcode to its dispatch index, page x 384 + syllable (R213). -/
def State.decode (s : State) (c index : Nat) : State :=
  if s.asListed c then s else s.modCell c (fun x => { x with opc := index })

/-- What a command answers. -/
abbrev Out := Host.Outcome State Fault Refusal

/-! ## Instructions that compute on the stack -/

/-- The outcome of a computation: words to push, deepest first, with the bank's new registers; or a fault. -/
inductive Calc where
  | ok (push : List Word) (k : Bank)
  | flt (code info : Nat)
deriving DecidableEq, Repr

/-- Reads the entries `ixs`, computes, drops `drop` entries and pushes the results. -/
def State.calcStep (c : Nat) (ixs : List Nat) (drop : Nat) (g : List Word → Bank → Calc) (_ : Bool) (s : State) : Ex Bool :=
  (s.operands c ixs).bind fun ws s =>
    match g ws (s.cur c) with
    | .ok push k => .ok false (s.setCur c ((k.popN drop).pushAll push))
    | .flt code info => if code = 2 then s.fault2 info else .flt { code := code, info := info } s


end Sys2Proof.Machine
end

