-- ==== Sys2Proof/Machine/Load.lean ====
section
/-! DEFINITION. Load.lean: loads, the data cache and the fabric's answers (04 R120-R123, 07 R190-R192, R199, 11 R302, R303,
R311-R317). -/

namespace Sys2Proof.Machine

open Sys2Proof

/-! ## Pointers and capabilities of a bank -/

def Bank.ptr (k : Bank) (n : BitVec 2) : VAddr := k.a.toList.getD n.toNat 0
def Bank.setPtr (k : Bank) (n : BitVec 2) (v : VAddr) : Bank := { k with a := k.a.setIfInBounds n.toNat v }
def Bank.cap (k : Bank) (n : BitVec 2) : Cap := k.c.toList.getD n.toNat Cap.null
def Bank.setCap (k : Bank) (n : BitVec 2) (q : Cap) : Bank := { k with c := k.c.setIfInBounds n.toNat q }

/-- An address formed by a mode of R159: capability selector, effective address, stack entries it pops, and the pointer's
value after a successful access. -/
structure Formed where
  sel : BitVec 2
  ea : Nat
  pops : Nat
  after : Option VAddr
deriving DecidableEq, Repr

/-- Scale of the post-increment and pre-decrement forms. -/
def stepScale (x : Enc) : Nat := if x.ext = [] then 1 else 2 ^ (encRaw x % 4)

/-- Stack entries that a mode pops. -/
def modePops (m : AddrMode) : Nat := match m with
  | .tos _ => 1
  | .indexed _ _ => 1
  | _ => 0

/-- Extension counts that a mode admits (R163, R164). -/
def modeExts (m : AddrMode) : List Nat := match m with
  | .postInc _ => [0, 1]
  | .preDec _ => [0, 1]
  | .disp _ => [1, 2, 3, 4, 5, 6]
  | _ => [0]

/-- Opcode syllables of a mode. -/
def modeSyllables (m : AddrMode) : Nat := match m with
  | .indexed _ _ => 2
  | .disp _ => 2
  | _ => 1

/-- Modes that have nonet forms (R160). -/
def modeNonet (m : AddrMode) : Bool := match m with
  | .tos _ => true
  | .ptr _ => true
  | .disp _ => true
  | _ => false

/-- The effective address of R159; the mode's own operand is stack entry `i`, and `size` words are accessed. -/
def State.address (s : State) (c : Nat) (x : Enc) (m : AddrMode) (i size : Nat) : Ex Formed :=
  let k := s.cur c
  let step : VAddr := BitVec.ofNat 32 (size * stepScale x)
  match m with
  | .tos n => (s.operand c i).bind fun w s => .ok ⟨n, w.toNat % 2 ^ 32, 1, none⟩ s
  | .ptr n => .ok ⟨n, (k.ptr n).toNat, 0, none⟩ s
  | .postInc n => .ok ⟨n, (k.ptr n).toNat, 0, some (k.ptr n + step)⟩ s
  | .preDec n => .ok ⟨n, (k.ptr n - step).toNat, 0, some (k.ptr n - step)⟩ s
  | .indexed sc n => (s.operand c i).bind fun w s =>
      .ok ⟨n, wrapNat ((k.ptr n).toNat + w.toInt * (2 ^ sc.toNat : Nat)) 32, 1, none⟩ s
  | .disp n => .ok ⟨n, wrapNat ((k.ptr n).toNat + encImm x) 32, 0, none⟩ s

/-! ## Speculative accesses (R311) -/

/-- A speculative fill of the line that holds a word (R311). -/
def State.speculate (s : State) (c : Nat) (p : Phys) : State :=
  if ¬ s.cacheable c p ∨ (s.cacheLine c p).isSome then s
  else if s.area p.pa = .fabric then
    if s.fab.txs.any (fun t => decide (t.cell = c ∧ t.wr = false ∧ t.addr = p.pa - p.pa % 8 ∧ t.beats = 4)) then s
    else (s.openTx c (p.pa - p.pa % 8) 4 false false true false [] (.prefetch (p.via.getD 0))).getD s
  else if s.unpowered (clusterOf c) then s
  else (s.fillLine c p).2

/-- The next line in the direction of a step, if it lies in the same region. -/
def State.nextLine (s : State) (p : Phys) (up : Bool) : Option Phys :=
  match p.via with
  | none => none
  | some r => match slookup r s.installed with
    | none => none
    | some e =>
      let a := p.pa - p.pa % 8
      if up then (if a + 8 < e.pbase + e.size * 64 then some { p with pa := a + 8 } else none)
      else if e.pbase + 8 ≤ a then some { p with pa := a - 8 } else none

/-! ## Issue of a load -/

/-- What a load finds for one word: the word at once, or a word that comes later. -/
structure WordIn where
  word : LoadWord
  late : Bool
  fwd : Option (Word × BitVec 4)
  fab : Option Phys
deriving DecidableEq, Repr

/-- A word of a load: what it has brought so far. -/
def wordIn (a : Nat × Phys) (got : Option (Option Word)) : LoadWord := { va := a.1, pa := a.2.pa, got := got, dev := a.2.dev }
def atOnce (a : Nat × Phys) (w : Word) : WordIn := ⟨wordIn a (some (some w)), false, none, none⟩

/-- A word read from memory for a load (R190, R191): at once from the cell's own store and from a line of the data cache, and
otherwise later, what the block's memories give being captured here. -/
def State.loadMemory (s : State) (c : Nat) (a : Nat × Phys) (fwd : Option (Word × BitVec 4)) : Ex WordIn :=
  let s := s.noteDet c a.2.pa
  let merged (w : Word) : Word := match fwd with
    | some (v, en) => mergeNonets w v en
    | none => w
  let later (w : Option Word) (s : State) : Ex WordIn := .ok ⟨wordIn a (some w), true, fwd, none⟩ s
  match s.cacheLine c a.2 with
  | some l => match s.cacheRead c a.2 l with
    | (some w, s) => .ok (atOnce a (merged w)) s
    | (none, s) => .flt { code := 7, info := 1, va := a.1, pa := a.2.pa } s
  | none =>
    if s.area a.2.pa = .fabric then .ok ⟨wordIn a none, true, fwd, some a.2⟩ s
    else if s.reach c a.2.pa = .own then (s.readMemory c a.1 a.2 1).bind fun w s => .ok (atOnce a (merged w)) s
    else if s.busBusy a.2.pa then .stall s
    else if s.cacheable c a.2 then
      match s.fillLine c a.2 with
      | (ws, s) => later (ws.getD (a.2.pa % 8) none) s
    else match s.busRead a.2.pa with
      | (.word w _, s) => later (some w) s
      | (.retry, s) => .stall s
      | (.bad, s) => later none s
      | (.error, s) => later none s

/-- One word of a load: a live entry (R113), the store buffer (R202, R203) or memory. DESIGN CHOICE (R203): where the buffer
holds every nonet that the load reads, memory is not read, so an error there is not met. -/
def State.loadWord (s : State) (c : Nat) (need : BitVec 4) (a : Nat × Phys) : Ex WordIn :=
  match s.liveSlot c a.2.pa 0 with
  | some l => (s.readLive c l).bind fun w s => .ok (atOnce a w) s
  | none =>
    match s.youngest c a.2.pa need with
    | none => s.loadMemory c a none
    | some (w, en) =>
      if en &&& need = need then .ok (atOnce a w) s
      else if s.throughput c then (s.drainFor c a.2.pa need).bind (fun _ s => s.loadMemory c a none)
      else
        let b := s.buffered c a.2.pa
        if b.2 &&& need = need then .ok (atOnce a b.1) s else s.loadMemory c a (some b)

/-- A word of a load comes later: it needs a place among the four pending loads (R191). -/
def State.beyond (s : State) (c : Nat) (need : BitVec 4) (a : Nat × Phys) : Bool :=
  !decide (s.reach c a.2.pa = .own) && (s.liveSlot c a.2.pa 0).isNone && (s.cacheLine c a.2).isNone &&
  (match s.youngest c a.2.pa need with
    | some (_, en) => decide (en &&& need ≠ need)
    | none => true)

/-- A fabric read that a load makes: address, beats, device class, and the region entry when a whole line is read. -/
structure LoadRead where
  addr : Nat
  beats : Nat
  dev : Bool
  line : Option Nat
deriving DecidableEq, Repr

/-- Fabric reads for the words of a load. -/
def State.loadReads (s : State) (c : Nat) (ps : List Phys) : List LoadRead :=
  let one (p : Phys) : LoadRead :=
    if s.cacheable c p then ⟨p.pa - p.pa % 8, 4, false, some (p.via.getD 0)⟩ else ⟨p.pa - p.pa % 2, 1, p.dev, none⟩
  match ps with
  | [p, q] =>
    if s.cacheable c p then if (one p).addr = (one q).addr ∧ s.cacheable c q then [one p] else [one p, one q]
    else if q.pa = p.pa + 1 ∧ p.pa % 16 ≠ 15 ∧ p.dev = q.dev ∧ ¬ s.cacheable c q then
      [⟨p.pa - p.pa % 2, 1 + p.pa % 2, p.dev, none⟩]
    else [one p, one q]
  | l => l.map one

def State.openRead (s : State) (c id : Nat) (r : LoadRead) : State :=
  (s.openTx c r.addr r.beats false r.dev false false [] (.load id r.line)).getD s

/-- Free transaction numbers of a cell. -/
def State.tagsFree (s : State) (c : Nat) : Nat :=
  ((List.range 16).filter (fun i =>
    !(s.fab.txs.any (fun x => decide (x.port = fabPort c ∧ x.tag = tagBase c + i))) &&
    !s.fab.retired.contains (fabPort c, tagBase c + i))).length

/-- The lowest load number not in use by the cell. -/
def Cell.loadId (x : Cell) : Nat := ((List.range 5).find? (fun i => !(x.loads.any (fun l => decide (l.id = i))))).getD 0

/-- A word as a nonet load takes it (R160). -/
def takeNonet (nonet : Option (BitVec 2)) (w : Word) : Word :=
  match nonet with
  | some n => BitVec.ofNat 36 (fld w (9 * n.toNat) 9)
  | none => w

/-- The slots that a load pushes, the deepest first: bank, slots with the old values of R120. -/
def Bank.pushSlots (k : Bank) (n : Nat) : Bank × List (Nat × Word) :=
  (List.range n).foldl (fun (acc : Bank × List (Nat × Word)) _ =>
    let k := { acc.1 with dsp := acc.1.dsp - 1, dw := acc.1.dw + 1 }
    let k := k.release (k.slot 0)
    (k, acc.2 ++ [(k.slot 0, k.dget (k.slot 0))])) (k, [])

/-- The word that a load has at once. -/
def WordIn.ready (i : WordIn) : Option Word := match i.word.got with
  | some w => w
  | none => none

/-- Finishes the issue of a load: pops `pops` entries, pushes the loaded slots, and starts the shadow after the last
iteration (R120). -/
def State.takeLoad (s : State) (c : Nat) (f : Formed) (pops : Nat) (nonet : Option (BitVec 2)) (ins : List WordIn)
    (last : Bool) : State :=
  let id := (s.cell c).loadId
  let late : Bool := ins.any (fun w => w.late)
  let before := s.cur c
  let (k, news) := ((s.cur c).popN pops).pushSlots ins.length
  let n := ins.length
  let idx := (List.range n).map (fun i => n - 1 - i)
  let slots := (news.map (fun q => q.1)).zip idx
  let k := if late then { k with pend := k.pend ++ slots.map (fun q => (q.1, id)) }
    else slots.foldl (fun k q => match (ins[q.2]?).bind WordIn.ready with
      | some w => k.dset q.1 (takeNonet nonet w)
      | none => k) k
  let k := if last then { k with shadow := news } else k
  let k := match f.after with
    | some v => k.setPtr f.sel v
    | none => k
  let s := s.setCur c k
  if late then
    let fwd := (List.range n).filterMap (fun i => ((ins[i]?).bind WordIn.fwd).map (fun q => (i, q.1, q.2)))
    let l : PendLoad := ⟨id, s.running c, slots, nonet, ins.map (fun w => w.word), fwd⟩
    let reads := s.loadReads c (ins.filterMap (fun w => w.fab))
    let s := s.modCell c (fun x => { x with
      loads := x.loads ++ [l], stall := if s.throughput c then x.stall else some (id, before) })
    (if reads.any (fun r => r.dev) then reads.take 1 else reads).foldl (fun s r => s.openRead c id r) s
  else s

/-- Listed cycles beyond the first of a data access (R157). -/
def State.chargeReach (s : State) (c : Nat) (l : List (Nat × Phys)) : State :=
  if l.any (fun a => decide (s.reachCost c a.2.pa = 24)) then s.chargeListed c 23 else s

/-- One iteration of LD or LDN: `pops` entries are popped, the address's own operand is entry `i`. -/
def State.loadStep (c : Nat) (x : Enc) (m : AddrMode) (nonetForm : Bool) (last : Bool) (s : State) : Ex Bool :=
  let size := if x.wide then 2 else 1
  let key : Ex (Option (BitVec 2)) :=
    if nonetForm then (s.operand c 0).bind fun w s => .ok (some (w.extractLsb' 0 2)) s else .ok none s
  key.bind fun nonet s =>
    (s.address c x m (if nonetForm then 1 else 0) size).bind fun f s =>
      let cap := (s.cur c).cap f.sel
      (s.locate c (s.cur c) cap cap.r f.ea size).bind fun l s =>
        (s.drainOld c).bind fun _ s =>
          let need := enables nonet
          let late : Bool := l.any (fun a => s.beyond c need a)
          let afar := s.loadReads c ((l.filter (fun a => s.beyond c need a && decide (s.area a.2.pa = .fabric))).map (fun a => a.2))
          if late ∧ ((s.cell c).loads.length ≥ 4 ∨ s.tagsFree c < afar.length) then .stall s
          else (s.deviceTurn c (l.any (fun a => a.2.dev))).bind fun _ s =>
            let s := s.watchAccess c false (l.map (fun a => a.1))
            let missing := (l.find? (fun a => s.cacheable c a.2 && s.beyond c need a)).map (fun a => a.2)
            let missed : Option Phys := match m with
              | .postInc _ => missing
              | .preDec _ => missing
              | _ => none
            ((Ex.collect l (fun a s => s.loadWord c need a) s).costs (fun s => s.chargeReach c l)).bind fun ins s =>
              let s := s.takeLoad c f (f.pops + b2n nonetForm) nonet ins last
              let up : Bool := match m with
                | .postInc _ => true
                | _ => false
              .ok false (match missed with
                | some p => match s.nextLine p up with
                  | some q => s.speculate c q
                  | none => s
                | none => s)

/-! ## Data that come back (R191, R192, R199) -/

/-- A load word with what the store buffer merges into it. -/
def PendLoad.word (l : PendLoad) (i : Nat) : Option Word :=
  match l.words[i]? with
  | some ⟨_, _, some (some w), _⟩ =>
    some (takeNonet l.nonet (match l.fwd.find? (fun q => decide (q.1 = i)) with
      | some (_, v, en) => mergeNonets w v en
      | none => w))
  | _ => none

def PendLoad.whole (l : PendLoad) : Bool := l.words.all (fun w => w.got.isSome)

/-- Writes a load's data into the slots that still wait for it; a slot whose word failed is marked (R192). -/
def Bank.deliver (k : Bank) (l : PendLoad) : Bank :=
  l.slots.foldl (fun k q =>
    if k.pend.contains (q.1, l.id) then
      let k := { k with pend := k.pend.filter (fun e => decide (e ≠ (q.1, l.id))) }
      match l.word q.2, l.words[q.2]? with
      | some w, _ => k.dset q.1 w
      | none, some lw => { k with dmark := ⟨q.1, 7, 3, BitVec.ofNat 32 lw.va, lw.pa⟩ :: k.dmark }
      | none, none => k
    else k) k

/-- A load's data have all come: they go to its slots, or a Deterministic cell that waits takes fault 7 at the load. The last
load of a REPN ends what holds off a switch (R105, R200). -/
def State.finishLoad (s : State) (c : Nat) (l : PendLoad) : State :=
  let s := s.modCell c (fun x => { x with loads := x.loads.filter (fun e => decide (e.id ≠ l.id)) })
  match (s.cell c).stall with
  | some (id, old) =>
    if id = l.id then
      let s := s.modCell c (fun x => { x with stall := none, hold := x.hold && decide ((s.bank c l.bank).rc ≠ 0) })
      let s := if l.words.all (fun w => decide (s.reach c w.pa = .cluster ∨ s.reach c w.pa = .own)) then s else s.wait c
      match l.words.find? (fun w => decide (w.got = some none)) with
      | some w => (s.setBank c l.bank old).faultOut c { code := 7, info := 1, va := w.va, pa := w.pa }
      | none => s.modBank c l.bank (fun k => k.deliver l)
    else s.modBank c l.bank (fun k => k.deliver l)
  | none => s.modBank c l.bank (fun k => k.deliver l)

/-- LOAD_DATA_RETURN: the oldest load whose data the block's memories have given. -/
def State.loadReturn (s : State) (c : Nat) : State :=
  match (s.cell c).loads.find? (fun l => l.whole) with
  | some l => s.finishLoad c l
  | none => s

/-- What a transaction brings to the words of a load: `none` an error. -/
def PendLoad.take (l : PendLoad) (t : FabTx) (data : Option (List Word)) : PendLoad :=
  { l with words := l.words.map (fun w =>
      if w.got.isNone ∧ t.addr ≤ w.pa ∧ w.pa < t.addr + 2 * t.beats then
        { w with got := some (data.map (fun d => d.getD (w.pa - t.addr) 0)) }
      else w) }

/-- Removes a transaction that has its response. -/
def State.closeTx (s : State) (t : FabTx) : State :=
  { s with fab := { s.fab with txs := s.fab.txs.filter (fun x => decide (x.port ≠ t.port ∨ x.tag ≠ t.tag)) } }

/-- The head entry of a store buffer has its response (R206). -/
def State.drainDone (s : State) (c : Nat) (ok : Bool) : State :=
  match (s.cell c).sb with
  | e :: rest =>
    if e.issued then
      let s := s.setSb c rest
      let s := if ok then
          (e.words.zip (List.range e.words.length)).foldl (fun s (q, i) =>
            let s := if e.ret then s.noteLine (e.pa + i) else s
            s.modCell c (fun x => x.cacheWrite (e.pa + i) q.1 q.2)) s
        else s.storeError c e.pa
      s.afterStore c
    else s
  | [] => s

/-- The class U message for a fetch or a load (R317). -/
def State.readError (s : State) (pa : Nat) : State := s.sendAddr srcFabric 0x10 clsU pa

/-- What a transaction brings to a blocking instruction: its words, or an error at each. -/
def Cell.receive (x : Cell) (t : FabTx) (data : Option (List Word)) : Cell :=
  { x with got := (List.range (2 * t.beats)).foldl (fun g i => sinsert (t.addr + i) (data.map (fun d => d.getD i 0)) g) x.got }

/-- A line enters the data cache with the words a transaction brought. -/
def Cell.fillFrom (x : Cell) (t : FabTx) (via : Option Nat) (data : Option (List Word)) : Cell :=
  match via, data with
  | some via, some d => x.install ⟨t.addr / 8, via, d, []⟩
  | _, _ => x

/-- The rest of a load whose device words are read one after the other (R312). -/
def State.nextRead (s : State) (c : Nat) (l : PendLoad) : State :=
  if s.fab.txs.any (fun t => decide (t.cell = c) && (match t.purpose with
      | .load id _ => decide (id = l.id)
      | _ => false)) then s
  else match l.words.find? (fun w => w.got.isNone) with
    | some w => s.openRead c l.id ⟨w.pa - w.pa % 2, 1, w.dev, none⟩
    | none => s

/-- A transaction ends with OKAY and its data, or with ERROR (R317). -/
def State.finishTx (s : State) (t : FabTx) (data : Option (List Word)) : State :=
  let s := s.closeTx t
  let s := if data.isNone then s.bump (Reg.BLK_FMERR_COUNT t.port) else s
  let report (s : State) : State := if data.isNone then s.readError t.addr else s
  match t.purpose with
  | .drain => s.drainDone t.cell data.isSome
  | .write =>
    if data.isNone then (s.modCell t.cell (fun x => x.cacheDrop (t.addr / 8))).storeError t.cell t.addr else s
  | .dropped => if t.wr then (if data.isNone then s.storeError t.cell t.addr else s) else if t.spec then s else report s
  | .words line =>
    (report s).modCell t.cell (fun x => (x.receive t data).fillFrom t line data)
  | .prefetch via => s.modCell t.cell (fun x => x.fillFrom t (some via) data)
  | .code via =>
    match data with
    | some d => s.modCell t.cell (fun x => { x with icache := cacheIn x.icache ⟨t.addr / 8, via, d, []⟩ })
    | none => (report s).modCell t.cell (fun x => x.receive t data)
  | .load id line =>
    let s := (report s).modCell t.cell (fun x => x.fillFrom t line data)
    let s := s.modCell t.cell (fun x => { x with loads := x.loads.map (fun l => if l.id = id then l.take t data else l) })
    match (s.cell t.cell).loads.find? (fun l => decide (l.id = id)) with
    | some l => if l.whole then s.finishLoad t.cell l else s.nextRead t.cell l
    | none => s

/-- The transaction of a port and TAG. -/
def State.txOf (s : State) (p tag : Nat) : Option FabTx := s.fab.txs.find? (fun t => decide (t.port = p ∧ t.tag = tag))

/-- A response of a transaction that timed out, or 65,536 further cycles, free its TAG (R317). -/
def State.freeRetired (s : State) (p tag : Nat) : State :=
  { s with fab := { s.fab with retired := s.fab.retired.filter (fun q => decide (q ≠ (p, tag))) } }

/-- FABRIC_RESPONSE (R315, R317): `st` 0 OKAY with its data, 1 RETRY, otherwise ERROR. -/
def State.fabricResponse (s : State) (p tag st : Nat) (data : List Word) : State :=
  match s.txOf p tag with
  | none =>
    if s.fab.retired.contains (p, tag) then (s.freeRetired p tag).bump (Reg.BLK_FMLATE_COUNT p) else s
  | some t =>
    if t.unsent ≠ 0 ∨ t.retry then s
    else if st = 1 then
      if t.spec then s.closeTx t
      else { s with fab := { s.fab with txs := s.fab.txs.map (fun (x : FabTx) =>
                          if x.port = p ∧ x.tag = tag then { x with retry := true } else x) } }
    else if st = 0 then
      if t.wr then s.finishTx t (some []) else if data.length = 2 * t.beats then s.finishTx t (some data) else s
    else s.finishTx t none

/-- RETRY_REISSUE (R317): the transaction goes again behind those whose beats are still being sent (R315). -/
def State.retryReissue (s : State) (p tag : Nat) : State :=
  match s.txOf p tag with
  | some t =>
    if t.retry then
      let again : FabTx := { t with retry := false, unsent := if t.wr then 1 + t.beats else 1 }
      { s with fab := { s.fab with txs := (s.closeTx t).fab.txs ++ [again] } }.pump p
    else s
  | none => s

/-- FABRIC_TIMEOUT (R317): the transaction is treated as ERROR and its TAG retired; a retired TAG whose further wait has
passed is free again. -/
def State.fabricTimeout (s : State) (p tag : Nat) : State :=
  match s.txOf p tag with
  | some t =>
    let s := s.finishTx t none
    { s with fab := { s.fab with retired := s.fab.retired ++ [(p, tag)] } }
  | none => s.freeRetired p tag

/-- CREDIT_RETURN (R313). -/
def State.creditReturn (s : State) (p : Nat) : State :=
  { s with fab := { s.fab with
      credits := s.fab.credits.setIfInBounds p (min 64 (s.fab.credits.toList.getD p 0 + 1)),
      qinit := s.fab.qinit.setIfInBounds p false } }.pump p

end Sys2Proof.Machine
end

