-- ==== Sys2Proof/Machine/Flags.lean ====
section
/-! DEFINITION. Flags.lean: the flag rules and the number, shift, bit-field and lane operations on the words of an item (05 R130, R131, R135-R137). -/

namespace Sys2Proof.Machine

open Sys2Proof


/-! ## Overflow and division by zero (R129-R131) -/

def Bank.ove (k : Bank) : Bool := bit k.flags 1
def Bank.dze (k : Bank) : Bool := bit k.flags 3
def Bank.setOv (k : Bank) : Bank := { k with flags := setFld k.flags 0 1 1 }
def Bank.setDz (k : Bank) : Bank := { k with flags := setFld k.flags 2 1 1 }

/-- A result under R130: its value, the bank with OV noted, and whether it overflowed. -/
structure Narrowed where
  value : Int
  bank : Bank
  past : Bool
deriving DecidableEq, Repr

/-- result(x, lo, hi, w) of R130; none is fault 4. -/
def narrow (k : Bank) (sat : Bool) (lo hi : Int) (w : Nat) (x : Int) : Option Narrowed :=
  if lo ≤ x ∧ x ≤ hi then some ⟨x, k, false⟩
  else if k.ove then none
  else some ⟨if sat then min (max x lo) hi else lo + (x - lo) % (2 ^ w : Nat), k.setOv, true⟩

def signedLo (w : Nat) : Int := -(2 ^ (w - 1) : Nat)
def signedHi (w : Nat) : Int := (2 ^ (w - 1) : Nat) - 1
def unsignedHi (w : Nat) : Int := (2 ^ w : Nat) - 1

/-- What a division gives (R131): fault 3, fault 4, or the quotient and the bank with its flags, with what was noted. -/
inductive Divided where
  | zero
  | past
  | ok (q : Int) (k : Bank) (dz : Bool) (ov : Bool)
deriving DecidableEq, Repr

/-- divide(a, b, lo, hi, w) of R131. -/
def divide (k : Bank) (sat : Bool) (lo hi : Int) (w : Nat) (a b : Int) : Divided :=
  if b = 0 then
    if k.dze then .zero else .ok (if a < 0 then lo else hi) k.setDz true false
  else
    match narrow k sat lo hi w (Int.tdiv a b) with
    | none => .past
    | some n => .ok n.value n.bank false n.past

def widthOf (x : Enc) : Nat := if x.wide then 72 else 36
def itemOf (x : Enc) : Nat := if x.wide then 2 else 1

/-- Item `i` of the operands read, S0 first, as an unsigned number. -/
def itemAt (x : Enc) (ws : List Word) (i : Nat) : Nat :=
  if x.wide then (ws.getD (2 * i) 0).toNat + (ws.getD (2 * i + 1) 0).toNat * 2 ^ 36 else (ws.getD i 0).toNat

/-- The immediate at the operand's width (R98, R126). -/
def immAt (x : Enc) (w : Nat) : Nat := wrapNat (encImm x) w

/-- The operands a and b of a two-operand instruction: b is S0, or the immediate. -/
def pairOf (x : Enc) (ws : List Word) : Nat × Nat :=
  if x.ext = [] then (itemAt x ws 1, itemAt x ws 0) else (itemAt x ws 0, immAt x (widthOf x))

/-- An item as pushed words, the deepest first. -/
def pushItem (x : Enc) (v : Nat) : List Word :=
  if x.wide then [BitVec.ofNat 36 (v / 2 ^ 36), BitVec.ofNat 36 v] else [BitVec.ofNat 36 v]

/-- The form of an instruction on items: `n` items popped, `m` pushed. -/
def itemForm (x : Enc) (n m : Nat) : Form := { wide := true, pops := n * itemOf x, pushes := m * itemOf x }

/-- The form of a two-operand instruction whose second operand may be an immediate. -/
def pairForm (x : Enc) (m : Nat) : Form := { itemForm x (if x.ext = [] then 2 else 1) m with exts := ext06 }

def asSigned (x : Enc) (v : Nat) : Int := sextNat v (widthOf x)

/-- A result that R130 forms, pushed as an item; fault 4 otherwise. -/
def pushResult (x : Enc) (r : Option Narrowed) : Calc :=
  match r with
  | some n => .ok (pushItem x (wrapNat n.value (widthOf x))) n.bank
  | none => .flt 4 1

/-- The complement of a pattern at the instruction's width. -/
def complement (x : Enc) (v : Nat) : Nat := 2 ^ widthOf x - 1 - v % 2 ^ widthOf x

def shlOp (w a n : Nat) : Nat := if n ≥ w then 0 else a * 2 ^ n % 2 ^ w
def shrOp (w a n : Nat) : Nat := if n ≥ w then 0 else a / 2 ^ n
def sarOp (w a n : Nat) : Nat := wrapNat (sextNat a w / (2 ^ min n w : Nat)) w
def rolOp (w a n : Nat) : Nat := a * 2 ^ (n % w) % 2 ^ w + a / 2 ^ (w - n % w)

/-- The mask of a field of width `w` at `p`, cut at bit 35 (R136). -/
def cutMask (p w : Nat) : Nat := (2 ^ w - 1) * 2 ^ p % 2 ^ 36
def insOp (d v p w : Nat) : Nat :=
  ((BitVec.ofNat 36 d &&& ~~~ BitVec.ofNat 36 (cutMask p w)) ||| (BitVec.ofNat 36 (v * 2 ^ p) &&& BitVec.ofNat 36 (cutMask p w))).toNat
def extOp (a p w : Nat) : Nat := a / 2 ^ p % 2 ^ min w 36
def extsOp (a p w : Nat) : Nat := if 1 ≤ w ∧ w ≤ 36 then wrapNat (sextNat (extOp a p w) w) 36 else extOp a p w

/-- Position and width of a bit field: S1[5:0] and S0[5:0], or imm[11:6] and imm[5:0]; with the other operands. -/
def fieldOf (x : Enc) (ws : List Word) : Nat × Nat × List Word :=
  if x.ext = [] then (fld (ws.getD 1 0) 0 6, fld (ws.getD 0 0) 0 6, ws.drop 2)
  else (immAt x 36 / 64 % 64, immAt x 36 % 64, ws)

/-- Leading zeros of the low `w` bits. -/
def clzOp (w a : Nat) : Nat := ((List.range w).find? (fun i => a.testBit (w - 1 - i))).getD w
def popcOp (w a : Nat) : Nat := ((List.range w).filter (fun i => a.testBit i)).length

/-- NPERM (R137). -/
def npermOp (a : Word) (sel : Nat) : Word :=
  BitVec.ofNat 36 (((List.range 4).map (fun j => fld a (9 * (sel / 4 ^ j % 4)) 9 * 2 ^ (9 * j))).foldl (· + ·) 0)

/-- Writes Pn; a write to P0 is discarded. -/
def Bank.setPred (k : Bank) (n : BitVec 3) (b : Bool) : Bank :=
  if n = 0 then k else { k with p := if b then k.p ||| (1#8 <<< n.toNat) else k.p &&& ~~~ (1#8 <<< n.toNat) }

/-- The predicate that an instruction writes, P0 excepted. -/
def predOf (n : BitVec 3) : Option Nat := if n = 0 then none else some n.toNat

def sw (w : Word) : Int := w.toInt

def Bank.acc (k : Bank) (one : Bool) : Acc := if one then k.acc1 else k.acc0
def Bank.setAcc (k : Bank) (one : Bool) (a : Acc) : Bank := if one then { k with acc1 := a } else { k with acc0 := a }

/-- rnd(acc, s) of R140. -/
def roundAcc (acc : Int) (n : Nat) : Int :=
  if n = 0 then acc else if n ≥ 80 then 0 else (acc + (2 ^ (n - 1) : Nat)) / (2 ^ n : Nat)

/-- What a division pushes: its quotient. -/
def divCalc (d : Divided) : Calc :=
  match d with
  | .zero => .flt 3 1
  | .past => .flt 4 1
  | .ok q k _ _ => .ok [BitVec.ofInt 36 q] k

/-- floor of the square root of a number below 2^(2n), bit by bit. -/
def sqrtBits (u : Nat) : Nat → Nat → Nat
  | 0, r => r
  | n + 1, r => sqrtBits u n (if (r + 2 ^ n) * (r + 2 ^ n) ≤ u then r + 2 ^ n else r)

end Sys2Proof.Machine
end

