-- ==== Sys2Proof/Machine/Values.lean ====
section
/-! DEFINITION. Values.lean: point values, their quality, lanes, and binary32 numbers (03 R66-R81, 05 R144-R149). -/

namespace Sys2Proof.Machine

open Sys2Proof


/-! ## Validity (R66, R67) -/

/-- Order of a validity code: good 0, questionable 1, invalid and reserved 2. -/
def rank (v : Nat) : Nat := if v = 0 then 0 else if v = 3 then 1 else 2
def codeOf (n : Nat) : Nat := if n = 0 then 0 else if n = 1 then 3 else 1
/-- worst() of two validities. -/
def worst (a b : Nat) : Nat := codeOf (max (rank a) (rank b))

def laneV (l : Nat) : Nat := l % 2
def laneTst (l : Nat) : Nat := l / 8 % 2
def mkLane (v val tst : Nat) : Nat := v + 2 * val + 8 * tst

/-- Dominant logic on two lanes: `d` is the deciding value, `op` combines the values (R72-R75). -/
def dominant (d : Nat) (op : Nat → Nat → Nat) (a b : Nat) : Nat :=
  let da := decide (laneV a = d) && decide (laneVal a = 0)
  let db := decide (laneV b = d) && decide (laneVal b = 0)
  if da && db then mkLane d 0 (laneTst a * laneTst b)
  else if da then mkLane d 0 (laneTst a)
  else if db then mkLane d 0 (laneTst b)
  else mkLane (op (laneV a) (laneV b)) (worst (laneVal a) (laneVal b)) (max (laneTst a) (laneTst b))

def bandLane (a b : Nat) : Nat := dominant 0 (fun x y => x * y) a b
def borLane (a b : Nat) : Nat := dominant 1 max a b
def bxorLane (a b : Nat) : Nat :=
  mkLane ((laneV a + laneV b) % 2) (worst (laneVal a) (laneVal b)) (max (laneTst a) (laneTst b))
def bnotLane (a : Nat) : Nat := mkLane (1 - laneV a) (normVal (laneVal a)) (laneTst a)

/-- Every lane from the same lanes of the operands (R70), or lane 0 alone with the others 0 (R69). -/
def lanesOf (scalar : Bool) (g : List Nat → Nat) (ws : List Word) : Word :=
  (List.range (if scalar then 1 else 9)).foldl (fun r k => setLane r k (g (ws.map (fun w => lane w k)))) 0

def pwVal (w : Word) : Nat := fld w 34 2
def pwTst (w : Word) : Nat := fld w 33 1
def pwSub (w : Word) : Nat := fld w 32 1
def pwBits (w : Word) : Nat := fld w 0 32
def pwInt (w : Word) : Int := sextNat (pwBits w) 32

/-- A result with VALUE and the quality of R80 over its operands, degraded at least to `least` (R81). -/
def pwResult (value : Nat) (ws : List Word) (least : Nat) : Word :=
  let val := ws.foldl (fun v w => worst v (pwVal w)) least
  let tst := ws.foldl (fun v w => max v (pwTst w)) 0
  let sub := ws.foldl (fun v w => max v (pwSub w)) 0
  setFld (setFld (setFld (BitVec.ofNat 36 (value % 2 ^ 32)) 32 1 sub) 33 1 tst) 34 2 (worst val 0)

def good : Nat := 0
def invalid : Nat := 1
def questionable : Nat := 3

/-- A binary32 value: a finite one is its sign, significand m and exponent e, for m * 2^e. -/
inductive F32 where
  | nan
  | inf (neg : Bool)
  | fin (neg : Bool) (m : Nat) (e : Int)
deriving DecidableEq, Repr

def f32Of (b : Nat) : F32 :=
  let neg : Bool := decide (b / 2 ^ 31 % 2 = 1)
  let ex : Nat := b / 2 ^ 23 % 256
  let fr : Nat := b % 2 ^ 23
  if ex = 255 then if fr = 0 then .inf neg else .nan
  else if ex = 0 then .fin neg fr (-149)
  else .fin neg (fr + 2 ^ 23) ((ex : Int) - 150)

def signBit (neg : Bool) : Nat := if neg then 2 ^ 31 else 0
def nanBits : Nat := 0x7FC00000
def infBits (neg : Bool) : Nat := signBit neg + 0x7F800000

/-- Rounds m / 2^n to nearest, ties to even; `more` tells that the exact value lies a little above m / 2^n. -/
def roundShift (m n : Nat) (more : Bool) : Nat :=
  if n = 0 then m
  else
    let q := m / 2 ^ n
    let r := m % 2 ^ n
    let half := 2 ^ (n - 1)
    if r > half ∨ (r = half ∧ (more ∨ q % 2 = 1)) then q + 1 else q

/-- The binary32 pattern of (-1)^neg * m * 2^e rounded to nearest, ties to even; `more` as in `roundShift`. -/
def f32Round (neg : Bool) (m : Nat) (e : Int) (more : Bool) : Nat :=
  if m = 0 then signBit neg
  else
    let q : Int := max (e + (Nat.log2 m + 1 : Nat) - 24) (-149)
    let r := if q ≤ e then m * 2 ^ (e - q).toNat else roundShift m (q - e).toNat more
    let (r, q) := if r ≥ 2 ^ 24 then (r / 2, q + 1) else (r, q)
    if r < 2 ^ 23 then signBit neg + r
    else if q + 150 ≥ 255 then infBits neg
    else signBit neg + (q + 150).toNat * 2 ^ 23 + (r - 2 ^ 23)

def F32.neg? : F32 → F32
  | .nan => .nan
  | .inf n => .inf (!n)
  | .fin n m e => .fin (!n) m e

def f32Add (a b : F32) : Nat :=
  match a, b with
  | .nan, _ => nanBits
  | _, .nan => nanBits
  | .inf n, .inf k => if n = k then infBits n else nanBits
  | .inf n, .fin _ _ _ => infBits n
  | .fin _ _ _, .inf k => infBits k
  | .fin n m e, .fin k p f =>
    let g := min e f
    let x : Int := (if n then -1 else 1) * (m * 2 ^ (e - g).toNat : Nat)
    let y : Int := (if k then -1 else 1) * (p * 2 ^ (f - g).toNat : Nat)
    if x + y = 0 then signBit (n && k) else f32Round (decide (x + y < 0)) (x + y).natAbs g false

def f32Mul (a b : F32) : Nat :=
  match a, b with
  | .nan, _ => nanBits
  | _, .nan => nanBits
  | .inf n, .inf k => infBits (n != k)
  | .inf n, .fin k p _ => if p = 0 then nanBits else infBits (n != k)
  | .fin n m _, .inf k => if m = 0 then nanBits else infBits (n != k)
  | .fin n m e, .fin k p f => f32Round (n != k) (m * p) (e + f) false

/-- Division by a divisor that is not zero. -/
def f32Div (a b : F32) : Nat :=
  match a, b with
  | .nan, _ => nanBits
  | _, .nan => nanBits
  | .inf _, .inf _ => nanBits
  | .inf n, .fin k _ _ => infBits (n != k)
  | .fin n _ _, .inf k => signBit (n != k)
  | .fin n m e, .fin k p f =>
    f32Round (n != k) (m * 2 ^ 64 / p) (e - f - 64) (decide (m * 2 ^ 64 % p ≠ 0))

def f32Less (a b : F32) : Bool :=
  match a, b with
  | .nan, _ => false
  | _, .nan => false
  | .inf n, .inf k => n && !k
  | .inf n, .fin _ _ _ => n
  | .fin _ _ _, .inf k => !k
  | .fin n m e, .fin k p f =>
    let g := min e f
    decide ((if n then -1 else 1) * ((m * 2 ^ (e - g).toNat : Nat) : Int) < (if k then -1 else 1) * ((p * 2 ^ (f - g).toNat : Nat) : Int))

def f32Eq (a b : F32) : Bool :=
  match a, b with
  | .nan, _ => false
  | _, .nan => false
  | a, b => !f32Less a b && !f32Less b a

def isNan (v : Nat) : Bool := decide (f32Of v = .nan)
def isInf (v : Nat) : Bool := decide (f32Of v = .inf false) || decide (f32Of v = .inf true)

/-- Least validity of a binary32 result (R81). -/
def floatLeast (v : Nat) (ws : List Word) : Nat :=
  if isNan v then invalid else if isInf v && !ws.any (fun w => isInf (pwBits w)) then questionable else good

def pwFloat (w : Word) : F32 := f32Of (pwBits w)

/-- The integer nearest to a finite value, ties to even. -/
def f32ToInt (neg : Bool) (m : Nat) (e : Int) : Int :=
  (if neg then -1 else 1) * ((if 0 ≤ e then m * 2 ^ e.toNat else roundShift m (-e).toNat false : Nat) : Int)

end Sys2Proof.Machine
end

