-- ==== Sys2Proof/Machine/Store.lean ====
section
/-! DEFINITION. Store.lean: what stores, capability instructions, moves to and from bank registers, image instructions,
synchronisation, SAVEM and LOADM, and the function blocks do (05 R150-R156, 06 R157-R172, R181-R184). -/

namespace Sys2Proof.Machine

open Sys2Proof

/-! ## Loads and stores (R159-R164) -/

def loadForm (x : Enc) (m : AddrMode) (nonetForm : Bool) : Form :=
  { op := modeSyllables m, exts := modeExts m, wide := !nonetForm, load := true, bad := nonetForm && !modeNonet m,
    pops := modePops m + b2n nonetForm, pushes := if x.wide then 2 else 1 }

/-- A word placed in nonet `n` (R160). -/
def placeNonet (nonet : Option (BitVec 2)) (w : Word) : Word :=
  match nonet with
  | some n => BitVec.ofNat 36 (fld w 0 9) <<< (9 * n.toNat)
  | none => w

/-- One iteration of ST or STN. -/
def State.storeStep (c : Nat) (x : Enc) (m : AddrMode) (nonetForm : Bool) (_ : Bool) (s : State) : Ex Bool :=
  let size := if x.wide then 2 else 1
  let under := modePops m + b2n nonetForm
  let key : Ex (Option (BitVec 2)) :=
    if nonetForm then (s.operand c 0).bind fun w s => .ok (some (w.extractLsb' 0 2)) s else .ok none s
  key.bind fun nonet s =>
    (s.address c x m (b2n nonetForm) size).bind fun f s =>
      (s.operands c ((List.range size).map (fun i => under + i))).bind fun ws s =>
        let cap := (s.cur c).cap f.sel
        (s.locate c (s.cur c) cap cap.w f.ea size).bind fun l s =>
          (s.storeWords c l (ws.map (placeNonet nonet)) (enables nonet) false x.wide (under + size)).bind fun _ s =>
            let s := s.modCur c (fun k =>
              let k := k.popN (under + size)
              match f.after with
              | some v => k.setPtr f.sel v
              | none => k)
            .ok false (s.chargeReach c l)

def storeForm (x : Enc) (m : AddrMode) (nonetForm : Bool) : Form :=
  { op := modeSyllables m, exts := modeExts m, wide := !nonetForm, bad := nonetForm && !modeNonet m,
    pops := modePops m + b2n nonetForm + if x.wide then 2 else 1 }

/-! ## Writing C2 and C3 (R114, R167) -/

/-- Pops the `n` operands and writes Cn: C3 after the spill of both windows under the old values (R114), C2 with a refetch of
the next instruction (R167), which costs an instruction of a fixed count its 6 cycles in every mode (R189). -/
def State.writeCap (s : State) (c n : Nat) (d : BitVec 2) (q : Cap) (fixed : Bool) : Ex Unit :=
  if d = 3 then
    (s.spillBelow c n).bind fun _ s =>
      .ok () (s.modCur c (fun k => { (k.popN n).setCap d q with dw := 0, rw := 0, dmark := [], rmark := [] }))
  else
    let s := s.modCur c (fun k => (k.popN n).setCap d q)
    .ok () (if d = 2 then (if fixed then s.charge c 6 else s.chargeListed c 6).flushPq c else s)

/-! ## Capability instructions (R165, R166) -/

def oddAddress (ea : Nat) : CellFault := { code := 2, info := 5, va := ea }

/-- One of the words is a live window entry, which carries no tag (R113, R161). -/
def State.anyLive (s : State) (c : Nat) (l : List (Nat × Phys)) : Bool := l.any (fun a => (s.liveSlot c a.2.pa 0).isSome)

/-- Reads the capability at two words whose checks have passed. -/
def State.readCap (s : State) (c : Nat) (l : List (Nat × Phys)) : Ex Cap :=
  (s.readWords c 1 l).bind fun ws s =>
    let pa := (l.map (fun a => a.2.pa)).getD 0 0
    let (tag, s) := s.readTagOf c pa
    .ok ⟨ws.getD 0 0, ws.getD 1 0, tag && !s.anyLive c l⟩ s

/-- CLD. -/
def State.cldStep (c : Nat) (x : Enc) (d a : BitVec 2) (_ : Bool) (s : State) : Ex Bool :=
  let k := s.cur c
  let ea := wrapNat ((k.ptr a).toNat + encImm x) 32
  if ea % 2 = 1 then .flt (oddAddress ea) s
  else (s.locate c k (k.cap a) (k.cap a).r ea 2).bind fun l s =>
    ((s.readCap c l).costs (fun s => s.chargeReach c l)).bind fun q s => (s.writeCap c 0 d q false).bind fun _ s => .ok false s

/-- CST. -/
def State.cstStep (c : Nat) (x : Enc) (d a : BitVec 2) (_ : Bool) (s : State) : Ex Bool :=
  let k := s.cur c
  let ea := wrapNat ((k.ptr a).toNat + encImm x) 32
  let q := k.cap d
  if ea % 2 = 1 then .flt (oddAddress ea) s
  else (s.locate c k (k.cap a) ((k.cap a).w && (!q.tag || (k.cap a).m)) ea 2).bind fun l s =>
    (s.storeWords c l [q.lo, q.hi] 0xF q.tag true 0).bind fun _ s => .ok false (s.chargeReach c l)

/-- What a rule on capabilities gives: the new register, or the INFO of fault 2. -/
abbrev CapRule := Except Nat Cap

/-- cnarrow (R166). -/
def narrowCap (q : Cap) (b l : Word) : CapRule :=
  if ¬ q.tag then .error 1
  else if q.lock ≠ 0 ∧ q.lock ≠ 255 then .error 2
  else if fld b 0 32 < q.base ∨ l.toNat ≥ 2 ^ 28 ∨ fld b 0 32 + l.toNat > q.top then .error 4
  else .ok { q with lo := setFld q.lo 0 32 (fld b 0 32), hi := setFld q.hi 0 28 l.toNat }

/-- cperm (R166). -/
def permCap (q : Cap) (m : Word) : CapRule :=
  if ¬ q.tag then .error 1
  else if q.lock ≠ 0 then .error 2
  else .ok { q with lo := setFld q.lo 32 4 (q.perm &&& fld m 0 4) }

/-- cshut (R166). -/
def shutCap (q key : Cap) (t : Word) : CapRule :=
  if ¬ q.tag then .error 1
  else if q.lock ≠ 0 then .error 2
  else if ¬ key.isKey then .error 7
  else if t.toNat < 1 ∨ t.toNat > 254 ∨ t.toNat < key.base ∨ t.toNat ≥ key.top then .error 7
  else .ok (q.withLock t.toNat)

/-- copen (R166). -/
def openCap (q key : Cap) : CapRule :=
  if ¬ q.tag then .error 1
  else if q.lock = 0 ∨ q.lock = 255 then .error 7
  else if ¬ key.isKey then .error 7
  else if q.lock < key.base ∨ q.lock ≥ key.top then .error 7
  else .ok (q.withLock 0)

/-- A capability instruction on `n` popped operands that writes Ca. -/
def State.capStep (c : Nat) (n : Nat) (a : BitVec 2) (g : Bank → List Word → CapRule) (_ : Bool) (s : State) : Ex Bool :=
  (s.operands c (List.range n)).bind fun ws s =>
    match g (s.cur c) ws with
    | .error info => s.fault2 info
    | .ok q => (s.writeCap c n a q false).bind fun _ s => .ok false s

/-- The register that the extension syllable names (R158). -/
def secondCap (x : Enc) : BitVec 2 := BitVec.ofNat 2 (encRaw x)
def secondForm (x : Enc) (n : Nat) : Form := { exts := [1], rep := false, bad := decide (encRaw x ≥ 4), pops := n }

/-! ## Moves to and from bank registers (R168, R169) -/

/-- SETDSP and SETRSP (R114, R169): the operand is popped only once nothing can wait or fault any more. -/
def State.setSpStep (c : Nat) (ret : Bool) (_ : Bool) (s : State) : Ex Bool :=
  (s.operand c 0).bind fun w s =>
    let k := (s.cur c).popN 1
    let v := fld w 0 32
    let dsp := if ret then k.dsp.toNat else v
    let rsp := if ret then v else k.rsp.toNat
    if (k.c[3]).base ≤ rsp ∧ rsp ≤ dsp ∧ dsp ≤ (k.c[3]).top then
      (s.spillBelow c 1).bind fun _ s =>
        .ok false (s.modCur c (fun k => { k.popN 1 with
          dsp := BitVec.ofNat 32 dsp, rsp := BitVec.ofNat 32 rsp, dw := 0, rw := 0, dmark := [], rmark := [] }))
    else .flt { code := 5, info := 4 } s

/-! ## Image instructions (R170-R172) -/

/-- An image load of word index `w`: the plane's word as Rime serves it. -/
def State.imageLoad (c : Nat) (bits : Bool) (view : State → Nat → Word) (last : Bool) (s : State) : Ex Bool :=
  (s.operand c 0).bind fun p s =>
    let index := if bits then fld p 4 17 else p.toNat
    if index ≥ 131072 ∨ (bits ∧ (fld p 21 15 ≠ 0 ∨ fld p 0 4 > 8)) then s.fault2 8
    else
      let w := view s index
      let v := if bits then BitVec.ofNat 36 (lane w (fld p 0 4)) else w
      .ok false (s.takeLoad c ⟨0, 0, 0, none⟩ 1 none [⟨{ va := 0, pa := 0, got := some (some v) }, false, none, none⟩] last)

/-- STIM and BST. -/
def State.imageSt (c : Nat) (bits : Bool) (_ : Bool) (s : State) : Ex Bool :=
  (s.operands c [0, 1]).bind fun ws s =>
    let p := ws.getD 0 0
    let index := if bits then fld p 4 17 else p.toNat
    if index ≥ 131072 ∨ (bits ∧ (fld p 21 15 ≠ 0 ∨ fld p 0 4 > 8)) then s.fault2 8
    else match s.imageStore c index (if bits then some (fld p 0 4) else none) (ws.getD 1 0) with
      | (true, s) => .ok false (s.modCur c (fun k => k.popN 2))
      | (false, s) => s.fault2 8

/-! ## Synchronisation (R181, R182) -/

def syncForm (cyc pops : Nat) : Form := { rep := false, cyc := cyc, pops := pops }

/-- PREF (R182, R311). -/
def State.prefStep (c : Nat) (_ : BitVec 2) (_ : Bool) (s : State) : Ex Bool :=
  (s.operand c 0).bind fun w s =>
    let s := s.modCur c (fun k => k.popN 1)
    if s.throughput c then
      let s := s.refill c (fld w 0 32)
      .ok false (match s.translate c (s.cur c).dom.toNat (fld w 0 32) with
        | some p => s.speculate c p
        | none => s)
    else .ok false s

/-- FENCE (R182): every earlier load has completed, and every earlier store has been written. -/
def State.fenceStep (c : Nat) (_ : Bool) (s : State) : Ex Bool :=
  (s.drainAll c).bind fun _ s =>
    if (s.cell c).loads ≠ [] ∨ s.fab.txs.any (fun t => decide (t.cell = c ∧ t.purpose = .write)) then .stall s else .ok false s

/-- FLUSHI (R182): the store buffer drains, and the prefetch queue and the instruction cache are invalidated. -/
def State.flushiStep (c : Nat) (_ : Bool) (s : State) : Ex Bool :=
  (s.drainAll c).bind fun _ s => .ok false (s.modCell c (fun x => { x with pq := [], icache := [] }))

/-! ## SAVEM and LOADM (R183, R184) -/

/-- Words of item `i`. -/
def itemWords (i : Nat) : Nat := if i ≤ 3 then 2 else if i ≤ 10 then 1 else 3

/-- Offset of item `i` among the items that the mask selects. -/
def itemOffset (m : Word) (i : Nat) : Nat :=
  ((List.range i).filter (fun j => bit m j)).foldl (fun a j => a + itemWords j) 0

/-- The words in which SAVEM saves an item. -/
def Bank.item (k : Bank) (i : Nat) : List Word :=
  match i with
  | 8 => [k.rc]
  | 9 => [setFld k.flags 6 4 0]
  | 10 => [setFld 1 1 7 (k.p.toNat / 2)]
  | 11 => [accLo k.acc0, accMid k.acc0, accGuard k.acc0]
  | 12 => [accLo k.acc1, accMid k.acc1, accGuard k.acc1]
  | _ => [(k.a.toList.getD (i - 4) 0).setWidth 36]

/-- The bank with an item other than a capability loaded. -/
def Bank.withItem (k : Bank) (i : Nat) (ws : List Word) : Bank :=
  let w := ws.getD 0 0
  match i with
  | 8 => { k with rc := w }
  | 9 => { k with flags := setFld (w &&& flagMask) 6 4 k.mp }
  | 10 => { k with p := BitVec.ofNat 8 (2 * fld w 1 7 + 1) }
  | 11 => { k with acc0 := accOf w (ws.getD 1 0) (ws.getD 2 0) }
  | 12 => { k with acc1 := accOf w (ws.getD 1 0) (ws.getD 2 0) }
  | _ => { k with a := k.a.setIfInBounds (i - 4) (w.setWidth 32) }

/-- Stores a word that the instruction in progress has not stored yet; it pops `skip` data entries. -/
def State.storeOnce (s : State) (c skip : Nat) (a : Nat × Phys) (w : Word) : Ex Unit :=
  if (s.cell c).sent.contains a.1 then .ok () s
  else (s.storeWords c [a] [w] 0xF false false skip).bind fun _ s => .ok () (s.modCell c (fun x => { x with sent := a.1 :: x.sent }))

/-- Stores an item at words whose checks have passed. -/
def State.saveItem (s : State) (c i : Nat) (l : List (Nat × Phys)) : Ex Unit :=
  let k := s.cur c
  if i ≤ 3 then
    let q := k.c.toList.getD i Cap.null
    s.storeWords c l [q.lo, q.hi] 0xF q.tag true 0
  else Ex.each (l.zip (k.item i)) (fun (a, w) s => s.storeOnce c 0 a w) s

/-- Loads an item from words whose checks have passed, and gives them; the item `own` is the instruction's own pointer,
which keeps its value until completion (R184). -/
def State.loadItem (s : State) (c i own : Nat) (l : List (Nat × Phys)) : Ex (List Word) :=
  if i ≤ 3 then (s.readCap c l).bind fun q s => (s.writeCap c 0 (BitVec.ofNat 2 i) q true).bind fun _ s => .ok [] s
  else (s.readWords c 1 l).bind fun ws s =>
    .ok ws (if i = own then s else s.modCur c (fun k => k.withItem i ws))

def State.setMp (s : State) (c v : Nat) : State := s.modCur c (fun k => { k with flags := setFld k.flags 6 4 v })

/-- What the words of an item cost, in every mode (R181, R189); one that no region maps counts as one of the cell store (DESIGN
CHOICE, R186). -/
def State.itemCost (s : State) (c : Nat) (a : BitVec 2) (m : Word) (i : Nat) : Nat :=
  let k := s.cur c
  ((List.range (itemWords i)).map (fun j =>
    match s.translate c k.dom.toNat (((k.ptr a).toNat + itemOffset m i + j) % 2 ^ 32) with
    | some p => s.reachCost c p.pa
    | none => 1)).foldl (· + ·) 0

/-- What the items listed cost. -/
def State.itemsCost (s : State) (c : Nat) (a : BitVec 2) (m : Word) (l : List Nat) : Nat :=
  (l.map (fun i => s.itemCost c a m i)).foldl (· + ·) 0

/-- One item, which FLAGS.MP records: it is checked and moved, and holds off every event until it ends (R200). -/
def State.multiItem (s : State) (c : Nat) (a : BitVec 2) (store : Bool) (m : Word) (i : Nat) : Ex (List Word) :=
  let s := s.setMp c (i + 1)
  let k := s.cur c
  let q := k.cap a
  let ea := ((k.ptr a).toNat + itemOffset m i) % 2 ^ 32
  let tagged : Bool := decide (i ≤ 3) && (k.c.toList.getD i Cap.null).tag
  let perm := if store then q.w && (!tagged || q.m) else q.r
  let cost := s.itemCost c a m i
  let out := ((s.locate c k q perm ea (itemWords i)).bind fun l s =>
    if store then (s.saveItem c i l).bind (fun _ s => .ok [] s) else s.loadItem c i (4 + a.toNat) l).costs (fun s => s.charge c cost)
  match out with
  | .ok ws s => .ok ws (s.modCell c (fun x => { x.settled with hold := false }))
  | .flt e s => .flt e s
  | .stall s => .stall (s.modCell c (fun x => { x with hold := true }))

/-- The items one after the other. At the boundary before a further item an event that waits is accepted (R184, R200): the
instruction stops there, with FLAGS.MP naming the item at which it resumes (DEDUCED: the items below it are done). A fault holds
EX for the items that do not follow any more as well (R186). -/
def State.multiItems (c : Nat) (a : BitVec 2) (store : Bool) (m : Word) :
    List Nat → List (Nat × List Word) → State → Ex (List (Nat × List Word))
  | [], got, s => .ok got s
  | i :: l, got, s =>
    if got ≠ [] ∧ s.eventDue c then .stall (s.setMp c (i + 1))
    else ((s.multiItem c a store m i).faultCosts (fun s => s.charge c (s.itemsCost c a m l))).bind fun ws s =>
      State.multiItems c a store m l (got ++ [(i, ws)]) s

/-- The word of LOADM's own pointer: as read in this execution, or read again after a resumption past its item. -/
def State.ownItem (s : State) (c : Nat) (a : BitVec 2) (m : Word) (done : List (Nat × List Word)) : Ex (List Word) :=
  match done.find? (fun e => decide (e.1 = 4 + a.toNat)) with
  | some e => .ok e.2 s
  | none =>
    let k := s.cur c
    let ea := ((k.ptr a).toNat + itemOffset m (4 + a.toNat)) % 2 ^ 32
    (s.locate c k (k.cap a) (k.cap a).r ea 1).bind fun l s => s.readWords c 1 l

/-- SAVEM and LOADM from the item that FLAGS.MP records. -/
def State.multiStep (c : Nat) (a : BitVec 2) (store : Bool) (_ : Bool) (s : State) : Ex Bool :=
  (s.operand c 0).bind fun m s =>
    let k := s.cur c
    let first := k.mp - 1
    let items := (List.range 13).filter (fun i => decide (first ≤ i) && bit m i)
    let refuse (f : CellFault) : Ex Bool := .flt f (s.charge c (s.itemsCost c a m items))
    if fld m 13 23 ≠ 0 ∨ (¬ store ∧ bit m 3) then refuse { code := 1, info := 7 }
    else if fld m 0 4 ≠ 0 ∧ (k.ptr a).toNat % 2 = 1 then refuse (oddAddress (k.ptr a).toNat)
    else
      (State.multiItems c a store m items [] s).bind fun got s =>
        let last : Ex (List Word) := if ¬ store ∧ bit m (4 + a.toNat) then s.ownItem c a m got else .ok [] s
        last.bind fun own s =>
          let s := match own with
            | w :: _ => s.modCur c (fun k => k.setPtr a (w.setWidth 32))
            | [] => s
          .ok false ((s.setMp c 0).modCur c (fun k => k.popN 1))

/-! ## Function blocks (R150-R156) -/

/-- Checks, translates and reads the word of an instance at `va`, once: an instruction that waits goes on with what it has read.
A word of cluster memory costs 23 cycles more in every mode (R151, R189). -/
def State.instanceOne (s : State) (c : Nat) (a : BitVec 2) (va : Nat) : Ex Word :=
  match slookup va (s.cell c).seen with
  | some w => .ok w s
  | none =>
    let k := s.cur c
    (s.locate c k (k.cap a) (k.cap a).r va 1).bind fun l s =>
      ((s.readWords c 1 l).costs (fun s => if l.any (fun e => decide (s.reachCost c e.2.pa = 24)) then s.charge c 23 else s)).bind
        fun ws s => .ok (ws.getD 0 0) (s.modCell c (fun x => { x with seen := sinsert va (ws.getD 0 0) x.seen }))

/-- The words of an instance at offsets from An. -/
def State.instanceRead (s : State) (c : Nat) (a : BitVec 2) (offs : List Nat) : Ex (List Word) :=
  Ex.collect offs (fun o s => s.instanceOne c a ((((s.cur c).ptr a).toNat + o) % 2 ^ 32)) s

/-- Checks and translates the words that will be written. -/
def State.instanceTargets (s : State) (c : Nat) (a : BitVec 2) (offs : List Nat) : Ex (List (Nat × Phys)) :=
  let k := s.cur c
  (Ex.collect offs (fun o s => s.locate c k (k.cap a) (k.cap a).w (((k.ptr a).toNat + o) % 2 ^ 32) 1) s).bind fun ls s =>
    match storeRefused ls.flatten with
    | some f => .flt f s
    | none => .ok ls.flatten s

/-- One word of an instance is written, once: only a device access waits (R312). -/
def State.instanceWord (s : State) (c skip : Nat) (a : Nat × Phys) (w : Word) : Ex Unit :=
  if (s.cell c).sent.contains a.1 then .ok () s
  else
    let here := match s.liveSlot c a.2.pa skip with
      | some at_ => s.storeLive c at_ a.1 w 0xF
      | none => none
    (here.getD (s.writeThrough c a.2 w false)).bind fun _ s =>
      .ok () (s.modCell c (fun x => { x with sent := a.1 :: x.sent }))

/-- Writes the words of an instance as one step (R155), after the store buffer has drained: nothing is written while a target
must wait, and once a word has been written the others follow before any event is accepted. -/
def State.instanceWrite (s : State) (c skip : Nat) (l : List (Nat × Phys)) (ws : List Word) : Ex Unit :=
  (s.drainAll c).bind fun _ s =>
    if l.any (fun a => s.writeBusy a.2.pa) ∨ s.tagsFree c < (l.filter (fun a => decide (s.area a.2.pa = .fabric))).length then .stall s
    else
      let s := s.watchAccess c true (l.map (fun a => a.1))
      let extra := (l.filter (fun a => decide (s.reachCost c a.2.pa = 24))).length * 23
      match (Ex.each (l.zip ws) (fun (a, w) s => s.instanceWord c skip a w) s).costs (fun s => s.charge c extra) with
      | .stall s => .stall (s.modCell c (fun x => { x with hold := x.hold || decide (x.sent ≠ []) }))
      | o => o

/-- iv() of R152: the validity of lane 0, reserved read as invalid. -/
def iv (w : Word) : Nat := normVal (laneVal (lane w 0))
def tst (w : Word) : Nat := laneTst (lane w 0)

/-- An instance of TON, TOF or CTU (R151). -/
structure Inst where
  rval : Nat
  rtst : Nat
  q : Bool
  run : Bool
  done : Bool
  w1 : Word
deriving DecidableEq, Repr

def Inst.of (w0 w1 : Word) : Inst := ⟨fld w0 34 2, fld w0 33 1, bit w0 2, bit w0 1, bit w0 0, w1⟩
def Inst.word0 (i : Inst) : Word :=
  setFld (setFld (setFld (setFld (setFld 0 34 2 i.rval) 33 1 i.rtst) 2 1 (b2n i.q)) 1 1 (b2n i.run)) 0 1 (b2n i.done)

/-- The run quality takes an input's quality at a reset event, and otherwise its worst (R79). -/
def Inst.quality (i : Inst) (reset : Bool) (ws : List Word) : Inst :=
  if reset then { i with rval := iv (ws.getD 0 0), rtst := tst (ws.getD 0 0) }
  else { i with rval := ws.foldl (fun v w => worst v (iv w)) i.rval, rtst := ws.foldl (fun v w => max v (tst w)) i.rtst }

/-- TON: the instance and et (R152). -/
def tonStep (fc : Word) (input pt : Word) (i : Inst) : Inst × Word :=
  if ¬ bit input 0 then ({ i.quality true [input] with run := false, done := false, q := false }, 0)
  else
    let i := i.quality false [input]
    let i := if i.run then i else { i with run := true, done := false, w1 := fc }
    if i.done then ({ i with q := true }, pt)
    else if pt ≤ fc - i.w1 then ({ i with done := true, q := true }, pt)
    else ({ i with q := false }, fc - i.w1)

/-- TOF: the instance and et (R152). -/
def tofStep (fc : Word) (input pt : Word) (i : Inst) : Inst × Word :=
  if bit input 0 then ({ i.quality true [input] with q := true, run := false, done := false }, 0)
  else
    let i := i.quality false [input]
    let i := if i.q ∧ ¬ i.run then { i with run := true, w1 := fc } else i
    if i.run then
      if pt ≤ fc - i.w1 then ({ i with q := false, run := false, done := true }, pt) else (i, fc - i.w1)
    else (i, if i.done then pt else 0)

/-- CTU: the instance, whose CV is word 1 (R152). -/
def ctuStep (cu r : Word) (i : Inst) : Inst :=
  let i := { i with q := false, run := false }
  let j : Inst :=
    if bit r 0 then { i.quality true [r] with w1 := 0 }
    else
      let i := i.quality false [cu, r]
      if bit cu 0 ∧ ¬ i.done ∧ i.w1.toInt < 2 ^ 35 - 1 then { i with w1 := i.w1 + 1 } else i
  { j with done := bit cu 0 }

/-- The scalar output q with the run quality (R150). -/
def Inst.out (i : Inst) (v : Bool) : Word := BitVec.ofNat 36 (mkLane (b2n v) i.rval i.rtst)

/-- TON, TOF and CTU: `g` gives the new instance, the output bit and the second output. -/
def State.blockStep (c : Nat) (a : BitVec 2) (n : Nat) (g : State → List Word → Inst → Inst × Bool × Word) (_ : Bool)
    (s : State) : Ex Bool :=
  (s.operands c (List.range n)).bind fun ops s =>
    (s.instanceRead c a [0, 1]).bind fun ws s =>
      (s.instanceTargets c a [0, 1]).bind fun l s =>
        let (i, v, out) := g s ops (Inst.of (ws.getD 0 0) (ws.getD 1 0))
        (s.instanceWrite c n l [i.word0, i.w1]).bind fun _ s =>
          .ok false (s.modCur c (fun k => (k.popN n).pushAll [i.out v, out]))

def blockForm (cyc pops pushes : Nat) : Form := { op := 2, cyc := cyc, fixed := true, pops := pops, pushes := pushes }

/-- A count of word 1 after a sample leaves and one enters (R154). -/
def sdftCount (w1 : Word) (lo : Nat) (out in_ : Bool) (len : Nat) : Nat :=
  (fld w1 lo len + 512 - b2n out + b2n in_) % 512

/-- S72 sum of R154, as a doubleword. -/
def sdftSum (lo hi : Word) (d : Int) (coef : Word) : Nat := wrapNat ((dword lo hi).toInt + d * coef.toInt) 72

/-- SDFT (R153, R154). -/
def State.sdftStep (c : Nat) (a : BitVec 2) (_ : Bool) (s : State) : Ex Bool :=
  (s.operand c 0).bind fun x s =>
    (s.instanceRead c a [0, 1, 2, 3, 4, 5]).bind fun ws s =>
      let w0 := ws.getD 0 0
      let w1 := ws.getD 1 0
      let n := fld w0 0 8 + 1
      let i := if fld w0 8 8 ≥ n then 0 else fld w0 8 8
      (s.instanceRead c a [6 + 2 * i, 7 + 2 * i, 6 + 2 * n + i]).bind fun cs s =>
        (s.instanceTargets c a [0, 1, 2, 3, 4, 5, 6 + 2 * n + i]).bind fun l s =>
          let old := cs.getD 2 0
          let d := pwInt x - pwInt old
          let re := sdftSum (ws.getD 2 0) (ws.getD 3 0) d (cs.getD 0 0)
          let im := sdftSum (ws.getD 4 0) (ws.getD 5 0) d (cs.getD 1 0)
          let ninv := sdftCount w1 27 (decide (rank (pwVal old) = 2)) (decide (rank (pwVal x) = 2)) 9
          let nqst := sdftCount w1 18 (decide (pwVal old = 3)) (decide (pwVal x = 3)) 9
          let ntst := sdftCount w1 9 (bit old 33) (bit x 33) 9
          let nsub := sdftCount w1 0 (bit old 32) (bit x 32) 9
          let q : Word := setFld (setFld (setFld 0 34 2 (if ninv > 0 then invalid else if nqst > 0 then questionable else good))
            33 1 (min ntst 1)) 32 1 (min nsub 1)
          let v0 : Word := setFld (setFld 0 8 8 ((i + 1) % n)) 0 8 (n - 1)
          let v1 : Word := setFld (setFld (setFld (setFld 0 27 9 ninv) 18 9 nqst) 9 9 ntst) 0 9 nsub
          let out : List Word := [v0, v1, BitVec.ofNat 36 re, BitVec.ofNat 36 (re / 2 ^ 36), BitVec.ofNat 36 im,
            BitVec.ofNat 36 (im / 2 ^ 36), x]
          (s.instanceWrite c 1 l out).bind fun _ s =>
            .ok false (s.modCur c (fun k =>
              let k := { k with acc0 := BitVec.ofInt 80 (sextNat re 72), acc1 := BitVec.ofInt 80 (sextNat im 72) }
              (k.popN 1).push q))

end Sys2Proof.Machine
end

