-- ==== Sys2Proof/Machine/Control.lean ====
section
/-! DEFINITION. Control.lean: control flow, system calls, leaving a bank, the scheduler's switches and rotation, and queue
instructions (06 R173-R180, 07 R193, R194, 09 R263-R269, 10 R283-R292). -/

namespace Sys2Proof.Machine

open Sys2Proof

/-! ## Branches, calls and returns (R176, R177) -/

def jumpForm (exts : List Nat) (cyc : Nat) : Form := { exts := exts, rep := false, cyc := cyc }

/-- A control transfer, whose count is the same in every mode (R193). -/
def leapForm (exts : List Nat) (cyc : Nat) : Form := { jumpForm exts cyc with fixed := true }

/-- Extension counts of a branch displacement. -/
def ext16 : List Nat := [1, 2, 3, 4, 5, 6]

def State.jump (s : State) (c : Nat) (pc : SylAddr) : State := s.modCur c (fun k => { k with pc := pc })

/-- The target of BR and CALL: next_pc + imm (R177). -/
def relTarget (k : Bank) (x : Enc) : SylAddr := BitVec.ofNat 34 (wrapNat ((nextPc k x 1).toNat + encImm x) 34)

/-- BR and CALL: `call` pushes next_pc on the return stack (R115). -/
def State.branchStep (c : Nat) (x : Enc) (call : Bool) (_ : Bool) (s : State) : Ex Bool :=
  let k := s.cur c
  let s := if x.guard = .always then s else s.noteBranch c k.pc.toNat true
  let s := if call then s.modCur c (fun k => k.rpush ((nextPc k x 1).setWidth 36)) else s
  .ok true (s.jump c (relTarget k x))

/-- BRI and CALLI. -/
def State.indirectStep (c : Nat) (x : Enc) (call : Bool) (_ : Bool) (s : State) : Ex Bool :=
  (s.operand c 0).bind fun t s =>
    let s := s.modCur c (fun k => k.popN 1)
    let s := if call then s.modCur c (fun k => k.rpush ((nextPc k x 1).setWidth 36)) else s
    .ok true (s.jump c (t.setWidth 34))

/-- The top return entry, as an instruction reads it (R112). -/
def State.rOperand (s : State) (c : Nat) : Ex Word :=
  let k := s.cur c
  match findMark k.rmark (k.rslot 0) with
  | some m => .flt m.fault s
  | none => .ok k.rtop s

/-- RET. -/
def State.retStep (c : Nat) (_ : Bool) (s : State) : Ex Bool :=
  (s.rOperand c).bind fun r s => .ok true ((s.modCur c (fun k => k.rpop)).jump c (r.setWidth 34))

/-! ## System calls (R266-R269) -/

/-- A capability of entry `n` with its tag; `o` is 4 for CODE and 6 for STACK. -/
def State.entryCap (s : State) (c n o : Nat) : Cap :=
  let off := cellBase c + 0x80 + 8 * n + o
  ⟨s.reg off, s.reg (off + 1), s.entryTag off⟩

/-- The reads of both tags of entry `n`, whose copies may disagree (R245, R266): what they find is in force from then on. -/
def State.entryReads (s : State) (c n : Nat) : State :=
  (s.entryCheck (cellBase c + 0x80 + 8 * n + 4)).entryCheck (cellBase c + 0x80 + 8 * n + 6)

/-- The entries s0 to s(n-1), which a forced fill brings into the window. -/
def State.topEntries (s : State) (c n : Nat) : Ex (List Word) :=
  (s.fillTo c false n 16).bind fun _ s => s.operands c (List.range n)

/-- Installs code and stack capabilities and stack pointers with empty windows, then places `ws`, s0 first, on top. -/
def Bank.install (k : Bank) (c2 c3 : Cap) (dsp rsp : VAddr) (ws : List Word) : Bank :=
  let k := { k with c := (k.c.setIfInBounds 2 c2).setIfInBounds 3 c3, dsp := dsp, rsp := rsp, dw := 0, rw := 0,
                    shadow := [], dmark := [], rmark := [] }
  k.pushAll ws.reverse

def fault10 {α : Type} (s : State) (info : Nat) : Ex α := .flt { code := 10, info := info } s

/-- SYS n (R267): entry `n` is read in one step, after the test of LINK and before anything is filled or spilled. -/
def State.sysStep (c : Nat) (x : Enc) (n : Nat) (_ : Bool) (s : State) : Ex Bool :=
  let k := s.cur c
  let cc := s.entryCap c n 4
  let sc := s.entryCap c n 6
  let a := s.get (Reg.CELL_ENTRY1_ARGS c n)
  let res := s.get (Reg.CELL_ENTRY1_RES c n)
  let target := s.get (Reg.CELL_ENTRY0_TARGET c n)
  let busy := s.on (Reg.CELL_ENTRY1_BUSY c n)
  if k.link.occ then fault10 s 1
  else
    let s := s.entryReads c n
    if busy then fault10 s 3
    else if ¬ cc.tag ∨ ¬ sc.tag ∨ cc.lock = 0 ∨ cc.lock = 255 ∨ cc.lock ≠ sc.lock ∨ ¬ cc.x ∨ ¬ sc.r ∨ ¬ sc.w then fault10 s 2
    else if k.depth < a ∨ sc.len < a ∨ sc.top > 2 ^ 32 then fault10 s 4
    else (s.topEntries c a).bind fun args s =>
      (s.spillBelow c 0).bind fun _ s =>
        let k := s.cur c
        let link : Link := { occ := true, n := BitVec.ofNat 3 n, args := BitVec.ofNat 3 a, res := BitVec.ofNat 3 res,
                             pc := nextPc k x 1, dsp := k.dsp, rsp := k.rsp, c2 := k.c[2], c3 := k.c[3] }
        let k := { k with link := link, pc := BitVec.ofNat 34 target }
        let k := k.install (cc.withLock 0) (sc.withLock 0) (BitVec.ofNat 32 sc.top) (BitVec.ofNat 32 sc.base) args
        .ok true ((s.setCur c k).raise (Reg.CELL_ENTRY1_BUSY c n))

/-- RETS (R268). -/
def State.retsStep (c : Nat) (_ : Bool) (s : State) : Ex Bool :=
  let k := s.cur c
  let r := k.link.res.toNat
  let d : Int := (k.link.dsp.toNat + k.link.args.toNat : Nat) - (r : Int)
  if ¬ k.link.occ then fault10 s 5
  else if k.depth < r ∨ d < k.link.rsp.toNat then fault10 s 6
  else (s.topEntries c r).bind fun res s =>
    (s.spillBelow c 0).bind fun _ s =>
      let k := s.cur c
      let dsp := BitVec.ofNat 32 (k.link.dsp.toNat + k.link.args.toNat)
      let k' := ({ k with pc := k.link.pc, link := { k.link with occ := false } }).install k.link.c2 k.link.c3 dsp k.link.rsp res
      .ok true ((s.setCur c k').put (Reg.CELL_ENTRY1_BUSY c k.link.n.toNat) 0)

/-! ## Dispatch and rotation (R286-R292) -/

/-- The bank's task starts at entry (R287): ENTRY is word 13 of its TCW. -/
def State.startTask (s : State) (c n j : Nat) : State :=
  let w := s.tcwBase c n j + 13
  match s.readWord (s.storeWordKey c w) (ownStore c w) with
  | (some e, s) =>
    (((s.modBank c n (fun k => k.startAt (e.setWidth 34))).setTask c n j tkResume).put (Reg.CELL_STATE_BANK c) n).undoze (clusterOf c)
  | (none, s) => (s.tcwError c n w).put (Reg.CELL_STATE_BANK c) bankIdle

/-- The bank's task resumes; a WAITING one completes its WAIT by pushing the event word (R180, R284). -/
def State.resumeTask (s : State) (c n j : Nat) : State :=
  let s := if s.task c n j = tkWaiting then
      let ev := s.eventWord c n
      ((s.consume c n).modBank c n (fun k => k.push ev)).setTask c n j tkResume
    else s
  (s.put (Reg.CELL_STATE_BANK c) n).undoze (clusterOf c)

/-- The task in the bank runs. -/
def State.runTask (s : State) (c n j : Nat) : State :=
  if s.task c n j = tkEntry then s.startTask c n j else s.resumeTask c n j

/-- The region set of the staging set becomes the bank's (R291, R308). -/
def Cell.takeStaged (x : Cell) (n : Nat) : List (Nat × BitVec 6) :=
  match slookup 11 x.sets with
  | some d => sinsert n d (serase 11 x.sets)
  | none => serase n x.sets

/-- Rotation (R291): the outgoing task's windows spill, its TCW is saved, and the staging set's task enters the bank. It
waits while the staging set does not hold that task. -/
def State.rotate (s : State) (c n j : Nat) : Ex Unit :=
  match (s.cell c).staging with
  | some g =>
    if g.level = n ∧ g.task = j then
      let s := s.put (Reg.CELL_STATE_BANK c) n
      (s.spillBelow c 0).bind fun _ s =>
        let s := s.saveTcw c n (s.curTask c n) (s.bank c n) true
        let s := (s.setBank c n g.bank).put (Reg.CELL_LSTAT_CUR c n) j
        .ok () (s.modCell c (fun x => { x with staging := none, sets := x.takeStaged n }))
    else .stall s
  | none => .stall s

/-- Dispatches the most urgent ready level, or the cell becomes idle; the prefetch queue is flushed (R193). -/
def State.dispatch (s : State) (c : Nat) : State :=
  let s := (s.retireLoad c).flushPq c
  let idle := s.put (Reg.CELL_STATE_BANK c) bankIdle
  match s.urgent c with
  | none => idle
  | some n => match s.dispatchTask c n with
    | none => idle
    | some j =>
      if j = s.curTask c n then s.runTask c n j
      else match s.rotate c n j with
        | .ok _ s => s.runTask c n j
        | .stall _ => idle
        | .flt f s => s.takeFault c f

/-- A dispatch whose refill counts to the level dispatched (R48, R210), unless the instruction that led to it is charged to that
level, whose own count covers the refill (DEDUCED: R290 adds none to such a count, and R48 counts a refill at each dispatch). -/
def State.redispatch (s : State) (c : Nat) (paid : Option Nat) : State :=
  let s := s.dispatch c
  if s.running c < 8 ∧ paid ≠ some (s.running c) then s.charge c 8 else s

/-- The level that ran in bank `b` has no work left to run there: its work has been abandoned since (R288). -/
def State.leftBehind (s : State) (c b : Nat) : Bool :=
  b < 8 && !(decide (s.lvState c b = lvActive) && decide (s.task c b (s.curTask c b) = tkResume)) && (s.cell c).held.isEmpty

/-- What R257 and R258 let a scheduler switch find: no handler, no fault, debug event or interrupt to be accepted first, no
REPN or item in progress. -/
def State.switchFree (s : State) (c : Nat) : Bool :=
  let b := s.running c
  let x := s.cell c
  s.live c && !s.dead c && !s.selfTest c && decide (x.cold = 0) && !x.resetDue && !x.hold && !x.win && !s.debugDue c &&
    !((slookup c s.presented).isSome && s.acceptsIrq c) && (b = bankIdle || (decide (b < 8) && x.held.isEmpty))

/-- SCHEDULER_SWITCH (R286, R290): a more urgent level has become ready, or the running level has none of its work left;
the refill counts to the level dispatched. -/
def State.schedulerSwitch (s : State) (c : Nat) : State :=
  if s.switchFree c then
    let b := s.running c
    let due : Bool := match s.urgent c with
      | some n => decide (b = bankIdle) || decide (n < b) || !s.ready c b
      | none => decide (b < 8) && !s.ready c b
    if due then s.redispatch c none else s
  else s

/-- The task to stage: of the running level the next one, and of a level that waits for its dispatch the one that the dispatch
runs, unless it is in the bank already. -/
def State.stagedTask (s : State) (c n : Nat) : Option Nat :=
  if s.running c = n then s.nextTask c n
  else match s.dispatchTask c n with
    | some j => if j = s.curTask c n then s.nextTask c n else some j
    | none => none

/-- STAGING_READY (R276, R291): the next task of the running level, or of the level that waits for its dispatch, is restored
into the staging set. -/
def State.stagingReady (s : State) (c : Nat) : State :=
  let b := s.running c
  let level := if b < 8 then some b else s.urgent c
  match level with
  | none => s
  | some n =>
    if s.throughput c ∧ s.live c ∧ ¬ s.dead c ∧ s.lastTask c n > 0 ∧ s.lvState c n = lvActive then
      match s.stagedTask c n with
      | none => s
      | some j =>
        let same : Bool := match (s.cell c).staging with
          | some g => decide (g.level = n) && decide (g.task = j)
          | none => false
        if same then s
        else match s.readTcw c n j with
          | (_, some w, s) => s.tcwError c n w
          | (ws, none, s) =>
            let k := Bank.reset.restore ws (decide (s.task c n j ≠ tkEntry))
            s.modCell c (fun x => { x with staging := some ⟨n, j, k⟩, sets := sinsert 11 k.dom x.sets })
    else s

/-! ## FEND, WAIT, YIELD, POST (R179, R180, R284) -/

/-- Why FEND, WAIT and YIELD are forbidden here (R180, R269). -/
def State.schedFault (s : State) (c : Nat) : Option CellFault :=
  if s.running c ≥ 8 then some { code := 1, info := 6 }
  else if (s.cur c).link.occ then some { code := 1, info := 9 }
  else none

/-- Every task of the level is DONE. -/
def State.allDone (s : State) (c n : Nat) : Bool := (List.range (s.lastTask c n + 1)).all (fun j => decide (s.task c n j = tkDone))

/-- The level's last task has executed FEND: it is DONE, and for level 0 the deadline is met (R50) and an armed cell captures
its snapshot (R477). -/
def State.levelFend (s : State) (c n : Nat) : State :=
  let s := s.modCell c (fun x => { x with fended := x.fended ||| (1#8 <<< n) })
  let s := if n = 0 then (s.modCell c (fun x => { x with fend := true })).pairEnd c else s
  let s := s.levelDone c n
  if n = 0 then s.snapshot c else s

/-- The current task no longer runs: the next one does, or the level waits and the scheduler dispatches. -/
def State.leaveTask (s : State) (c n : Nat) : Ex Bool :=
  match s.nextTask c n with
  | some j => match s.rotate c n j with
    | .ok _ s => .ok true (s.runTask c n j)
    | .stall s => .stall s
    | .flt f s => .flt f s
  | none => .ok true ((if s.allDone c n then s.levelFend c n else s).redispatch c (some n))

/-- A rotation that waits leaves nothing done. -/
def orStay (s : State) (e : Ex Bool) : Ex Bool :=
  match e with
  | .stall _ => .stall s
  | .flt f _ => .flt f s
  | e => e

/-- FEND. -/
def State.fendStep (c : Nat) (x : Enc) (_ : Bool) (s : State) : Ex Bool :=
  match s.schedFault c with
  | some f => .flt f s
  | none =>
    let n := s.running c
    let t := (s.jump c (nextPc (s.cur c) x 1)).setTask c n (s.curTask c n) tkDone
    orStay s (t.leaveTask c n)

/-- WAIT. -/
def State.waitStep (c : Nat) (x : Enc) (_ : Bool) (s : State) : Ex Bool :=
  match s.schedFault c with
  | some f => .flt f s
  | none =>
    let n := s.running c
    if s.pendingEvent c n then
      let ev := s.eventWord c n
      .ok false ((s.consume c n).modCur c (fun k => k.push ev))
    else
      let t := (s.jump c (nextPc (s.cur c) x 1)).setTask c n (s.curTask c n) tkWaiting
      orStay s (t.leaveTask c n)

/-- YIELD. -/
def State.yieldStep (c : Nat) (x : Enc) (_ : Bool) (s : State) : Ex Bool :=
  match s.schedFault c with
  | some f => .flt f s
  | none =>
    let n := s.running c
    match s.nextTask c n with
    | none => .ok false s
    | some j =>
      let t := s.jump c (nextPc (s.cur c) x 1)
      orStay s ((t.rotate c n j).bind fun _ s => .ok true (s.runTask c n j))

/-- POST. -/
def State.postStep (c : Nat) (_ : Bool) (s : State) : Ex Bool :=
  (s.operand c 0).bind fun t s => .ok false ((s.modCur c (fun k => k.popN 1)).sendPost c (fld t 0 8) (fld t 8 3))

/-! ## Leaving a handler bank (R263) -/

/-- The bank resumes; where its level's work has been abandoned meanwhile, the scheduler dispatches (R530). -/
def State.resumeBank (s : State) (c b : Nat) : State :=
  if s.leftBehind c b then s.redispatch c (s.levelOf c) else (s.retireLoad c).resume c b

/-- IRET, FRET and DRET outside their bank (R178). -/
def wrongBank (s : State) : Ex Bool := .flt { code := 1, info := 6 } s

/-- IRET. -/
def State.iretStep (c : Nat) (_ : Bool) (s : State) : Ex Bool :=
  if s.running c ≠ bankI then wrongBank s else .ok true ((s.irqComplete c).resumeBank c (s.cell c).iFrom)

/-- FRET: after code 0, code 8 and code 7 with INFO 7 the scheduler dispatches. -/
def State.fretStep (c : Nat) (_ : Bool) (s : State) : Ex Bool :=
  if s.running c ≠ bankF then wrongBank s
  else
    let code := s.get (Reg.CELL_FCAUSE_CODE c)
    let lost : Bool := code = 0 || code = 8 || (code = 9 && s.get (Reg.CELL_FCAUSE_ORIG c) = 8) ||
      (code = 7 && s.get (Reg.CELL_FCAUSE_INFO c) = 7)
    if lost then .ok true (s.redispatch c (s.levelOf c))
    else
      let b := s.get (Reg.CELL_FCAUSE_BANK c)
      let s := s.modBank c b (fun k => { k with pc := BitVec.ofNat 34 (s.get (Reg.CELL_FRPC_PC c)) })
      .ok true (s.resumeBank c b)

/-- DRET: a breakpoint at the resumed PC does not match again (R530), and an armed single step starts (R531). -/
def State.dretStep (c : Nat) (_ : Bool) (s : State) : Ex Bool :=
  if s.running c ≠ bankD then wrongBank s
  else
    let b := (s.cell c).dFrom
    let resumed := !s.leftBehind c b && decide (b ≠ bankIdle)
    let s := s.modCell c (fun x => { x with skipBrk := resumed, step := resumed && s.on (Reg.CELL_DCTL_STEP c) })
    .ok true (s.resumeBank c b)

/-! ## Queue instructions (R173-R175) -/

/-- A word of a ring is written through its physical address, once (R174): a live entry of the windows takes it (R113). -/
def State.ringPut (s : State) (c pa : Nat) (w : Word) : Ex Unit := s.instanceWord c 1 (pa, ⟨pa, none, false, 0⟩) w

/-- Words of the ring that are on their way to the fabric (R405): the entry is published only once they have been written. -/
def State.ringWaits (s : State) (c : Nat) : Bool := s.fab.txs.any (fun t => decide (t.cell = c ∧ t.purpose = .write))

/-- A queue's fault 7 (R175, R401): no virtual address belongs to it. -/
def State.queueFault {α : Type} (s : State) (pa : Nat) : Ex α :=
  .flt { code := 7, info := 4, va := (Config.checkAddr s.fresh).toNat, pa := pa } s.tickFresh

/-- Step 2 of R174: the reservation held, or made now, or awaited behind the requests that came before (R403). -/
def State.cellReserve (s : State) (c q : Nat) (deq : Bool) : Ex QPlan :=
  match s.granted q deq (.cell c) with
  | some r => .ok r.plan s
  | none =>
    let r : QReq := ⟨q, deq, .cell c, s.qPlan q deq⟩
    if s.qm.waiting.any (fun w => decide (w.queue = q ∧ w.deq = deq ∧ w.agent = .cell c)) then .stall s
    else if s.mustWait q deq then
      .stall ((if s.throughput c then s else s.bump Reg.QM_DWAIT_COUNT).awaitGrant r)
    else .ok r.plan (s.reserve r)

/-- Cycles of the copy in every mode (R173, R189): e words between the buffer and the ring. -/
def State.copyCost (s : State) (c q : Nat) (l : List (Nat × Phys)) (slot : Nat) : Nat :=
  s.qEsz q * (s.reachCost c ((l.map (fun e => e.2.pa)).getD 0 0) + s.reachCost c (s.ringAddr q slot 0))

/-- The slot of the ring that an operation of the queue uses. -/
def State.ringSlot (s : State) (q : Nat) (deq : Bool) : Nat := if deq then s.qHead q else s.enqSlot q

/-- Step 1 of R174: the queue number, the refusals, and the buffer at Aa. A cell that holds its reservation over a wait is
refused nothing any more (R400), but a queue whose descriptor has become unusable since (R401). A fault at the buffer holds EX
for the whole listed count (R186), its words counted as of the cell store (DESIGN CHOICE). -/
def State.queueCheck (s : State) (c : Nat) (a : BitVec 2) (deq : Bool) : Ex (Nat × List (Nat × Phys)) :=
  (s.operand c 0).bind fun w s =>
    let q := w.toNat
    let k := s.cur c
    let cap := k.cap a
    let buffer (s : State) : Ex (Nat × List (Nat × Phys)) :=
      ((s.locate c k cap (if deq then cap.w else cap.r) (k.ptr a).toNat (s.qEsz q)).bind fun l s => .ok (q, l) s).faultCosts
        (fun s => s.charge c (s.copyCost c q [] (s.ringSlot q deq)))
    if q ≥ 65536 then s.fault2 9
    else
      let s := s.touchDesc q
      if s.qBroken q then s.queueFault (descAddr q ((s.descBad q).getD 0))
      else if (s.granted q deq (.cell c)).isNone ∧ s.cellRefused c q deq then s.fault2 9
      else buffer s

/-- The instruction ends with its status. -/
def State.queueEnd (s : State) (c q : Nat) (deq : Bool) (st : Nat) : Ex Bool :=
  .ok false ((s.unreserve q deq (.cell c)).modCur c (fun k => (k.popN 1).push (BitVec.ofNat 36 st)))

/-- ENQ: the ring's words are written after every earlier store of the cell has drained, and the entry is published once they
have been written (R204, R405). -/
def State.enqStep (c : Nat) (a : BitVec 2) (_ : Bool) (s : State) : Ex Bool :=
  (s.queueCheck c a false).bind fun (q, l) s =>
    (s.cellReserve c q false).bind fun plan s =>
      match plan with
      | .status st => (s.enqRefuse q st).queueEnd c q false st
      | _ =>
        let ring := (List.range (s.qEsz q)).map (fun j => s.ringAddr q (s.enqSlot q) j)
        let copy : Ex Unit :=
          if ring.any seedReg then s.fault2 10
          else (s.readWords c 1 l).bind fun ws s =>
            (s.drainAll c).bind fun _ s =>
              (Ex.each (ws.zip ring) (fun (w, pa) s => s.ringPut c pa w) s).bind fun _ s =>
                if s.ringWaits c then .stall s else .ok () s
        (copy.costs (fun s => s.charge c (s.copyCost c q l (s.enqSlot q)))).bind fun _ s =>
          (s.publish q (decide (plan = .dropOld))).queueEnd c q false (if plan = .dropOld then 4 else 0)

/-- DEQ: the ring is read as the cell sees it (R202-R205). -/
def State.deqStep (c : Nat) (a : BitVec 2) (_ : Bool) (s : State) : Ex Bool :=
  (s.queueCheck c a true).bind fun (q, l) s =>
    (s.cellReserve c q true).bind fun plan s =>
      match plan with
      | .status st => s.queueEnd c q true st
      | _ =>
        let head := s.qHead q
        let read (j : Nat) (s : State) : Ex Word :=
          let pa := s.ringAddr q head j
          match s.readNow c 0xF 4 (pa, ⟨pa, none, false, 0⟩) with
          | .flt _ s => s.queueFault pa
          | o => o
        let copy : Ex Unit :=
          (s.drainOld c).bind fun _ s =>
            (Ex.collect (List.range (s.qEsz q)) read s).bind fun ws s =>
              Ex.each (l.zip ws) (fun (e, w) s => s.storeOnce c 1 e w) s
        (copy.costs (fun s => s.charge c (s.copyCost c q l head))).bind fun _ s => (s.release q).queueEnd c q true 0

end Sys2Proof.Machine
end

