-- ==== Sys2Proof/Machine/Micro.lean ====
section
/-! DEFINITION. Micro.lean: microwords and the routines that a cell runs from its control store (08 R213-R231). -/

namespace Sys2Proof.Machine

open Sys2Proof

/-! ## Fields (R218) -/

/-- CYC (R220). -/
def mCycles (m : BitVec 144) : Nat := [1, 2, 3, 4, 6, 8, 12, 16].getD (mfld m 141 3) 0
def mSeq (m : BitVec 144) : Nat := mfld m 138 3
def mNext (m : BitVec 144) : Nat := mfld m 128 10
def mCond (m : BitVec 144) : Nat := mfld m 122 6
def mAlu (m : BitVec 144) : Nat := mfld m 116 6
def mDst (m : BitVec 144) : Nat := mfld m 104 4
/-- SPCTL and RPCTL (R224). -/
def mSpctl (m : BitVec 144) : Int := sextNat (mfld m 100 4) 4
def mRpctl (m : BitVec 144) : Int := sextNat (mfld m 97 3) 3
def mMem (m : BitVec 144) : Nat := mfld m 92 5
/-- ASZ (R225): size 0 nonet, 1 word, 2 doubleword, 3 none; and space. -/
def mSize (m : BitVec 144) : Nat := mfld m 90 2
def mSpace (m : BitVec 144) : Nat := mfld m 88 2
def mShf (m : BitVec 144) : Nat := mfld m 82 6
def mShamt (m : BitVec 144) : Nat := mfld m 76 6
def mMac (m : BitVec 144) : Nat := mfld m 70 6
def mPred (m : BitVec 144) : Nat := mfld m 66 4
def mFlag (m : BitVec 144) : Nat := mfld m 62 4
def mTrap (m : BitVec 144) : Nat := mfld m 56 6
def mBank (m : BitVec 144) : Nat := mfld m 52 4
def mImg (m : BitVec 144) : Nat := mfld m 48 4
def mQctl (m : BitVec 144) : Nat := mfld m 44 4
def mLit (m : BitVec 144) : Word := BitVec.ofNat 36 (mfld m 0 36)
/-- Operands are 36 bits, or 72 under a doubleword ASZ (R223). -/
def mWidth (m : BitVec 144) : Nat := if mSize m = 2 then 72 else 36

/-- The instruction whose routine runs: cell, encoding, syllables of its opcode, and its dispatch index. -/
structure MicroFor where
  c : Nat
  x : Enc
  op : Nat
  index : Nat
deriving DecidableEq, Repr

/-- The pointer and predicate selectors of the opcode syllable (R93, R222). -/
def MicroFor.ptr (i : MicroFor) : BitVec 2 := BitVec.ofNat 2 i.index
def MicroFor.sel (i : MicroFor) : BitVec 3 := BitVec.ofNat 3 i.index
def MicroFor.syllable (i : MicroFor) : Nat := i.index % 384
/-- The capability register that the syllable names: Cd of CLD and CST (R165), otherwise the pointer's number. -/
def MicroFor.capReg (i : MicroFor) : BitVec 2 :=
  if 1152 + 0o60 ≤ i.index ∧ i.index < 1152 + 0o120 then BitVec.ofNat 2 (i.index / 4) else i.ptr

/-- The immediate of R98, or the literal of R99. -/
def MicroFor.imm (i : MicroFor) : Int :=
  if i.index < 64 then sextNat (i.index * 64 ^ i.x.ext.length + encRaw i.x) (6 * (i.x.ext.length + 1)) else encImm i.x

/-! ## Sources (R222) -/

/-- Stack item `i`, a doubleword under WIDE: the number, or none while it is pending. -/
def Bank.stackItem (k : Bank) (wide : Bool) (i : Nat) : Except CellFault (Option Nat) :=
  if wide then
    match k.entry (2 * i), k.entry (2 * i + 1) with
    | .error f, _ => .error f
    | _, .error f => .error f
    | .ok (some lo), .ok (some hi) => .ok (some (dword lo hi).toNat)
    | _, _ => .ok none
  else match k.entry i with
    | .error f => .error f
    | .ok w => .ok (w.map BitVec.toNat)

/-- The bank register that LIT[3:0] selects. -/
def State.microReg (s : State) (i : MicroFor) (k : Bank) (sel : Nat) : Nat :=
  match sel with
  | 0 => k.rc.toNat
  | 1 => k.dsp.toNat
  | 2 => k.rsp.toNat
  | 3 => k.flags.toNat
  | 4 => k.pc.toNat
  | 5 => (k.link.word 0).toNat
  | 6 => (k.link.word 1).toNat
  | 7 => (k.link.word 2).toNat
  | 8 => s.frame36.toNat
  | n => (s.reg (cellBase i.c + 0x80 + 8 * i.sel.toNat + (n - 9))).toNat

/-- A source of ASEL or BSEL. -/
def State.microSource (s : State) (i : MicroFor) (m : BitVec 144) (u : Micro) (code : Nat) : Except CellFault (Option Nat) :=
  let k := u.bank
  let t (n : Nat) : Nat := (u.t.toList.getD n 0).toNat
  match code with
  | 0o04 => .ok (some (k.ptr i.ptr).toNat)
  | 0o05 => .ok (some (k.cap i.capReg).lo.toNat)
  | 0o06 => .ok (some (k.cap i.capReg).hi.toNat)
  | 0o07 => .ok (some u.md.toNat)
  | 0o10 => .ok (some (mLit m).toNat)
  | 0o11 => .ok (some (wrapNat i.imm 72))
  | 0o12 => .ok (some (t 0))
  | 0o13 => .ok (some (t 1))
  | 0o14 => .ok (some (t 2))
  | 0o15 => .ok (some (t 3))
  | 0o16 => .ok (some (k.acc ((mMac m).testBit 5)).toNat)
  | 0o17 => .ok (some (s.microReg i k (fld (mLit m) 0 4)))
  | n => k.stackItem i.x.wide n

/-! ## ALU, shifter, multiplier (R223, R226, R227) -/

/-- The ALU's result with its carry and its signed overflow; an operation other than a sum, a difference, a negation or an
absolute value gives neither (DEDUCED). -/
structure AluOut where
  v : Nat
  carry : Bool := false
  ovf : Bool := false
deriving DecidableEq, Repr

def fitsS (w : Nat) (v : Int) : Bool := decide (signedLo w ≤ v ∧ v ≤ signedHi w)

/-- Sum and difference at width `w`; the carry out of a difference is its borrow. -/
def aluSum (w a b n : Nat) : AluOut := ⟨(a + b + n) % 2 ^ w, decide (2 ^ w ≤ a + b + n), !fitsS w (sextNat a w + sextNat b w + n)⟩
def aluDiff (w a b n : Nat) : AluOut :=
  ⟨wrapNat ((a : Int) - b - n) w, decide (a < b + n), !fitsS w (sextNat a w - sextNat b w - n)⟩

/-- An ALU operation on operands below 2^w; `free` is what an operation gives whose result the spec does not state. -/
def microAlu (code w : Nat) (carry : Bool) (shamt free a b : Nat) : AluOut :=
  let sa := sextNat a w
  let sb := sextNat b w
  let wa : Word := BitVec.ofNat 36 a
  let wb : Word := BitVec.ofNat 36 b
  let flt (v : Nat) (ws : List Word) : AluOut := { v := (pwResult v ws (floatLeast v ws)).toNat }
  let toS32 (v : Int) : AluOut :=
    { v := (pwResult (wrapNat (min (max v (signedLo 32)) (signedHi 32)) 32) [wa] (if fitsS 32 v then good else questionable)).toNat,
      ovf := !fitsS 32 v }
  match code with
  | 0o00 => { v := a }
  | 0o01 => { v := b }
  | 0o02 => aluSum w a b 0
  | 0o03 => aluSum w a b (b2n carry)
  | 0o04 => aluDiff w a b 0
  | 0o05 => aluDiff w a b (b2n carry)
  | 0o06 => { v := a &&& b }
  | 0o07 => { v := a ||| b }
  | 0o10 => { v := a ^^^ b }
  | 0o11 => { v := a &&& (2 ^ w - 1 - b) }
  | 0o12 => { v := 2 ^ w - 1 - a }
  | 0o13 => { v := if sa ≤ sb then a else b }
  | 0o14 => { v := if sa ≤ sb then b else a }
  | 0o15 => { v := min a b }
  | 0o16 => { v := max a b }
  | 0o17 => aluDiff w 0 a 0
  | 0o20 => { v := wrapNat (max sa (-sa)) w, ovf := !fitsS w (max sa (-sa)) }
  | 0o21 => { v := b2n (decide (a = b)) }
  | 0o22 => { v := b2n (decide (sa < sb)) }
  | 0o23 => { v := b2n (decide (a < b)) }
  | 0o24 => { v := clzOp w a }
  | 0o25 => { v := popcOp w a }
  | 0o26 => { v := (npermOp wa (b % 256)).toNat }
  | 0o32 => { v := (lanesOf false (fun l => bandLane (l.getD 0 0) (l.getD 1 0)) [wa, wb]).toNat }
  | 0o33 => { v := (lanesOf false (fun l => borLane (l.getD 0 0) (l.getD 1 0)) [wa, wb]).toNat }
  | 0o34 => { v := (lanesOf false (fun l => bxorLane (l.getD 0 0) (l.getD 1 0)) [wa, wb]).toNat }
  | 0o35 => { v := (lanesOf false (fun l => bnotLane (l.getD 0 0)) [wa]).toNat }
  | 0o36 => { v := (pwResult (pwBits wa) [wa, wb] good).toNat }
  | 0o37 => { v := wrapNat (min (max sa (signedLo shamt)) (signedHi shamt)) w }
  | 0o40 => flt (f32Add (pwFloat wa) (pwFloat wb)) [wa, wb]
  | 0o41 => flt (f32Add (pwFloat wa) (pwFloat wb).neg?) [wa, wb]
  | 0o42 => flt (f32Mul (pwFloat wa) (pwFloat wb)) [wa, wb]
  | 0o44 => flt (f32Round (decide (pwInt wa < 0)) (pwInt wa).natAbs 0 false) [wa]
  | 0o45 => match pwFloat wa with
    | .nan => { v := (pwResult 0 [wa] invalid).toNat }
    | .inf n => toS32 (if n then -(2 ^ 40 : Nat) else (2 ^ 40 : Nat))
    | .fin n p e => toS32 (f32ToInt n p e)
  | _ => { v := free }

/-- The 72-bit pair T0:T1, T0 its high word. -/
def Micro.pair (u : Micro) : Nat := (u.t.toList.getD 0 0).toNat % 2 ^ 36 * 2 ^ 36 + (u.t.toList.getD 1 0).toNat % 2 ^ 36
def Micro.setT (u : Micro) (n v : Nat) : Micro := { u with t := u.t.setIfInBounds n (BitVec.ofNat 72 v) }
def Micro.setPair (u : Micro) (v : Nat) : Micro := (u.setT 0 (v / 2 ^ 36 % 2 ^ 36)).setT 1 (v % 2 ^ 36)

/-- One of SHL, SHR, SAR and ROL. -/
def shiftBy (kind w a n : Nat) : Nat :=
  match kind with
  | 0 => shlOp w a n
  | 1 => shrOp w a n
  | 2 => sarOp w a n
  | _ => rolOp w a n

/-- A shifter operation; `full` is A as its source holds it, which for an accumulator is 80 bits wide. DESIGN CHOICE (R226): insert
and extract act on 36 bits at every operand size. -/
def microShift (code w shamt : Nat) (u : Micro) (a b : Nat) (full : Int) : Option Nat :=
  let t2 := (u.t.toList.getD 2 0).toNat
  let pos := t2 / 64 % 64
  let wid := t2 % 64
  if code = 0 then none
  else if code ≤ 0o04 then some (shiftBy (code - 1) w a shamt)
  else if code ≤ 0o10 then some (shiftBy (code - 5) w a (b % 128))
  else if code ≤ 0o14 then some (shiftBy (code - 9) 72 u.pair shamt)
  else if code = 0o15 then some (insOp a b pos wid)
  else if code = 0o16 then some (extOp (a % 2 ^ 36) pos wid)
  else if code = 0o17 then some (extsOp (a % 2 ^ 36) pos wid)
  else some (wrapNat (roundAcc full (b % 128)) w)

/-- A multiplication: the product, and the accumulator with its overflow of S80. -/
structure MacOut where
  product : Int
  acc : Option Acc
  ovf : Bool
deriving DecidableEq, Repr

def microMac (mac : Nat) (acc : Acc) (a b : Nat) : MacOut :=
  let num (v : Nat) : Int := if mac.testBit 2 then (v % 2 ^ 36 : Nat) else sextNat v 36
  let p := num a * num b
  let sum : Int := match mac / 8 % 4 with
    | 1 => acc.toInt + p
    | 2 => acc.toInt - p
    | _ => p
  if mac / 8 % 4 = 0 then ⟨p, none, false⟩
  else if mac.testBit 0 then ⟨p, none, false⟩
  else
    let kept := if mac.testBit 1 then min (max sum (signedLo 80)) (signedHi 80) else sum
    ⟨p, some (BitVec.ofInt 80 kept), !fitsS 80 sum⟩

/-! ## Stack depth and destinations (R222, R224) -/

/-- Opens `n` new data entries. -/
def Bank.openN (k : Bank) : Nat → Bank
  | 0 => k
  | n + 1 =>
    let k := { k with dsp := k.dsp - 1, dw := min 16 (k.dw + 1) }
    (k.release (k.slot 0)).openN n

/-- SPCTL and RPCTL; a return entry that is opened holds `next` (DEDUCED from R115: only calls open one). -/
def Bank.moveDepths (k : Bank) (d r : Int) (next : Word) : Bank :=
  let k := if d < 0 then k.popN d.natAbs else k.openN d.natAbs
  if r < 0 then (List.range r.natAbs).foldl (fun k _ => k.rpop) k
  else (List.range r.natAbs).foldl (fun k _ => { k.rpush next with rw := min 8 (k.rw + 1) }) k

def Bank.putEntry (k : Bank) (i : Nat) (w : Word) : Bank := (k.release (k.slot i)).dset (k.slot i) w

/-- Replaces stack item `i`. -/
def Bank.putItem (k : Bank) (wide : Bool) (i v : Nat) : Bank :=
  if wide then (k.putEntry (2 * i) (BitVec.ofNat 36 v)).putEntry (2 * i + 1) (BitVec.ofNat 36 (v / 2 ^ 36))
  else k.putEntry i (BitVec.ofNat 36 v)

/-- Stages the destination's write. The stack destinations name the entries as SPCTL leaves them. -/
def Micro.write (u : Micro) (i : MicroFor) (m : BitVec 144) (v : Nat) : Micro :=
  let k := u.bank
  let w : Word := BitVec.ofNat 36 v
  let bank (k : Bank) : Micro := { u with bank := k }
  match mDst m with
  | 0o01 => bank (k.putItem i.x.wide 0 v)
  | 0o02 => bank (k.putItem i.x.wide 0 v)
  | 0o03 => bank (k.putItem i.x.wide 1 v)
  | 0o04 => bank (k.setPtr i.ptr (BitVec.ofNat 32 v))
  | 0o05 => bank (k.setCap i.capReg ⟨w, BitVec.ofNat 36 (v / 2 ^ 36), u.mdTag⟩)
  | 0o06 => u.setT 0 v
  | 0o07 => u.setT 1 v
  | 0o10 => u.setT 2 v
  | 0o11 => u.setT 3 v
  | 0o12 => bank (k.setAcc false (BitVec.ofInt 80 (sextNat v (mWidth m))))
  | 0o13 => bank (k.setAcc true (BitVec.ofInt 80 (sextNat v (mWidth m))))
  | 0o14 => match fld (mLit m) 0 4 with
    | 0 => bank { k with rc := w }
    | 1 => bank { k with dsp := BitVec.ofNat 32 v }
    | 2 => bank { k with rsp := BitVec.ofNat 32 v }
    | 3 => bank { k with flags := w &&& flagMask }
    | 4 => { bank { k with pc := BitVec.ofNat 34 v } with jumped := true }
    | _ => u
  | 0o16 => { u with lc := BitVec.ofNat 9 v }
  | _ => u

/-! ## Memory and image accesses (R225, R229) -/

/-- Runs an operation of the cell on the staged bank: the bank that it leaves, the cell's own one being kept. -/
def State.onStaged (s : State) (c : Nat) (k : Bank) (f : State → Ex Unit) : Ex Bank :=
  let own := s.cur c
  match f (s.setCur c k) with
  | .ok _ s => .ok (s.cur c) (s.setCur c own)
  | .flt e s => .flt e (s.setCur c own)
  | .stall s => .stall (s.setCur c own)

/-- The words of an access at `ea` in the space of ASZ; a capability check that fails raises its fault 2 here (DESIGN CHOICE:
COND 0o22 then tells that a check was made). -/
def State.microTargets (s : State) (i : MicroFor) (u : Micro) (m : BitVec 144) (ea : Nat) (perm : Cap → Bool) :
    Ex (List (Nat × Phys)) :=
  let size := if mSize m = 2 then 2 else 1
  let cap := u.bank.cap i.ptr
  let each (f : Nat → Except CellFault (Nat × Phys)) : Ex (List (Nat × Phys)) :=
    Ex.collect (List.range size) (fun j s => match f j with
      | .ok a => .ok a s
      | .error e => .flt e s) s
  match mSpace m with
  | 0 => s.locate i.c u.bank cap (perm cap) (ea % 2 ^ 32) size
  | 1 => each (fun j => .ok (ea + j, ⟨ea + j, none, false, 0⟩))
  | 2 => each (fun j => if (ea + j) % 2 ^ 32 < 0x4000 then .ok ((ea + j) % 2 ^ 32, ⟨ownStore i.c ((ea + j) % 2 ^ 32), none, false, 0⟩)
      else .error { code := 6, info := 1, va := (ea + j) % 2 ^ 32 })
  | _ => each (fun j => .ok ((ea + j) % 0x100000, ⟨(ea + j) % 0x100000, none, false, 0⟩))

/-- A load: the words with the tag of their doubleword. -/
def State.microLoad (s : State) (i : MicroFor) (u : Micro) (m : BitVec 144) (ea : Nat) : Ex (List Word × Bool) :=
  (s.microTargets i u m ea (fun q => q.r)).bind fun l s =>
    (s.readWords i.c 1 l).bind fun ws s =>
      let pa := (l.map (fun a => a.2.pa)).getD 0 0
      let (tag, s) := if mMem m = 0o07 then s.readTagOf i.c pa else (false, s)
      let ws := if mSize m = 0 then ws.map (fun w => takeNonet (some ((u.t.toList.getD 2 0).extractLsb' 0 2)) w) else ws
      .ok (ws, tag && !s.anyLive i.c l) s

/-- A store is staged (R215), under the tag of the register that CST names: at most 8 words between two commits, beyond which
the routine is in error (DESIGN CHOICE: as a sequence error). The number of a nonet access lies in T2[1:0] (DESIGN CHOICE: the
microword has no field for it). -/
def State.microStore (s : State) (i : MicroFor) (u : Micro) (m : BitVec 144) (ea data : Nat) : Ex Micro :=
  let tagged : Bool := decide (mMem m = 0o10) && (u.bank.cap i.capReg).tag
  (s.microTargets i u m ea (fun q => q.w && (!tagged || q.m))).bind fun l s =>
    match storeRefused l with
    | some f => .flt f s
    | none =>
      let key : Option (BitVec 2) := if mSize m = 0 then some ((u.t.toList.getD 2 0).extractLsb' 0 2) else none
      let new := l.zipIdx.map (fun (a, j) =>
        (⟨a.1, a.2.pa, a.2.via, a.2.dev, placeNonet key (BitVec.ofNat 36 (data / 2 ^ (36 * j))), enables key, tagged,
          decide (mSize m = 2)⟩ : StagedWord))
      if u.mem.length + new.length > 8 then .flt { code := 1, info := 8 } (s.sendInfo (srcCell s i.c) 0x24 clsU u.upc)
      else .ok { u with mem := u.mem ++ new } s

/-- The memory operation of a microword at the ALU's result; with the words that a load into stack slots brings. DESIGN CHOICE
(R225): a store takes the result of its own microword, whatever DST holds, and none keeps write data from an earlier one. -/
def State.microMem (i : MicroFor) (m : BitVec 144) (u : Micro) (ea data : Nat) (s : State) : Ex (Micro × List Word) :=
  let c := i.c
  let plain (x : Ex Bool) : Ex (Micro × List Word) := x.bind fun _ s => .ok (u, []) s
  let onBank (f : State → Ex Unit) : Ex (Micro × List Word) :=
    (s.onStaged c u.bank f).bind fun k s => .ok ({ u with bank := k }, []) s
  let load : Ex (List Word × Bool) := s.microLoad i u m ea
  let access : Bool := decide (mSize m ≠ 3)
  match mMem m with
  | 0o01 => if access then load.bind fun (ws, _) s => .ok ({ u with md := dword (ws.getD 0 0) (ws.getD 1 0), mdTag := false, mdOk := true, capOk := true }, []) s
    else .ok (u, []) s
  | 0o02 => if access then (s.microStore i u m ea data).bind fun u s => .ok ({ u with capOk := true }, []) s else .ok (u, []) s
  | 0o03 => if access then load.bind fun (ws, _) s => .ok ({ u with mdOk := true, capOk := true }, ws) s else .ok (u, []) s
  | 0o04 => (s.drainAll c).bind fun _ s => .ok (u, []) s
  | 0o05 => onBank (fun s => s.spillBelow c 0)
  | 0o06 => onBank (fun s => (s.fillTo c false 4 16).bind fun _ s => s.fillTo c true 2 16)
  | 0o07 => if access then load.bind fun (ws, t) s => .ok ({ u with md := dword (ws.getD 0 0) (ws.getD 1 0), mdTag := t, mdOk := true, capOk := true }, []) s
    else .ok (u, []) s
  | 0o10 => if access then (s.microStore i u m ea data).bind fun u s => .ok ({ u with capOk := true }, []) s else .ok (u, []) s
  | 0o11 =>
    if s.throughput c then
      match s.translate c u.bank.dom.toNat (ea % 2 ^ 32) with
      | some p => .ok (u, []) (s.speculate c p)
      | none => .ok (u, []) s
    else .ok (u, []) s
  | 0o12 => plain (State.fenceStep c false s)
  | 0o13 => plain (State.flushiStep c false s)
  | _ => .ok (u, []) s

/-- Image unit control at the ALU's result: a read goes to MD, and a store is made at once. -/
def State.microImg (i : MicroFor) (m : BitVec 144) (u : Micro) (p data : Nat) (s : State) : Ex Micro :=
  let index := if mImg m = 0o06 then p / 16 % 2 ^ 17 else p
  let read (w : Word) : Ex Micro := .ok { u with md := BitVec.ofNat 72 w.toNat, mdTag := false, mdOk := true } s
  let store (ln : Option Nat) : Ex Micro :=
    match s.imageStore i.c index ln (BitVec.ofNat 36 data) with
    | (true, s) => .ok u s
    | (false, s) => s.fault2 8
  if mImg m = 0 then .ok u s
  else if index ≥ 131072 then s.fault2 8
  else match mImg m with
    | 0o01 => read (s.readInput s.rime.lat index)
    | 0o02 => read (s.readInput s.rime.prev index)
    | 0o03 => read (s.readPending index)
    | 0o04 => read (s.readOutput s.rime.comm index)
    | 0o05 => store none
    | _ => if p % 16 > 8 then s.fault2 8 else store (some (p % 16))

/-- Queue control at the ALU's result: a reservation, whose status comes in MD, its publication or release, its cancellation
(DESIGN CHOICE: R229 names no place for the status), and POST. -/
def State.microQueue (i : MicroFor) (m : BitVec 144) (u : Micro) (v : Nat) (s : State) : Ex Micro :=
  let c := i.c
  let reserve (deq : Bool) : Ex Micro :=
    let q := v % 65536
    let s := s.touchDesc q
    if s.qBroken q then s.queueFault (descAddr q ((s.descBad q).getD 0))
    else if (s.granted q deq (.cell c)).isNone ∧ s.cellRefused c q deq then s.fault2 9
    else (s.cellReserve c q deq).bind fun plan s => match plan with
      | .status st => .ok { u with md := BitVec.ofNat 72 st } ((if deq then s else s.enqRefuse q st).unreserve q deq (.cell c))
      | .dropOld => .ok { u with md := 4, queue := some (q, deq) } s
      | .go => .ok { u with md := 0, queue := some (q, deq) } s
  match mQctl m, u.queue with
  | 0o01, _ => reserve false
  | 0o02, _ => reserve true
  | 0o03, some (q, deq) =>
    let old : Bool := match s.granted q deq (.cell c) with
      | some r => decide (r.plan = .dropOld)
      | none => false
    let s := if deq then s.release q else s.publish q old
    .ok { u with queue := none } (s.unreserve q deq (.cell c))
  | 0o04, some (q, deq) => .ok { u with queue := none } (s.unreserve q deq (.cell c))
  | 0o07, _ => .ok u (s.sendPost c (v % 256) (v / 256 % 8))
  | _, _ => .ok u s

/-! ## Conditions (R221) -/

/-- The ring of the queue, or the buffer at An through Cn, lies in the cell store (COND 0o33): the queue of the routine's
reservation, or before it the one that S0 names (DEDUCED). -/
def State.microNear (s : State) (i : MicroFor) (u : Micro) : Bool :=
  let q : Nat := match u.queue, u.bank.stackItem false 0 with
    | some (q, _), _ => q
    | none, .ok (some w) => w % 65536
    | none, _ => 0
  let near (pa : Nat) : Bool := decide (s.reach i.c pa = .own)
  near (s.ringAddr q (s.qHead q) 0) || (match s.translate i.c u.bank.dom.toNat (u.bank.ptr i.ptr).toNat with
    | some p => near p.pa
    | none => false)

/-- A condition on what a microword has computed. -/
def State.microCond (s : State) (i : MicroFor) (m : BitVec 144) (u : Micro) (h : MicroRes) : Bool :=
  let w := mWidth m
  let k := u.bank
  match mCond m with
  | 0o00 => true
  | 0o01 => decide (h.r = 0)
  | 0o02 => h.r.testBit (w - 1)
  | 0o03 => h.carry
  | 0o04 => h.ovf
  | 0o05 => h.macOvf
  | 0o06 => decide (h.b = 0)
  | 0o07 => h.a.testBit (w - 1)
  | 0o10 => i.x.wide
  | 0o11 => i.x.sat
  | 0o12 => decide (i.x.rept ≠ .once)
  | 0o13 => decide (i.x.ext ≠ [])
  | 0o14 => k.ove
  | 0o15 => k.dze
  | 0o16 => decide (k.mp ≠ 0)
  | 0o17 => !s.throughput i.c
  | 0o20 => u.mdOk
  | 0o21 => decide (h.free % 2 = 1)
  | 0o22 => u.capOk
  | 0o23 => u.mdTag
  | 0o24 => true
  | 0o25 => match u.queue with
    | some (q, deq) => (s.granted q deq (.cell i.c)).isSome
    | none => true
  | 0o26 => decide ((s.cell i.c).sb = [])
  | 0o27 => decide (k.rc = 0)
  | 0o30 => i.syllable.testBit 2
  | 0o31 => decide (u.lc ≠ 0)
  | 0o32 => true
  | 0o33 => s.microNear i u
  | n => ((u.t.toList.getD 0 0).toNat).testBit (n - 0o40)

/-- PRED and FLAG (R228). -/
def Micro.control (u : Micro) (i : MicroFor) (m : BitVec 144) (cond bit0 : Bool) : Micro :=
  let k := u.bank
  let old := k.p.getLsbD i.sel.toNat
  let v : Bool := match mPred m % 8 with
    | 0 => cond
    | 1 => old && cond
    | 2 => old || cond
    | _ => bit0
  let k := if (mPred m).testBit 3 then k.setPred i.sel v else k
  let k := if (mFlag m).testBit 3 && cond then k.setOv else k
  let k := if (mFlag m).testBit 2 && cond then k.setDz else k
  let k := if (mFlag m).testBit 1 then { k with flags := setFld k.flags 6 4 (fld (mLit m) 0 4) } else k
  { u with bank := k }

/-! ## Commit (R215) -/

/-- Where the marks of a commit in progress lie among the addresses already written: the bank's, then one per staged store. -/
def commitMark : Nat := 2 ^ 60

/-- The staged stores, each one word or the two of a doubleword. -/
def stores : List StagedWord → List (List StagedWord)
  | a :: b :: l => if a.dbl then [a, b] :: stores l else [a] :: stores (b :: l)
  | [a] => [[a]]
  | [] => []

/-- The staged writes take effect: the bank, then the memory words in the order of the routine, then the task control word. One
that waits for room holds off every event, since the rest must follow. -/
def State.commit (s : State) (c : Nat) (u : Micro) : Ex Micro :=
  let done (n : Nat) (s : State) : State := s.modCell c (fun x => { x with sent := (commitMark + n) :: x.sent })
  let s := if (s.cell c).sent.contains commitMark then s else done 0 (s.setCur c u.bank)
  let one (g : List StagedWord × Nat) (s : State) : Ex Unit :=
    if (s.cell c).sent.contains (commitMark + g.2 + 1) then .ok () s
    else match g.1 with
      | a :: _ =>
        (s.storeWords c (g.1.map (fun w => (w.va, ⟨w.pa, w.via, w.dev, 0⟩))) (g.1.map (fun w => w.word)) a.en a.tag a.dbl 0).bind
          fun _ s => .ok () (done (g.2 + 1) s)
      | [] => .ok () s
  match Ex.each (stores u.mem).zipIdx one s with
  | .ok _ s =>
    let s := match u.tcw with
      | some (n, j, k) => s.saveTcw c n j k true
      | none => s
    .ok { u with bank := s.cur c, mem := [], tcw := none } s
  | .flt f s => .flt f s
  | .stall s => .stall (s.modCell c (fun x => { x with hold := true }))

/-! ## One microword (R219) -/

/-- What a microword leaves: the routine goes on, waits in it, or has ended, with the PC written or not. -/
inductive MicroOut where
  | next (u : Micro)
  | wait (u : Micro)
  | done (jumped : Bool)
  /-- committed, to begin again once the event that waits has been served (R230) -/
  | accept
deriving DecidableEq, Repr

/-- A trap's fault (R228): its INFO is free, as are the addresses of its record. -/
def State.trapFault {α : Type} (s : State) (code : Nat) : Ex α :=
  .flt { code := code, info := (Config.microValue s.fresh).toNat % 256, va := (Config.microValue (s.fresh + 1)).toNat % 2 ^ 32,
         pa := (Config.microValue (s.fresh + 2)).toNat % 2 ^ 50 } { s with fresh := s.fresh + 3 }

/-- A microcode sequence error (R220). -/
def State.sequenceError {α : Type} (s : State) (c upc : Nat) : Ex α :=
  .flt { code := 1, info := 8 } (s.sendInfo (srcCell s c) 0x24 clsU upc)

/-- SEQ: the microaddress that follows; a WAIT microword comes here once its condition holds. -/
def State.microSeq (s : State) (i : MicroFor) (m : BitVec 144) (u : Micro) (cond : Bool) : Ex MicroOut :=
  let go (n : Nat) : Ex MicroOut := .ok (.next { u with upc := n % 1024, hold := none }) s
  match mSeq m with
  | 0 => go (mNext m)
  | 1 => go (if cond then mNext m else u.upc + 1)
  | 2 => go (mNext m + i.syllable % 16)
  | 3 =>
    if u.stack.length ≥ 4 then s.sequenceError i.c u.upc
    else .ok (.next { u with upc := mNext m, stack := ((u.upc + 1) % 1024) :: u.stack }) s
  | 4 => match u.stack with
    | n :: l => .ok (.next { u with upc := n, stack := l }) s
    | [] => s.sequenceError i.c u.upc
  | 5 => (s.commit i.c u).bind fun u s => .ok (.done u.jumped) s
  | 6 => s.trapFault (mTrap m % 16)
  | _ => go (mNext m)

/-- BANK (R229), which acts after the microword's writes: the routine as it stands, or how it has ended. A code that leaves the bank
commits first. DESIGN CHOICE (R229): the codes that leave a bank end the routine whatever SEQ and QCTL say. -/
def State.microBank (s : State) (i : MicroFor) (m : BitVec 144) (u : Micro) : Ex (Micro × Option MicroOut) :=
  let c := i.c
  let stay (u : Micro) (s : State) : Ex (Micro × Option MicroOut) := .ok (u, none) s
  let leave (f : State → Ex Bool) : Ex (Micro × Option MicroOut) :=
    (s.commit c u).bind fun u s => (f s).bind fun j s => .ok (u, some (.done j)) s
  let staged (f : State → Ex Bool) : Ex (Micro × Option MicroOut) :=
    (s.onStaged c u.bank (fun s => (f s).bind fun _ s => .ok () s)).bind fun k s => stay { u with bank := k, jumped := true } s
  let n := s.running c
  match mBank m with
  | 0o01 => (s.commit c u).bind stay
  | 0o02 => staged (State.sysStep c i.x i.sel.toNat false)
  | 0o03 => staged (State.retsStep c false)
  | 0o04 => leave (State.iretStep c false)
  | 0o05 => leave (State.fretStep c false)
  | 0o06 => leave (State.dretStep c false)
  | 0o07 => stay (if n < 8 then { u with tcw := some (n, s.curTask c n, u.bank) } else u) s
  | 0o10 =>
    if n < 8 then
      match s.readTcw c n (s.curTask c n) with
      | (_, some w, s) => .ok (u, some (.done true)) (s.tcwError c n w)
      | (ws, none, s) => stay { u with bank := u.bank.restore ws true, jumped := true } s
    else stay u s
  | 0o11 =>
    (s.commit c u).bind fun u s =>
      let s := s.modCell c (fun x => { x with hold := false, sent := [] })
      if s.eventDue c then .ok (u, some .accept) s else stay u s
  | 0o12 => stay u (s.modCell c (fun x => { x with hold := true }))
  | _ => stay u s

/-- BANK, then the scheduler's codes of QCTL (R229), which commit first and end the routine whatever SEQ says (DESIGN CHOICE), and
otherwise SEQ. -/
def State.microLeave (s : State) (i : MicroFor) (m : BitVec 144) (u : Micro) (cond : Bool) : Ex MicroOut :=
  let leave (u : Micro) (f : State → Ex Bool) (s : State) : Ex MicroOut :=
    (s.commit i.c u).bind fun _ s => (f s).bind fun j s => .ok (.done j) s
  (s.microBank i m u).bind fun (u, out) s =>
    match out, mQctl m with
    | some o, _ => .ok o s
    | none, 0o05 => leave u (State.fendStep i.c i.x false) s
    | none, 0o06 => leave u (State.waitStep i.c i.x false) s
    | none, 0o10 => leave u (State.yieldStep i.c i.x false) s
    | none, _ => s.microSeq i m u cond

/-- The registers that a microword writes before PRED, FLAG and COND (R219, R222-R227): the carry and the stack depths, the
accumulator or the pair T0:T1, the entries that a load brings, and DST. -/
def Micro.results (u : Micro) (i : MicroFor) (m : BitVec 144) (last : Bool) (r : AluOut) (mo : MacOut) (v free : Nat)
    (ws : List Word) : Micro :=
  let u := { u with carry := r.carry, bank := u.bank.moveDepths (mSpctl m) (mRpctl m) ((u.pc + BitVec.ofNat 34 (encLen i.x i.op)).setWidth 36) }
  let u := match mo.acc with
    | some q => { u with bank := u.bank.setAcc ((mMac m).testBit 5) q }
    | none => if mMac m / 8 % 4 ≠ 0 then u.setPair (wrapNat mo.product 72) else u
  let u := if 0o11 ≤ mShf m ∧ mShf m ≤ 0o14 then u.setPair v else u
  let u := if mAlu m = 0o27 ∨ mAlu m = 0o30 ∨ mAlu m = 0o31 then u.setPair free else u
  let u := ws.zipIdx.foldl (fun (u : Micro) (x, j) =>
    let slot := u.bank.slot j
    let old := u.bank.dget slot
    let k := u.bank.putEntry j x
    { u with bank := if last then { k with shadow := (slot, old) :: k.shadow } else k }) u
  u.write i m v

/-- Source A as a signed number, which the shifter takes: all 80 bits of an accumulator. -/
def signedSource (m : BitVec 144) (full : Nat) : Int :=
  if mfld m 112 4 = 0o16 then sextNat full 80 else sextNat (full % 2 ^ mWidth m) (mWidth m)

/-- TRAP (R228): a trap whose condition holds ends the routine; otherwise BANK and SEQ follow. -/
def State.microTrap (s : State) (i : MicroFor) (m : BitVec 144) (u : Micro) (cond : Bool) : Ex MicroOut :=
  let trapped : Bool := (mTrap m).testBit 4 && cond
  let told : Bool := (mTrap m).testBit 5 && (trapped || decide (mSeq m = 6))
  let s := if told then s.sendInfo (srcCell s i.c) 0x24 clsU u.upc else s
  if trapped then s.trapFault (mTrap m % 16) else s.microLeave i m u cond

/-- COND and what follows it (R219): LC counts, a WAIT microword whose condition does not hold stays, and otherwise PRED,
FLAG, TRAP, BANK and SEQ act on the condition. -/
def State.microEnd (s : State) (i : MicroFor) (m : BitVec 144) (u : Micro) (h : MicroRes) : Ex MicroOut :=
  let cond := s.microCond i m u h
  let u := if mCond m = 0o31 ∧ u.lc ≠ 0 then { u with lc := u.lc - 1 } else u
  if mSeq m = 7 ∧ ¬ cond then .ok (.wait { u with hold := some h }) s
  else s.microTrap i m (u.control i m cond (h.v.testBit 0)) cond

/-- What a microword does with its sources: `full` of A, `b` of B, `free` for what the spec leaves open. DESIGN CHOICE (R222): where
SHF names an operation, its result takes the place of the ALU's for DST, PRED and store data. -/
def State.microAct (i : MicroFor) (last : Bool) (m : BitVec 144) (u : Micro) (full b free : Nat) (s : State) : Ex MicroOut :=
  let w := mWidth m
  let a := full % 2 ^ w
  let r := microAlu (mAlu m) w u.carry (mShamt m) (free % 2 ^ w) a b
  let mo := microMac (mMac m) (u.bank.acc ((mMac m).testBit 5)) a b
  let v := (microShift (mShf m) w (mShamt m) u a b (signedSource m full)).getD r.v
  (s.microMem i m u r.v v).bind fun (u, ws) s =>
    (s.microImg i m u r.v v).bind fun u s =>
      (s.microQueue i m u r.v).bind fun u s =>
        s.microEnd i m (u.results i m last r mo v free ws) ⟨a, b, r.v, r.carry, r.ovf, mo.ovf, v, free⟩

/-- A source's value, 0 where there is none. -/
def sourceValue (r : Except CellFault (Option Nat)) : Option Nat :=
  match r with
  | .ok v => v
  | .error _ => none

/-- One microword; one that waits goes on with what it has computed. Sources are read where the microword uses them. `last`
tells whether a load into stack slots starts a shadow (R103). -/
def State.microWord (i : MicroFor) (last : Bool) (m : BitVec 144) (u : Micro) (s : State) : Ex MicroOut :=
  let used : Bool := decide (mDst m + mMem m + mImg m + mQctl m + mMac m + mCond m + mPred m ≠ 0)
  let ra := s.microSource i m u (mfld m 112 4)
  let rb := s.microSource i m u (mfld m 108 4)
  match u.hold, used, ra, rb with
  | some h, _, _, _ => s.microEnd i m u h
  | none, true, .error f, _ => .flt f s
  | none, true, _, .error f => .flt f s
  | none, _, _, _ =>
    if used ∧ ((sourceValue ra).isNone ∨ (sourceValue rb).isNone) then .stall s
    else State.microAct i last m u ((sourceValue ra).getD 0) ((sourceValue rb).getD 0 % 2 ^ mWidth m) (Config.microValue s.fresh).toNat
      s.tickFresh

/-! ## Routines (R213-R217, R231) -/

/-- A word of the control store or the dispatch table as DE or EX reads it (R231): a single-bit error is corrected and reported,
an uncorrectable one aborts the instruction with fault 7. `info` is 5 for a microword and 6 for a dispatch entry. -/
def State.microRead {α : Type} (s : State) (c info n : Nat) (errs : List (Nat × Nat × Bool)) (v : α) : Ex α :=
  match errs.find? (fun e => decide (e.1 = s.slotOf c ∧ e.2.1 = n)) with
  | none => .ok v s
  | some e =>
    let key := hiddenKey (if info = 5 then 2 else 3) (s.physOf c) n
    if e.2.2 then .flt { code := 7, info := info, va := n } ((s.sendInfo (srcCell s c) 0x02 clsU n).candidate key key)
    else .ok v ((s.sendInfo (srcCell s c) 0x01 clsC n).corrected key key false)

/-- A routine that is about to begin: T0 to T3, LC, the microstack and MD are zero (R217). -/
def Micro.start (upc : Nat) (k : Bank) : Micro :=
  { upc := upc, t := Vector.replicate 4 0, lc := 0, stack := [], md := 0, mdTag := false, mdOk := false, capOk := false,
    carry := false, bank := k, mem := [], hold := none, tcw := none, pc := k.pc, jumped := false, spent := 0, queue := none }

/-- A routine that faults holds EX for its instruction's listed count outside Throughput mode (R186). -/
def State.microPad (s : State) (c cyc spent : Nat) : State := if s.throughput c then s else s.charge c (cyc - spent)

/-- The routine from where it stands: each microword holds EX for its CYC, and its waits beyond (R216). A command executes so
many microwords at most, and the next one goes on. -/
def State.microRun (i : MicroFor) (cyc : Nat) (last : Bool) : Nat → Micro → State → Ex Bool
  | 0, u, s => .stall (s.modCell i.c (fun x => { x with micro := some u }))
  | n + 1, u, s =>
    let keep (u : Micro) (s : State) : State := s.modCell i.c (fun x => { x with micro := some u })
    let store := sget MicroStore.empty (clusterOf i.c) s.ldv.stores
    match s.microRead i.c 5 u.upc store.wordErr (sget 0 u.upc store.words) with
    | .flt f s => .flt f (s.microPad i.c cyc u.spent)
    | .stall s => .stall (keep u s)
    | .ok m s =>
      match State.microWord i last m u s with
      | .flt f s => .flt f (s.microPad i.c cyc u.spent)
      | .stall s => .stall (keep u s)
      | .ok .accept s => .stall ((s.charge i.c (mCycles m)).modCell i.c (fun x => { x with micro := none }))
      | .ok (.done j) s => .ok j ((s.charge i.c (mCycles m)).modCell i.c (fun x => { x with micro := none, sent := [] }))
      | .ok (.wait u') s => .stall (keep u' (if u.hold.isSome then s else s.charge i.c (mCycles m)))
      | .ok (.next u') s =>
        let held := if u.hold.isSome then 0 else mCycles m
        State.microRun i cyc last n { u' with spent := u'.spent + held } ((s.charge i.c held).modCell i.c (fun x => { x with sent := [] }))

/-- Microwords that one command executes at most. -/
def microFuel : Nat := 4096

/-- The routine of the instruction that DE has resolved (R213): goes on, or begins at its dispatched microaddress; a guarded
BR or CALL moves its counter when it ends (R194). -/
def State.microIter (c : Nat) (x : Enc) (f : Form) (last : Bool) (s : State) : Ex Bool :=
  let i : MicroFor := ⟨c, x, f.op, (s.cell c).opc⟩
  let run (u : Micro) (s : State) : Ex Bool :=
    (State.microRun i f.cyc last microFuel u s).bind fun j s => .ok j (if f.branch ∧ x.guard ≠ .always then s.noteBranch c u.pc.toNat j else s)
  match (s.cell c).micro with
  | some u => run u s
  | none =>
    let store := sget MicroStore.empty (clusterOf c) s.ldv.stores
    (s.microRead c 6 i.index store.dispErr (sget 0 i.index store.disp)).bind fun upc s => run (Micro.start (upc % 1024) (s.cur c)) s

end Sys2Proof.Machine
end

