-- ==== Sys2Proof/Machine/Exec.lean ====
section
/-! DEFINITION. Exec.lean: the path of every instruction of a cell (04 R89-R109, 07 R186-R194, R529-R531). -/

namespace Sys2Proof.Machine

open Sys2Proof

/-- The counter that predicts a guarded BR or CALL is 10 or 11 (R194). -/
def State.predicted (s : State) (c pc : Nat) : Bool := decide (2 ≤ sget 1 (pc % 256) (s.cell c).bht)

/-- Cycles of a BR or CALL that transfers (R193). -/
def State.takenCount (s : State) (c : Nat) (x : Enc) (pc : Nat) : Nat :=
  if s.throughput c ∧ (x.guard = .always ∨ s.predicted c pc) then 4 else 6

/-- Cycles of a guarded-off instruction (R102, R193). -/
def State.offCount (s : State) (c : Nat) (f : Form) (pc : Nat) : Nat :=
  if f.branch ∧ s.throughput c ∧ s.predicted c pc then 6 else 1

/-- The iterations of a REPN (R105). While one waits, the last one for its load's data too, no event is accepted (R200). -/
def State.repeatN (s : State) (c b : Nat) (lvl : Option Nat) (f : Form) (next : SylAddr) (iter : Bool → State → Ex Bool) :
    Nat → State
  | 0 => (s.complete c b lvl { f with fixed := true } next 0 true false).modCell c (fun x => { x with hold := x.stall.isSome })
  | n + 1 =>
    let held (s : State) : State := s.modCell c (fun x => { x with hold := true })
    match s.iterate c f iter (decide (n = 0)) with
    | .ok _ s =>
      let s := ((s.modCell c Cell.settled).modCur c (fun k => { k with rc := BitVec.ofNat 36 n })).spend c lvl f.cyc f.fixed
      if n ≠ 0 ∧ (s.cell c).stall.isSome then held s else s.repeatN c b lvl f next iter n
    | .flt e s => s.faultAt c lvl f.cyc e
    | .stall s => held (s.wait c)

/-- The cycles of a wait; a SAVEM or LOADM that stops between two items for an event waits for nothing (R184, R210). -/
def State.waitIn (s : State) (c : Nat) : State :=
  if ¬ (s.cell c).hold ∧ (s.cur c).mp ≠ 0 ∧ s.eventDue c then s else s.wait c

/-- An instruction whose fetch, form and guard have passed: the repetition and the effect. One command is one iteration of a
REP. -/
def State.perform (s : State) (c b : Nat) (lvl : Option Nat) (x : Enc) (f : Form) (next : SylAddr)
    (iter : Bool → State → Ex Bool) : State :=
  let k := s.cur c
  let none' (s : State) : State := s.complete c b lvl { f with load := false } next 1 true false
  match x.rept with
  | .once => match s.iterate c f iter true with
    | .ok jumped s => s.complete c b lvl f next f.cyc true jumped
    | .flt e s => s.faultAt c lvl f.cyc e
    | .stall s => s.waitIn c
  | .rep =>
    if k.rc = 0 then none' s
    else match s.iterate c f iter (decide (k.rc = 1)) with
      | .ok _ s => (s.modCur c (fun k => { k with rc := k.rc - 1 })).complete c b lvl f next f.cyc (decide (k.rc = 1)) false
      | .flt e s => s.faultAt c lvl f.cyc e
      | .stall s => s.wait c
  | .repn =>
    if k.rc.toNat > 64 then s.faultAt c lvl f.cyc { code := 1, info := 5 }
    else if k.rc = 0 then none' s
    else s.repeatN c b lvl f next iter k.rc.toNat

/-- The effect of an instruction whose fetch, form and guard have passed. Where the cluster's image is Onaed's it is `iter` at its
listed count (R216); otherwise the loaded routine runs, whose microwords charge their cycles. -/
def State.effect (s : State) (c : Nat) (x : Enc) (f : Form) (iter : Bool → State → Ex Bool) : State :=
  let k := s.cur c
  let listed := s.asListed c && (s.cell c).micro.isNone
  let g : Form := if listed then (if f.branch then { f with cyc := s.takenCount c x k.pc.toNat } else f)
    else { f with cyc := 0, fixed := true }
  s.perform c (s.running c) (s.levelOf c) x g (nextPc k x f.op) (if listed then iter else State.microIter c x f)

/-- A guarded-off instruction (R101, R102): one predicted taken has flushed the prefetch queue (R193). -/
def State.skip (s : State) (c : Nat) (x : Enc) (f : Form) : State :=
  let pc := (s.cur c).pc.toNat
  let t := (if f.branch then s.noteBranch c pc false else s).complete c (s.running c) (s.levelOf c) { f with load := false }
    (nextPc (s.cur c) x f.op) (s.offCount c f pc) true false
  if f.branch ∧ s.throughput c ∧ s.predicted c pc then t.flushPq c else t

/-- An instruction that has been fetched: fault 1, a spill that missed in the background (R112), the guard, and the effect. -/
def State.issue (s : State) (c : Nat) (x : Enc) (f : Form) (iter : Bool → State → Ex Bool) : State :=
  let k := s.cur c
  match f.fault1 x with
  | some info => s.faultAt c (s.levelOf c) f.cyc { code := 1, info := info }
  | none => match findMark (k.dmark ++ k.rmark) missSlot with
    | some m => (s.modCur c (fun k => (k.unmark false missSlot).unmark true missSlot)).faultAt c (s.levelOf c) f.cyc m.fault
    | none => if ¬ guardPasses x.guard k then s.skip c x f else s.effect c x f iter

/-- EXECUTING AN INSTRUCTION (R89, R95-R109, R186): nothing while the cell cannot issue; otherwise the breakpoint, the fetch, and
the instruction's effect, in the order of R97. One whose effect is under way, with events held off or in its routine, goes on
with it. UNVERIFIED (R186): the cycles that an instruction holds the pipeline whose fetch faults are free in every mode, since
what it is, and so its listed count, is not known. -/
def State.runInstr (s : State) (c : Nat) (x : Enc) (f : Form) (iter : Bool → State → Ex Bool) : State :=
  if ¬ s.canIssue c then s
  else if (s.cell c).hold ∨ (s.cell c).micro.isSome then s.effect c x f iter
  else if s.breaks c then s.modCell c (fun y => { y with dreq := some 1 })
  else match s.fetch c (fetchLen x f.op) with
    | .ok _ s => s.issue c x f iter
    | .flt e s => (s.wait c).faultOut c e
    | .stall s => s.wait c

/-- An instruction whose effect is a computation on its popped entries, S0 first. -/
def State.calc (s : State) (c : Nat) (x : Enc) (f : Form) (g : List Word → Bank → Calc) : State :=
  s.runInstr c x f (State.calcStep c (List.range f.pops) f.pops g)

end Sys2Proof.Machine
end

