-- ==== Sys2Proof/Machine/Alu.lean ====
section
/-! DEFINITION. Alu.lean: stack operations, integer arithmetic, shifts, bit fields, comparisons, the multiplier and the
accumulators (05 R129-R142). -/

namespace Sys2Proof.Machine

open Sys2Proof

/-! ## Operands: words and doublewords (R116, R126) -/

/-- An instruction that reads the items listed, drops `drop` items and pushes items. -/
def State.shuffle (s : State) (c : Nat) (x : Enc) (f : Form) (reads : List Nat) (drop : Nat) (g : List Nat → List Nat) : State :=
  let ixs := reads.flatMap (fun i => if x.wide then [2 * i, 2 * i + 1] else [i])
  s.runInstr c x f (State.calcStep c ixs (drop * itemOf x) (fun ws k =>
    .ok ((g ((List.range reads.length).map (itemAt x ws))).flatMap (pushItem x)) k))

/-! ## Stack operations (R132, R133) -/

/-- LIT (R99): the short literal and the extension syllables. -/
def State.lit (s : State) (c : Nat) (x : Enc) (short : BitVec 6) : State :=
  let n := x.ext.length
  let v := sextNat (short.toNat * 64 ^ n + encRaw x) (6 * (n + 1))
  let f : Form := { itemForm x 0 1 with exts := if x.wide then [0, 1, 2, 3, 4, 5, 6] else [0, 1, 2, 3, 4, 5] }
  s.calc c x f (fun _ k => .ok (pushItem x (wrapNat v (widthOf x))) k)

/-- PICK (R133). DESIGN CHOICE (log entry 76): n = 15 is a form that is not admitted, fault 1 at step 2 of R97 and so also
when guarded off, where the Faults column of R132 would put it at step 6. -/
def State.pick (s : State) (c : Nat) (x : Enc) : State :=
  let n := encRaw x % 16
  let f : Form := { exts := [1], bad := decide (n = 15), pops := n + 1, pushes := n + 2 }
  s.runInstr c x f (State.calcStep c [n] 0 (fun ws k => .ok ws k))

/-! ## Integer arithmetic and logic (R134) -/

/-- Signed arithmetic on a and b. -/
def State.signed2 (s : State) (c : Nat) (x : Enc) (op : Int → Int → Int) : State :=
  let w := widthOf x
  s.calc c x { pairForm x 1 with sat := true } (fun ws k =>
    let (a, b) := pairOf x ws
    pushResult x (narrow k x.sat (signedLo w) (signedHi w) w (op (asSigned x a) (asSigned x b))))

/-- Unsigned arithmetic on a and b. -/
def State.unsigned2 (s : State) (c : Nat) (x : Enc) (op : Int → Int → Int) : State :=
  let w := widthOf x
  s.calc c x { pairForm x 1 with sat := true } (fun ws k =>
    let (a, b) := pairOf x ws
    pushResult x (narrow k x.sat 0 (unsignedHi w) w (op a b)))

/-- Signed arithmetic on a. -/
def State.signed1 (s : State) (c : Nat) (x : Enc) (op : Int → Int) : State :=
  let w := widthOf x
  s.calc c x { itemForm x 1 1 with sat := true } (fun ws k =>
    pushResult x (narrow k x.sat (signedLo w) (signedHi w) w (op (asSigned x (itemAt x ws 0)))))

/-- A function of the patterns of a and b that sets no flag. -/
def State.logic2 (s : State) (c : Nat) (x : Enc) (op : Nat → Nat → Nat) : State :=
  s.calc c x (pairForm x 1) (fun ws k =>
    let (a, b) := pairOf x ws
    .ok (pushItem x (op a b)) k)

/-- A function of the pattern of a that pushes one item. -/
def State.logic1 (s : State) (c : Nat) (x : Enc) (op : Nat → Nat) : State :=
  s.calc c x (itemForm x 1 1) (fun ws k => .ok (pushItem x (op (itemAt x ws 0))) k)

/-! ## Shifts and bit fields (R135-R137) -/

/-- A shift: its count is S0 as U36, or imm[6:0]. -/
def State.shift (s : State) (c : Nat) (x : Enc) (op : Nat → Nat → Nat) : State :=
  let f : Form := { wide := true, exts := [0, 1, 2], pops := itemOf x + (if x.ext = [] then 1 else 0), pushes := itemOf x }
  s.calc c x f (fun ws k =>
    if x.ext = [] then .ok (pushItem x (op (itemAt x (ws.drop 1) 0) (ws.getD 0 0).toNat)) k
    else .ok (pushItem x (op (itemAt x ws 0) (immAt x 36 % 128))) k)

/-- INS, EXT and EXTS on `n` operands besides the field. -/
def State.bitField (s : State) (c : Nat) (x : Enc) (n : Nat) (op : List Word → Nat → Nat → Nat) : State :=
  s.calc c x { exts := [0, 2], pops := n + (if x.ext = [] then 2 else 0), pushes := 1 } (fun ws k =>
    let (p, w, rest) := fieldOf x ws
    .ok [BitVec.ofNat 36 (op rest p w)] k)

/-- CLZ and POPC push one word even under WIDE. -/
def State.count1 (s : State) (c : Nat) (x : Enc) (op : Nat → Nat → Nat) : State :=
  s.calc c x { wide := true, pops := itemOf x, pushes := 1 } (fun ws k =>
    .ok [BitVec.ofNat 36 (op (widthOf x) (itemAt x ws 0))] k)

def State.nperm (s : State) (c : Nat) (x : Enc) : State :=
  s.calc c x { exts := [0, 2], pops := if x.ext = [] then 2 else 1, pushes := 1 } (fun ws k =>
    if x.ext = [] then .ok [npermOp (ws.getD 1 0) ((ws.getD 0 0).toNat % 256)] k
    else .ok [npermOp (ws.getD 0 0) (immAt x 36 % 256)] k)

/-! ## Comparisons and predicates (R138) -/

def State.compare (s : State) (c : Nat) (x : Enc) (n : BitVec 3) (op : Nat → Nat → Bool) : State :=
  s.calc c x { pairForm x 0 with pred := predOf n } (fun ws k =>
    let (a, b) := pairOf x ws
    .ok [] (k.setPred n (op a b)))

/-- PSET, PAND and POR: a function of Pn and x[0]. -/
def State.predicate (s : State) (c : Nat) (x : Enc) (syllables : Nat) (n : BitVec 3) (op : Bool → Bool → Bool) : State :=
  s.calc c x { op := syllables, pops := 1, pred := predOf n } (fun ws k =>
    .ok [] (k.setPred n (op (k.p.getLsbD n.toNat) (bit (ws.getD 0 0) 0))))

/-! ## Multiplier and accumulators (R139-R141) -/

/-- MUL: S36 under R130, or the exact doubleword under WIDE. -/
def State.mul (s : State) (c : Nat) (x : Enc) : State :=
  let f : Form := { exts := ext06, wide := true, sat := true, bad := x.wide && x.sat, cyc := 2,
                    pops := if x.ext = [] then 2 else 1, pushes := itemOf x }
  s.calc c x f (fun ws k =>
    let y : Enc := { x with wide := false }
    let p := asSigned y (pairOf y ws).1 * asSigned y (pairOf y ws).2
    if x.wide then .ok (pushItem x (wrapNat p 72)) k
    else pushResult x (narrow k x.sat (signedLo 36) (signedHi 36) 36 p))

/-- MULH and MULHU: bits [71:36] of the product. -/
def State.mulHigh (s : State) (c : Nat) (x : Enc) (num : Nat → Int) : State :=
  s.calc c x { exts := ext06, cyc := 2, pops := if x.ext = [] then 2 else 1, pushes := 1 } (fun ws k =>
    .ok [BitVec.ofNat 36 (wrapNat (num (pairOf x ws).1 * num (pairOf x ws).2) 72 / 2 ^ 36)] k)

/-- MAC and MSU: `sign` is 1 or -1. -/
def State.mac (s : State) (c : Nat) (x : Enc) (syllables : Nat) (one : Bool) (sign : Int) : State :=
  s.calc c x { op := syllables, sat := true, pops := 2 } (fun ws k =>
    match narrow k x.sat (signedLo 80) (signedHi 80) 80 ((k.acc one).toInt + sign * (sw (ws.getD 1 0) * sw (ws.getD 0 0))) with
    | some n => .ok [] (n.bank.setAcc one (BitVec.ofInt 80 n.value))
    | none => .flt 4 1)

/-- ACCRD (R140). -/
def State.accRead (s : State) (c : Nat) (x : Enc) (one : Bool) : State :=
  let w := widthOf x
  let f : Form := { op := 2, exts := [0, 1, 2], wide := true, sat := true, cyc := 2,
                    pops := if x.ext = [] then 1 else 0, pushes := itemOf x }
  s.calc c x f (fun ws k =>
    let n := if x.ext = [] then (ws.getD 0 0).toNat else immAt x 36 % 128
    pushResult x (narrow k x.sat (signedLo w) (signedHi w) w (roundAcc (k.acc one).toInt n)))

/-- FMUL (R141). -/
def State.fmul (s : State) (c : Nat) (x : Enc) : State :=
  s.calc c x { op := 2, exts := ext06, sat := true, cyc := 2, pops := if x.ext = [] then 2 else 1, pushes := 1 } (fun ws k =>
    let p := asSigned x (pairOf x ws).1 * asSigned x (pairOf x ws).2
    pushResult x (narrow k x.sat (signedLo 36) (signedHi 36) 36 ((p + (2 ^ 29 : Nat)) / (2 ^ 30 : Nat))))

/-! ## Long operations (R142) -/

def State.divide (s : State) (c : Nat) (x : Enc) (sat : Bool) (lo hi : Int) (num : Word → Int) : State :=
  s.calc c x { sat := sat, cyc := 38, fixed := true, pops := 2, pushes := 1 } (fun ws k =>
    divCalc (Machine.divide k x.sat lo hi 36 (num (ws.getD 1 0)) (num (ws.getD 0 0))))

/-- MOD (R131, R142): the remainder, which never overflows. -/
def State.modulo (s : State) (c : Nat) (x : Enc) : State :=
  s.calc c x { cyc := 38, fixed := true, pops := 2, pushes := 1 } (fun ws k =>
    let (a, b) := (sw (ws.getD 1 0), sw (ws.getD 0 0))
    if b = 0 then if k.dze then .flt 3 1 else .ok [BitVec.ofInt 36 a] k.setDz
    else .ok [BitVec.ofInt 36 (a - Int.tdiv a b * b)] k)

def State.sqrt (s : State) (c : Nat) (x : Enc) : State :=
  s.calc c x { wide := true, cyc := if x.wide then 38 else 20, fixed := true, pops := itemOf x, pushes := 1 } (fun ws k =>
    .ok [BitVec.ofNat 36 (sqrtBits (itemAt x ws 0) 36 0)] k)

/-! ## The instructions -/

/-- LIT (R99). -/
def execLit (c : CellId) (x : Enc) (short : BitVec 6) (s : State) : Out :=
  .next ((s.decode c.toNat (short.toNat)).lit c.toNat x short)

/-- NOP (R132). -/
def execNop (c : CellId) (x : Enc) (s : State) : Out :=
  .next ((s.decode c.toNat 0o100).calc c.toNat x {} (fun _ k => .ok [] k))

/-- DROP (R132): its entry is not read. -/
def execDrop (c : CellId) (x : Enc) (s : State) : Out :=
  .next ((s.decode c.toNat 0o101).shuffle c.toNat x (itemForm x 1 0) [] 1 (fun _ => []))

/-- DUP (R132). -/
def execDup (c : CellId) (x : Enc) (s : State) : Out :=
  .next ((s.decode c.toNat 0o102).shuffle c.toNat x (itemForm x 1 2) [0] 0 (fun v => v))

/-- SWAP (R132). -/
def execSwap (c : CellId) (x : Enc) (s : State) : Out :=
  .next ((s.decode c.toNat 0o103).shuffle c.toNat x (itemForm x 2 2) [0, 1] 2 (fun v => v))

/-- OVER (R132). -/
def execOver (c : CellId) (x : Enc) (s : State) : Out :=
  .next ((s.decode c.toNat 0o104).shuffle c.toNat x (itemForm x 2 3) [1] 0 (fun v => v))

/-- ROT (R132): ( a b c -- b c a ). -/
def execRot (c : CellId) (x : Enc) (s : State) : Out :=
  .next ((s.decode c.toNat 0o105).shuffle c.toNat x { itemForm x 3 3 with wide := false } [1, 0, 2] 3 (fun v => v))

/-- NIP (R132): only the top entry is read. -/
def execNip (c : CellId) (x : Enc) (s : State) : Out :=
  .next ((s.decode c.toNat 0o106).shuffle c.toNat x { itemForm x 2 1 with wide := false } [0] 2 (fun v => v))

/-- TUCK (R132). -/
def execTuck (c : CellId) (x : Enc) (s : State) : Out :=
  .next ((s.decode c.toNat 0o107).shuffle c.toNat x { itemForm x 2 3 with wide := false } [0, 1, 0] 2 (fun v => v))

/-- PICK (R133). -/
def execPick (c : CellId) (x : Enc) (s : State) : Out :=
  .next ((s.decode c.toNat 0o110).pick c.toNat x)

/-- ADD (R134). -/
def execAdd (c : CellId) (x : Enc) (s : State) : Out :=
  .next ((s.decode c.toNat 0o111).signed2 c.toNat x (fun a b => a + b))

/-- SUB (R134). -/
def execSub (c : CellId) (x : Enc) (s : State) : Out :=
  .next ((s.decode c.toNat 0o112).signed2 c.toNat x (fun a b => a - b))

/-- ADDU (R134). -/
def execAddu (c : CellId) (x : Enc) (s : State) : Out :=
  .next ((s.decode c.toNat 0o113).unsigned2 c.toNat x (fun a b => a + b))

/-- SUBU (R134). -/
def execSubu (c : CellId) (x : Enc) (s : State) : Out :=
  .next ((s.decode c.toNat 0o114).unsigned2 c.toNat x (fun a b => a - b))

/-- NEG (R134). -/
def execNeg (c : CellId) (x : Enc) (s : State) : Out :=
  .next ((s.decode c.toNat 0o115).signed1 c.toNat x (fun a => -a))

/-- ABS (R134). -/
def execAbs (c : CellId) (x : Enc) (s : State) : Out :=
  .next ((s.decode c.toNat 0o116).signed1 c.toNat x (fun a => max a (-a)))

/-- MIN (R134). -/
def execMin (c : CellId) (x : Enc) (s : State) : Out :=
  .next ((s.decode c.toNat 0o117).logic2 c.toNat x (fun a b => if asSigned x a ≤ asSigned x b then a else b))

/-- MAX (R134). -/
def execMax (c : CellId) (x : Enc) (s : State) : Out :=
  .next ((s.decode c.toNat 0o120).logic2 c.toNat x (fun a b => if asSigned x a ≤ asSigned x b then b else a))

/-- MINU (R134). -/
def execMinu (c : CellId) (x : Enc) (s : State) : Out :=
  .next ((s.decode c.toNat 0o121).logic2 c.toNat x (fun a b => min a b))

/-- MAXU (R134). -/
def execMaxu (c : CellId) (x : Enc) (s : State) : Out :=
  .next ((s.decode c.toNat 0o122).logic2 c.toNat x (fun a b => max a b))

/-- AND (R134). -/
def execAnd (c : CellId) (x : Enc) (s : State) : Out :=
  .next ((s.decode c.toNat 0o123).logic2 c.toNat x (fun a b => a &&& b))

/-- OR (R134). -/
def execOr (c : CellId) (x : Enc) (s : State) : Out :=
  .next ((s.decode c.toNat 0o124).logic2 c.toNat x (fun a b => a ||| b))

/-- XOR (R134). -/
def execXor (c : CellId) (x : Enc) (s : State) : Out :=
  .next ((s.decode c.toNat 0o125).logic2 c.toNat x (fun a b => a ^^^ b))

/-- NOT (R134). -/
def execNot (c : CellId) (x : Enc) (s : State) : Out :=
  .next ((s.decode c.toNat 0o126).logic1 c.toNat x (complement x))

/-- ANDN (R134). -/
def execAndn (c : CellId) (x : Enc) (s : State) : Out :=
  .next ((s.decode c.toNat 0o127).logic2 c.toNat x (fun a b => a &&& complement x b))

/-- SHL (R135). -/
def execShl (c : CellId) (x : Enc) (s : State) : Out :=
  .next ((s.decode c.toNat 0o130).shift c.toNat x (shlOp (widthOf x)))

/-- SHR (R135). -/
def execShr (c : CellId) (x : Enc) (s : State) : Out :=
  .next ((s.decode c.toNat 0o131).shift c.toNat x (shrOp (widthOf x)))

/-- SAR (R135). -/
def execSar (c : CellId) (x : Enc) (s : State) : Out :=
  .next ((s.decode c.toNat 0o132).shift c.toNat x (sarOp (widthOf x)))

/-- ROL (R135). -/
def execRol (c : CellId) (x : Enc) (s : State) : Out :=
  .next ((s.decode c.toNat 0o133).shift c.toNat x (rolOp (widthOf x)))

/-- INS (R136): ( d s p w -- r ). -/
def execIns (c : CellId) (x : Enc) (s : State) : Out :=
  .next ((s.decode c.toNat 0o134).bitField c.toNat x 2 (fun l p w => insOp (l.getD 1 0).toNat (l.getD 0 0).toNat p w))

/-- EXT (R136). -/
def execExt (c : CellId) (x : Enc) (s : State) : Out :=
  .next ((s.decode c.toNat 0o135).bitField c.toNat x 1 (fun l p w => extOp (l.getD 0 0).toNat p w))

/-- EXTS (R136). -/
def execExts (c : CellId) (x : Enc) (s : State) : Out :=
  .next ((s.decode c.toNat 0o136).bitField c.toNat x 1 (fun l p w => extsOp (l.getD 0 0).toNat p w))

/-- CLZ (R135). -/
def execClz (c : CellId) (x : Enc) (s : State) : Out :=
  .next ((s.decode c.toNat 0o137).count1 c.toNat x clzOp)

/-- POPC (R135). -/
def execPopc (c : CellId) (x : Enc) (s : State) : Out :=
  .next ((s.decode c.toNat 0o140).count1 c.toNat x popcOp)

/-- NPERM (R137). -/
def execNperm (c : CellId) (x : Enc) (s : State) : Out :=
  .next ((s.decode c.toNat 0o141).nperm c.toNat x)

/-- CEQ (R138). -/
def execCeq (c : CellId) (x : Enc) (p : BitVec 3) (s : State) : Out :=
  .next ((s.decode c.toNat (0o200 + p.toNat)).compare c.toNat x p (fun a b => decide (a = b)))

/-- CLT (R138). -/
def execClt (c : CellId) (x : Enc) (p : BitVec 3) (s : State) : Out :=
  .next ((s.decode c.toNat (0o210 + p.toNat)).compare c.toNat x p (fun a b => decide (asSigned x a < asSigned x b)))

/-- CLTU (R138). -/
def execCltu (c : CellId) (x : Enc) (p : BitVec 3) (s : State) : Out :=
  .next ((s.decode c.toNat (0o220 + p.toNat)).compare c.toNat x p (fun a b => decide (a < b)))

/-- PGET (R138). -/
def execPget (c : CellId) (x : Enc) (p : BitVec 3) (s : State) : Out :=
  .next ((s.decode c.toNat (0o230 + p.toNat)).calc c.toNat x { pushes := 1 } (fun _ k => .ok [BitVec.ofNat 36 (b2n (k.p.getLsbD p.toNat))] k))

/-- PSET (R138). -/
def execPset (c : CellId) (x : Enc) (p : BitVec 3) (s : State) : Out :=
  .next ((s.decode c.toNat (0o240 + p.toNat)).predicate c.toNat x 1 p (fun _ b => b))

/-- PAND (R138). -/
def execPand (c : CellId) (x : Enc) (p : BitVec 3) (s : State) : Out :=
  .next ((s.decode c.toNat (384 + 0o220 + p.toNat)).predicate c.toNat x 2 p (fun a b => a && b))

/-- POR (R138). -/
def execPor (c : CellId) (x : Enc) (p : BitVec 3) (s : State) : Out :=
  .next ((s.decode c.toNat (384 + 0o230 + p.toNat)).predicate c.toNat x 2 p (fun a b => a || b))

/-- MUL (R139). -/
def execMul (c : CellId) (x : Enc) (s : State) : Out :=
  .next ((s.decode c.toNat 0o250).mul c.toNat x)

/-- MULH (R139). -/
def execMulh (c : CellId) (x : Enc) (s : State) : Out :=
  .next ((s.decode c.toNat 0o251).mulHigh c.toNat x (fun v => sextNat v 36))

/-- MULHU (R139). -/
def execMulhu (c : CellId) (x : Enc) (s : State) : Out :=
  .next ((s.decode c.toNat 0o252).mulHigh c.toNat x (fun v => v))

/-- MAC0 (R139). -/
def execMac0 (c : CellId) (x : Enc) (s : State) : Out :=
  .next ((s.decode c.toNat 0o253).mac c.toNat x 1 false 1)

/-- MSU0 (R139). -/
def execMsu0 (c : CellId) (x : Enc) (s : State) : Out :=
  .next ((s.decode c.toNat (384 + 0o4)).mac c.toNat x 2 false (-1))

/-- ACCCLR0 (R139). -/
def execAccclr0 (c : CellId) (x : Enc) (s : State) : Out :=
  .next ((s.decode c.toNat (384 + 0o0)).calc c.toNat x { op := 2 } (fun _ k => .ok [] (k.setAcc false 0)))

/-- ACCRD0 (R140). -/
def execAccrd0 (c : CellId) (x : Enc) (s : State) : Out :=
  .next ((s.decode c.toNat (384 + 0o2)).accRead c.toNat x false)

/-- MAC1 (R139). -/
def execMac1 (c : CellId) (x : Enc) (s : State) : Out :=
  .next ((s.decode c.toNat 0o254).mac c.toNat x 1 true 1)

/-- MSU1 (R139). -/
def execMsu1 (c : CellId) (x : Enc) (s : State) : Out :=
  .next ((s.decode c.toNat (384 + 0o5)).mac c.toNat x 2 true (-1))

/-- ACCCLR1 (R139). -/
def execAccclr1 (c : CellId) (x : Enc) (s : State) : Out :=
  .next ((s.decode c.toNat (384 + 0o1)).calc c.toNat x { op := 2 } (fun _ k => .ok [] (k.setAcc true 0)))

/-- ACCRD1 (R140). -/
def execAccrd1 (c : CellId) (x : Enc) (s : State) : Out :=
  .next ((s.decode c.toNat (384 + 0o3)).accRead c.toNat x true)

/-- FMUL (R141). -/
def execFmul (c : CellId) (x : Enc) (s : State) : Out :=
  .next ((s.decode c.toNat (384 + 0o10)).fmul c.toNat x)

/-- DIV (R142). -/
def execDiv (c : CellId) (x : Enc) (s : State) : Out :=
  .next ((s.decode c.toNat 0o255).divide c.toNat x true (signedLo 36) (signedHi 36) sw)

/-- DIVU (R142). -/
def execDivu (c : CellId) (x : Enc) (s : State) : Out :=
  .next ((s.decode c.toNat 0o256).divide c.toNat x false 0 (unsignedHi 36) (fun w => w.toNat))

/-- MOD (R142). -/
def execMod (c : CellId) (x : Enc) (s : State) : Out :=
  .next ((s.decode c.toNat 0o257).modulo c.toNat x)

/-- SQRT (R142). -/
def execSqrt (c : CellId) (x : Enc) (s : State) : Out :=
  .next ((s.decode c.toNat 0o260).sqrt c.toNat x)


end Sys2Proof.Machine
end

