-- ==== Sys2Proof/Machine/Frame.lean ====
section
/-! DEFINITION. Frame.lean: what a tick does, in the order of R18: count, latch and commit, migrations, apply and swap
windows, tick delivery (01 R18, 02 R43, 10 R278, 13 R354-R361, R365, R376). -/

namespace Sys2Proof.Machine

open Sys2Proof

/-- The windows of the stream's EDIT records (R376): the ACTIVE covered levels are abandoned first; a record without its
ARMED edit ends tracking. -/
def State.streamEdits (s : State) (l : List (Nat × Word)) : State :=
  l.foldl (fun s (c, tag) =>
    if s.get (Reg.EDIT_STAT_STATE c) = edArmed ∧ s.reg (Reg.EDIT_TAG_TAG c).off = tag then
      let own := s.editOwner c
      let levels := (List.range 8).filter (fun n => (s.editLevels own).testBit n)
      let s := (s.editCells own).foldl (fun s x =>
        let s := levels.foldl (fun s n => s.abandon x n) s
        if levels.contains (s.running x) then s.put (Reg.CELL_STATE_BANK x) bankIdle else s) s
      s.beginWindow own
    else (s.raise Reg.STBY_STAT_EDMIS).loseTracking 3) s

/-! ## Frames outside RUN (R365, R547) -/

/-- The frame that ends counts as an overrun of every cell that spent a part of it outside RUN; a cell in Retain or Off
counts nothing (R26, R547). -/
def State.countOut (s : State) : State :=
  (List.range 256).foldl (fun s c =>
    if s.frm.outRun.contains (clusterOf c) ∧ s.power (clusterOf c) ≤ 1 ∧ ¬ (s.cell c).late then s.countOverrun c else s) s

/-! ## Step 5: the scheduler (R26, R252, R278, R366) -/

/-- Every enabled level of the cluster has left LOADING (R363). -/
def State.loaded (s : State) (k : Nat) : Bool :=
  (clusterCells k).all (fun c => (List.range 8).all (fun n => !s.lvEn c n || !decide (s.lvState c n = lvLoading)))

/-- STARTING ends at this tick. -/
def State.enterRun (s : State) (k : Nat) : State :=
  if s.runState k = runStarting ∧ s.power k ≤ 1 ∧ s.loaded k then s.put (Reg.CLU_RUNSTAT_STATE k) runRun else s

/-- What a cell's counts and flags of the frame before become at a tick (R48, R49). -/
def State.newFrame (s : State) (c : Nat) : State :=
  let s := (List.range 8).foldl (fun s n => s.setReg (Reg.CELL_LUSED_CYC c n).off 0) s
  s.modCell c (fun x => { x with noStart := 0, fend := false, late := false })

/-- Step 5 of R18 for every cluster: woken clusters resume, Doze ends, a cluster in Retain counts the tick (R550). -/
def State.deliverTick (s : State) : State :=
  let s := { s with pwr := { s.pwr with woken := [] } }
  let s := (List.range 16).foldl (fun s k =>
    let s := s.enterRun k
    if s.power k = pwRetain then s.bump (Reg.CLU_RTICK_COUNT k) else if s.runState k = runRun then s.undoze k else s) s
  (List.range 256).foldl State.cellTick s

/-- Clusters that are outside RUN as a frame begins (R365). -/
def State.outsideRun (s : State) : List Nat := (List.range 16).filter (fun k => decide (s.runState k ≠ runRun))

/-! ## The tick -/

/-- Step 2 of R18: the debounced inputs of the tick, latch, commit, the egress pass that follows at the edge + phi, and the journal
(R42, R43, R344, R349, R351). DESIGN CHOICE (R43): with D larger than the tick's number, at tick 0 or 1 of a free-running
timeline, the frame number N - D of the committed outputs is 0. -/
def State.edges (s : State) (n : Nat) (first : Bool) (missed : Option (Nat × Nat)) : State :=
  let s := if first then s.rimeStart else s.countOut
  let s := (s.debounceTick.latchEdge missed).commitEdge
  let silent := decide (sbSyncing ≤ s.stbyState)
  let s := { s with rime := { s.rime with phase := s.get Reg.IMG_EGRESS_PHASE_NS } }
  let frame := n - s.depth
  let pass : EgressPass := ⟨frame, s.frm.tickAt, s.on Reg.IMG_CTRL_EGEN && !silent, s.phi, decide (s.depth = 2)⟩
  let s := { s with rime := { s.rime with egress := some pass, first := first } }
  (s.journalPass frame).afterLatch

/-- Steps 3 and 4 of R18: migrations, DEFECTIVE clusters and localisation, then the windows; the cells whose swap window
opened. -/
def State.windows (s : State) (t : StreamTick) : List Nat × State :=
  let (s, moved) := s.migrateDue
  let s := (s.markDoomed.localiseAll).rotateSent
  let s := s.applyLines t
  let s := s.streamEdits t.edits
  s.editTick moved

/-- Steps 1 and 2 of R18: the tick is placed, the standby role judges its frame, and Rime's edges follow. -/
def State.tickEdges (s : State) (n : Nat) (first : Bool) : StreamTick × State :=
  let r := (s.placeTick n first).judgeStream
  (r.1, r.2.edges n first r.1.missed)

/-- The frame's counts clear, and the send set is frozen (R48, R373). -/
def State.tickCounts (s : State) (active : Bool) : State :=
  let s := (List.range 256).foldl (fun s c => s.newFrame c) s
  if active then s.setStby (fun x => { x with dirty := [] }) else s

/-- Step 5 of R18: the cells, and the sources whose quiet time ends; a new frame begins. -/
def State.tickCells (s : State) : State :=
  let s := s.deliverTick.quietTick
  { s with frm := { s.frm with outRun := s.outsideRun, dlSeen := false } }

/-- Steps 3 to 6 of R18. -/
def State.tickFrame (s : State) (active : Bool) (t : StreamTick) : State :=
  let sendSet := if active then s.stby.dirty else []
  let w := (s.tickCounts active).windows t
  let s := w.2.tickCells
  if active then s.streamSend sendSet w.1 else s

/-- TICK: the clock places its next tick. The deadline of the frame that ends precedes it (R19), and so does the
publication of the pass that waits (R349). -/
def State.tick (s : State) : State :=
  match s.dueTick with
  | none => s
  | some (n, first) =>
    let s := s.deadline.egressPublish
    let r := s.tickEdges n first
    (r.2.tickFrame (decide (s.stbyState = sbActive)) r.1).settle

end Sys2Proof.Machine
end

