-- ==== Sys2Proof/WellFormed.lean ====
section
/-! DEFINITION. WellFormed.lean: the operands that a command of the block can carry. A command outside these bounds is no command
of the hardware: its operands name a slot that no cluster has, a frame that no CAN bus carries, or the like. Execution does not rest
on them: `exec` is total on every command. EN of a write that enables or disables a unit is fixed by the command, whatever its value
operand holds. -/

namespace Sys2Proof

/-- A slot number (R20): 0 to 16. -/
def slotOk (s : BitVec 5) : Bool := decide (s.toNat ≤ 16)

/-- The slot that a scrubbed memory belongs to. -/
def ScrubMem.slotOk : ScrubMem → Bool
  | .store _ j => Sys2Proof.slotOk j
  | .storeTags _ j => Sys2Proof.slotOk j
  | .control _ j => Sys2Proof.slotOk j
  | .dispatch _ j => Sys2Proof.slotOk j
  | .icache _ j => Sys2Proof.slotOk j
  | .dcache _ j => Sys2Proof.slotOk j
  | .cluster _ => true
  | .clusterTags _ => true
  | .image => true
  | .queues => true
  | .firn => true
  | .regions => true
  | .verifier => true

/-- A tag can differ between its two copies in the memories that hold tags alone (R245, R320). -/
def ScrubMem.tagged : ScrubMem → Bool
  | .storeTags _ _ => true
  | .clusterTags _ => true
  | _ => false

/-- The macro classes of R491, and the slot of a class that has one. -/
def MacroId.ok (m : MacroId) : Bool := decide (m.cls.toNat ≤ 13) && (decide (4 < m.cls.toNat) || decide (m.inst.toNat < 272))

/-- Data bytes of a frame (R417): none in a remote frame. -/
def CanFrame.bytes (f : CanFrame) : Nat :=
  if f.rtr then 0
  else if f.dlc.toNat ≤ 8 then f.dlc.toNat
  else if f.fdf then [12, 16, 20, 24, 32, 48, 64].getD (f.dlc.toNat - 9) 64 else 8

/-- A frame as the standard forms it (R416, R417): 11 identifier bits in the base format, the FD bits in an FD frame alone, no
remote FD frame, and as many data bytes as its DLC says. -/
def CanFrame.ok (f : CanFrame) : Bool :=
  (f.ide || decide (f.id.toNat < 2 ^ 11)) && (f.fdf || (!f.brs && !f.esi)) && !(f.fdf && f.rtr) && decide (f.data.length = f.bytes)

/-- A fault that belongs to one instruction (R253): codes 1 to 7, 9 and 10. -/
def FaultReq.ok : FaultReq → Bool
  | .sync code _ _ => decide (1 ≤ code.toNat) && decide (code.toNat ≤ 10) && decide (code ≠ 8)
  | .held => true

/-- A flash image (R441, R451): the numbers of its blocks differ, and a hot record lies in a slot of the hot area. -/
def FlashImage.ok (img : FlashImage) : Bool :=
  img.hot.all (fun h => decide (h.slot < 50)) && decide ((img.blocks.map FlashBlock.number).Nodup)

/-- Argument bits of a debug operation (R519); OP 9 to 15 have none. -/
def opArgs (op : Nat) : Nat := [0, 2, 1, 50, 86, 123, 20, 57, 8].getD op 0

/-- THE CHECKS ON A COMMAND. Every operand that is a bit vector of its field's own width needs none. -/
def Instr.wf : Instr → Bool
  | .cellCheckError _ j => slotOk j
  | .test _ j => slotOk j
  | .testEnd _ j _ => slotOk j
  | .restore _ j => slotOk j
  | .scrub m seen _ => m.slotOk && (decide (seen ≠ .tagsDiffer) || m.tagged)
  | .scrubberStarved m => m.slotOk
  | .faultEntry _ r => r.ok
  -- R456, R486, R519: an operation that is not assigned
  | .keepIllegalOp op _ => decide (op = 0) || decide (9 < op.toNat)
  | .rprIllegalOp op _ => decide (op = 0) || decide (3 < op.toNat)
  | .dbgIllegalOp op args _ => decide (9 ≤ op.toNat) || decide (args.length ≠ opArgs op.toNat)
  | .frameReception _ f _ => f.ok
  -- R434: what the standard adds to a counter for one error
  | .errorFrame _ lec tecInc recInc =>
    decide (1 ≤ lec.toNat) && decide (lec.toNat ≤ 6) && [0, 1, 8].contains tecInc.toNat && [0, 1, 8].contains recInc.toNat
  | .fabricResponse _ _ _ data => decide (data.length ≤ 16)
  | .slaveMemoryAccess _ _ _ beats => decide (1 ≤ beats.length) && decide (beats.length ≤ 8)
  | .registerWrite m _ _ nonets more => decide ((m :: more.map Prod.fst).Nodup) && (more.isEmpty || decide (nonets = 15))
  | .inputRecord first ws _ => decide (first.toNat + ws.length ≤ 2 ^ 17)
  | .phase1End img bad spares => img.ok && bad.all MacroId.ok && spares.all (fun e => e.1.ok)
  | .phase2End bad spares _ => bad.all MacroId.ok && spares.all (fun e => e.1.ok)
  | .phase3End slots _ _ => slots.all (fun e => slotOk e.2)
  | .phase5End slots => slots.all (fun e => slotOk e.2.1)
  | _ => true

end Sys2Proof
end

