-- ==== Sys2Proof/Machine/Debug.lean ====
section
/-! DEFINITION. Debug.lean: the debug domain: packets, the bank view, debug events (21 R515-R535). -/

namespace Sys2Proof.Machine

open Sys2Proof

/-! ## Disturbance (R526) -/

/-- DET_DISTURBED of a cell that executes a bank in a Deterministic or Paired cluster. -/
def State.disturb (s : State) (c : Nat) : State :=
  if s.live c && !s.dead c && decide (s.running c ≤ 10) && !s.throughput c then s.raise ⟨Reg.DBG_STAT_EMUL.off + 8 + c / 32, c % 32, 1⟩ else s

/-- A debug access to an address in a cell store. -/
def State.disturbAt (s : State) (pa : Nat) : State :=
  match s.area pa with
  | .store key =>
    let phys := (key - 0x8000000) / 0x10000
    match s.cellAt (phys / 17) (phys % 17) with
    | some c => s.disturb c
    | none => s
  | _ => s

/-! ## The bank view (R527, R528) -/

/-- A written LINK word; the tag written with word 4 or 6 is applied. -/
def Link.set (l : Link) (i : Nat) (w : Word) (tag : Bool) : Link :=
  match i with
  | 0 => { l with pc := w.setWidth 34 }
  | 1 => { l with dsp := w.setWidth 32 }
  | 2 => { l with rsp := w.setWidth 32 }
  | 3 => { l with occ := bit w 35, n := BitVec.ofNat 3 (fld w 8 3), args := BitVec.ofNat 3 (fld w 3 3), res := BitVec.ofNat 3 (fld w 0 3) }
  | 4 => { l with c2 := { l.c2 with lo := w, tag := tag } }
  | 5 => { l with c2 := { l.c2 with hi := w } }
  | 6 => { l with c3 := { l.c3 with lo := w, tag := tag } }
  | _ => { l with c3 := { l.c3 with hi := w } }

/-- An accumulator's words. -/
def accWord (a : Acc) (i : Nat) : Word := if i = 0 then accLo a else if i = 1 then accMid a else accGuard a
def accPut (a : Acc) (i : Nat) (w : Word) : Acc :=
  accOf (if i = 0 then w else accLo a) (if i = 1 then w else accMid a) (if i = 2 then w else accGuard a)

/-- Word `i` of capability register `k`. -/
def capWord (k : Bank) (n : Nat) : Word × Bool :=
  let q := k.c[n / 2 % 4]'(Nat.mod_lt _ (by decide))
  (if n % 2 = 0 then q.lo else q.hi, q.tag)

def Cap.put (q : Cap) (i : Nat) (w : Word) (tag : Bool) : Cap := if i = 0 then { q with lo := w, tag := tag } else { q with hi := w }

/-- Indices of registers, other than stack entries (R528). -/
def bankRegs (ix : Nat) : Bool :=
  (decide (0x18 ≤ ix) && decide (ix ≤ 0x31)) || (decide (0x38 ≤ ix) && decide (ix ≤ 0x40))

/-- A register of a bank by its index, with the tag returned. -/
def Bank.view (k : Bank) (ix : Nat) : Word × Bool :=
  if ix = 0x18 then (k.pc.setWidth 36, false)
  else if ix = 0x19 then (k.dsp.setWidth 36, false)
  else if ix = 0x1A then (k.rsp.setWidth 36, false)
  else if ix = 0x1B then (k.flags, false)
  else if ix = 0x1C then (k.rc, false)
  else if ix = 0x1D then (setFld (1 : Word) 1 7 (k.p.toNat / 2), false)
  else if ix = 0x1E then (BitVec.ofNat 36 k.mask.toNat, false)
  else if ix = 0x1F then (BitVec.ofNat 36 k.dom.toNat, false)
  else if ix < 0x24 then ((k.a[ix % 4]'(Nat.mod_lt _ (by decide))).setWidth 36, false)
  else if ix < 0x2C then capWord k (ix - 0x24)
  else if ix < 0x2F then (accWord k.acc0 (ix - 0x2C), false)
  else if ix < 0x32 then (accWord k.acc1 (ix - 0x2F), false)
  else if ix < 0x40 then (k.link.word (ix - 0x38), k.link.tag (ix - 0x38))
  else
    (setFld (setFld (setFld (setFld (0 : Word) 0 4 k.dw) 4 3 k.rw) 7 1 (b2n (!k.shadow.isEmpty))) 8 4 k.pend.length, false)

/-- The order that DSP, RSP and C3 must keep (R528). -/
def Bank.ordered (k : Bank) : Bool :=
  decide ((k.c[3]).base ≤ k.rsp.toNat) && decide (k.rsp.toNat ≤ k.dsp.toNat) && decide (k.dsp.toNat ≤ (k.c[3]).top)

/-- Writes a register of a bank by its index. -/
def Bank.write (k : Bank) (ix : Nat) (w : Word) (tag : Bool) : Bank :=
  if ix = 0x18 then { k with pc := w.setWidth 34 }
  else if ix = 0x19 then { k with dsp := w.setWidth 32 }
  else if ix = 0x1A then { k with rsp := w.setWidth 32 }
  else if ix = 0x1B then { k with flags := w &&& flagMask }
  else if ix = 0x1C then { k with rc := w }
  else if ix = 0x1D then { k with p := BitVec.ofNat 8 (2 * fld w 1 7 + 1) }
  else if ix = 0x1E then { k with mask := BitVec.ofNat 2 (fld w 0 2) }
  else if ix = 0x1F then { k with dom := BitVec.ofNat 6 (fld w 0 6) }
  else if ix < 0x24 then { k with a := k.a.setIfInBounds (ix % 4) (w.setWidth 32) }
  else if ix < 0x2C then
    let n := (ix - 0x24) / 2
    { k with c := k.c.setIfInBounds n ((k.c[n % 4]'(Nat.mod_lt _ (by decide))).put ((ix - 0x24) % 2) w tag) }
  else if ix < 0x2F then { k with acc0 := accPut k.acc0 (ix - 0x2C) w }
  else if ix < 0x32 then { k with acc1 := accPut k.acc1 (ix - 0x2F) w }
  else { k with link := k.link.set (ix - 0x38) w tag }

/-- A write of DSP, RSP or C3, which the order of R528 and the spills of R114 govern. -/
def stackIndex (ix : Nat) : Bool := ix = 0x19 || ix = 0x1A || ix = 0x2A || ix = 0x2B

/-- A part of the bank view runs as if its bank were the running one. -/
def State.asBank {α : Type} (s : State) (c b : Nat) (f : State → Ex α) : Ex α :=
  let r := s.running c
  let back (s : State) : State := s.put (Reg.CELL_STATE_BANK c) r
  match f (s.put (Reg.CELL_STATE_BANK c) b) with
  | .ok a s => .ok a (back s)
  | .flt e s => .flt e (back s)
  | .stall s => .stall (back s)

/-- The bank cannot be reached (R527). -/
def State.bankRefused (s : State) (c b : Nat) : Bool :=
  let k := clusterOf c
  s.runState k = runDefective || s.unpowered k || (decide (s.power k ≥ 2) && !s.on (emulFld k)) ||
    (decide (s.running c = b) && !s.dead c && decide (s.runState k ≠ runStopped))

/-- A stack entry of a bank: its home word's address in the return or the data stack, or none where none exists. -/
def Bank.entryAt (k : Bank) (ix : Nat) : Option (Bool × Nat × Nat) :=
  let r := decide (0x10 ≤ ix)
  let i := if r then ix - 0x10 else ix
  if i < k.deep r then some (r, i, k.homeI r i) else none

/-- An access to a home word in memory, after the cell's buffered stores that overlap it; none while they must wait. -/
def State.homeAccess (s : State) (c b va : Nat) (f : Nat → State → DbgAnswer × State) : Option DbgAnswer × State :=
  match s.translate c (s.bank c b).dom.toNat va with
  | none => (some (.fault 3), s)
  | some p => match s.drainFor c p.pa 0xF with
    | .ok _ s => let r := f p.pa s; (some r.1, r.2)
    | .stall s => (none, s)
    | .flt _ s => (some (.fault 3), s)

/-- Reads a stack entry, from the window or from its home word (R113). -/
def State.viewEntry (s : State) (c b : Nat) (r : Bool) (i va : Nat) : Option DbgAnswer × State :=
  let k := s.bank c b
  let slot := k.slotI r i
  if i < k.occ r then
    match (if r then none else k.shadow.find? (fun q => decide (q.1 = slot))) with
    | some q => (some (.ok q.2 false), s)
    | none => (some (if (findMark (k.marks r) slot).isSome then .fault 3 else .ok (k.getI r slot) false), s)
  else s.homeAccess c b va fun pa s =>
    match s.busRead pa with
    | (.word w _, s) => (.ok w false, s)
    | (.bad, s) => (.fault 3, s)
    | (.retry, s) => (.fault 3, s)
    | (.error, s) => (.fault 3, s)

/-- Writes a stack entry. -/
def State.putEntry (s : State) (c b : Nat) (r : Bool) (i va : Nat) (w : Word) : Option DbgAnswer × State :=
  let k := s.bank c b
  let slot := k.slotI r i
  if i < k.occ r then
    (some (.ok 0 false), s.modBank c b (fun k =>
      let k := (k.unmark r slot).setI r slot w
      if r then k else { k with shadow := k.shadow.filter (fun q => decide (q.1 ≠ slot)) }))
  else s.homeAccess c b va fun pa s =>
    match s.busWrite .debug pa w 0xF false none with
    | (.done, s) => (.ok 0 false, s)
    | (.retry, s) => (.fault 3, s)
    | (.error, s) => (.fault 3, s)

/-- RDBNK (R527); none while it must wait. -/
def State.readBank (s : State) (c b ix : Nat) : Option DbgAnswer × State :=
  if s.bankRefused c b then (some (.fault 5), s)
  else if ¬ (s.bank c b).pend.isEmpty then (none, s)
  else
    let s := s.disturb c
    if ix < 0x18 then match (s.bank c b).entryAt ix with
      | some (r, i, va) => s.viewEntry c b r i va
      | none => (some (.fault 6), s)
    else
      let v := (s.bank c b).view ix
      (some (.ok v.1 v.2), s)

/-- WRBNK (R528); none while it must wait. -/
def State.writeBank (s : State) (c b ix : Nat) (w : Word) (tag : Bool) : Option DbgAnswer × State :=
  if s.bankRefused c b then (some (.fault 5), s)
  else if ¬ (s.bank c b).pend.isEmpty then (none, s)
  else
    let s := s.disturb c
    let k := s.bank c b
    if ix < 0x18 then match k.entryAt ix with
      | some (r, i, va) => s.putEntry c b r i va w
      | none => (some (.fault 6), s)
    else if ix = 0x40 then (some (.fault 6), s)
    else if stackIndex ix then
      if (k.write ix w tag).ordered then
        match s.asBank c b (fun s => s.spillBelow c 0) with
        | .ok _ s => (some (.ok 0 false), s.modBank c b (fun k => { k.write ix w tag with shadow := [], dmark := [], rmark := [] }))
        | .stall s => (none, s)
        | .flt _ s => (some (.fault 3), s)
      else (some (.fault 6), s)
    else
      let s := if ix = 0x1F then s.modCell c (fun x => { x with sets := serase b x.sets }) else s
      (some (.ok 0 false), s.modBank c b (fun k => k.write ix w tag))

/-! ## Operations on addresses (R525) -/

/-- RDPHY. -/
def State.readPhy (s : State) (pa : Nat) : Option DbgAnswer × State :=
  if fabricBase ≤ pa then (some (.fault 3), s)
  else match s.busRead pa with
    | (.word w tag, s) => (some (.ok w tag), (s.readTag pa).disturbAt pa)
    | (.retry, s) => (none, s)
    | (.bad, s) => (some (.fault 3), s.disturbAt pa)
    | (.error, s) => (some (.fault 3), s.disturbAt pa)

/-- WRPHY. -/
def State.writePhy (s : State) (pa : Nat) (w : Word) (tag : Bool) : Option DbgAnswer × State :=
  if fabricBase ≤ pa then (some (.fault 3), s)
  else if pa = 0x8001 then (some (.fault 6), s)
  else match s.busWrite .debug pa w 0xF tag none with
    | (.done, s) => (some (.ok 0 false), s.disturbAt pa)
    | (.retry, s) => (none, s)
    | (.error, s) => (some (.fault 3), s)

/-- WRCAP: the doubleword and its tag together. -/
def State.physCap (s : State) (pa : Nat) (d : DWord) (tag : Bool) : Option DbgAnswer × State :=
  if pa = 0x8000 then (some (.fault 6), s)
  else if s.writeBusy pa ∨ s.writeBusy (pa + 1) then (none, s)
  else match s.writePhy pa (dlo d) tag with
    | (some (.ok _ _), s) => s.writePhy (pa + 1) (dhi d) tag
    | r => r

/-! ## Packets on the wire (R517, R518) -/

/-- A field as it is sent, least significant bit first. -/
def lsbBits {w : Nat} (v : BitVec w) : List Bool := (List.range w).map (fun i => v.getLsbD i)

/-- CRC-8 of R518 over bits in the order in which they are sent (DEDUCED): polynomial 0x07, initial value 0, no reflection, no final
XOR. -/
def crc8 (l : List Bool) : BitVec 8 :=
  l.foldl (fun c b => if c.msb != b then (c <<< 1) ^^^ 0x07#8 else c <<< 1) 0

/-- OP and arguments of a packet (R519). -/
def DbgOp.bits (op : DbgOp) : List Bool :=
  match op with
  | .rdphy a => lsbBits 3#4 ++ lsbBits (BitVec.ofNat 50 a)
  | .wrphy a w => lsbBits 4#4 ++ lsbBits (BitVec.ofNat 50 a) ++ lsbBits w
  | .wrcap a d t => lsbBits 5#4 ++ lsbBits (BitVec.ofNat 50 a) ++ lsbBits d ++ [t]
  | .rdbnk c b ix => lsbBits 6#4 ++ lsbBits (BitVec.ofNat 8 c) ++ lsbBits (BitVec.ofNat 4 b) ++ lsbBits (BitVec.ofNat 8 ix)
  | .wrbnk c b ix w t =>
    lsbBits 7#4 ++ lsbBits (BitVec.ofNat 8 c) ++ lsbBits (BitVec.ofNat 4 b) ++ lsbBits (BitVec.ofNat 8 ix) ++ lsbBits w ++ [t]
  | .event c => lsbBits 8#4 ++ lsbBits (BitVec.ofNat 8 c)

/-- The four ACK slots (R518): the presence bit, the code, and its check bit. -/
def ackBits (code : BitVec 2) : List Bool := [false] ++ lsbBits code ++ [!(code.getLsbD 0 ^^ code.getLsbD 1)]

/-- What the target sends in the read slots (R518): the ACK, then the response data, if the operation has any, with their CRC-8, or
the code of a FAULT. -/
def DbgAnswer.bits (a : DbgAnswer) (data : List Bool) : List Bool :=
  match a with
  | .ok _ _ => ackBits 0 ++ (if data = [] then [] else data ++ lsbBits (crc8 data))
  | .wait => ackBits 1
  | .fault code => ackBits 2 ++ lsbBits (BitVec.ofNat 4 code)

/-- The response data of an operation (R519): a word and its tag. -/
def DbgOp.data (op : DbgOp) (a : DbgAnswer) : List Bool :=
  match op, a with
  | .rdphy _, .ok w t => lsbBits w ++ [t]
  | .rdbnk _ _ _, .ok w t => lsbBits w ++ [t]
  | _, _ => []

/-! ## Packets (R518-R524, R534) -/

/-- The unit that an operation is aimed at answers RETRY under R510. -/
def State.opBusy (s : State) (op : DbgOp) : Bool :=
  match op with
  | .rdphy a => s.underTest a
  | .wrphy a _ => s.underTest a
  | .wrcap a _ _ => s.underTest a
  | .rdbnk c _ _ => s.underTest (ownStore c 0)
  | .wrbnk c _ _ _ _ => s.underTest (ownStore c 0)
  | .event c => s.underTest (ownStore c 0)

/-- A halt request (R529); the words of a cell of a DEFECTIVE cluster keep their values (R560). -/
def State.requestHalt (s : State) (c : Nat) : State :=
  if s.runState (clusterOf c) = runDefective then s else s.raise (Reg.CELL_DCTL_HALT c)

/-- Performs an operation; none while its unit makes it wait. Nothing reaches a block domain that is unpowered or in block reset
(R521). -/
def State.dbgPerform (s : State) (op : DbgOp) : Option DbgAnswer × State :=
  if ¬ s.blockUp then (some (.fault 7), s)
  else if s.opBusy op then (none, s)
  else match op with
    | .rdphy a => s.readPhy a
    | .wrphy a w => s.writePhy a w false
    | .wrcap a d tag => s.physCap a d tag
    | .rdbnk c b ix => s.readBank c b ix
    | .wrbnk c b ix w tag => s.writeBank c b ix w tag
    | .event c => (some (.ok 0 false), s.requestHalt c)

/-- The argument of an operation is illegal: FAULT 2. -/
def DbgOp.illegal (op : DbgOp) : Bool :=
  match op with
  | .wrcap a _ _ => decide (a % 2 = 1)
  | .rdbnk _ b ix => decide (b > 10) || !(decide (ix < 0x18) || bankRegs ix)
  | .wrbnk _ b ix _ _ => decide (b > 10) || !(decide (ix < 0x18) || bankRegs ix)
  | _ => false

/-- The level that an operation needs: 1 OBSERVE, 2 FULL (R519). -/
def DbgOp.need (op : DbgOp) : Nat :=
  match op with
  | .rdphy _ => 1
  | _ => 2

/-- The answer to a packet, with the response data. -/
def State.reply (s : State) (a : DbgAnswer) (data : List Bool := []) : State :=
  { s with dbg := { s.dbg with last := some a, slots := a.bits data } }

def State.setDbgHeld (s : State) (h : Option (DbgOp × Option DbgAnswer)) : State := { s with dbg := { s.dbg with held := h } }

/-- A packet that differs from the held one discards its result, but not its effect (R522). -/
def State.discardHeld (s : State) : State :=
  match s.dbg.held with
  | some (op, none) => { s with dbg := { s.dbg with held := none, owed := s.dbg.owed ++ [op] } }
  | _ => s.setDbgHeld none

/-- A request that is not the held one: the checks of R521, then the access, which is held when it must wait (R522) and
refused below FULL (R534). DEDUCED (R521, R524): code 7 comes before code 1, since the granted level is 0 in block reset. -/
def State.newRequest (s : State) (op : DbgOp) : State :=
  if ¬ s.blockUp then s.reply (.fault 7)
  else if s.debugLevel < op.need then s.reply (.fault 1)
  else if op.illegal then s.reply (.fault 2)
  else match s.dbgPerform op with
    | (some a, s) => s.reply a (op.data a)
    | (none, s) => if s.debugLevel = 2 then (s.setDbgHeld (some (op, none))).reply .wait else s.reply (.fault 4)

/-- A packet of RDPHY, WRPHY, WRCAP, RDBNK, WRBNK or EVENT. -/
def State.dbgRequest (s : State) (op : DbgOp) : State :=
  match s.dbg.held with
  | some (h, r) =>
    if h = op then
      if s.on Reg.DBG_STAT_ATT then
        match r with
        | some a => (s.setDbgHeld none).reply a (op.data a)
        | none => s.reply .wait
      else s.reply (.fault 8)
    else
      let s := s.discardHeld
      if s.on Reg.DBG_STAT_ATT then s.newRequest op else s.reply (.fault 8)
  | none => if s.on Reg.DBG_STAT_ATT then s.newRequest op else s.reply (.fault 8)

/-- DEBUG_HELD_ACCESS (R522): each held request is performed once. -/
def State.heldAccess (s : State) : State :=
  match s.dbg.owed with
  | op :: rest =>
    match s.dbgPerform op with
    | (some _, s) => { s with dbg := { s.dbg with owed := rest } }
    | (none, s) => s
  | [] => match s.dbg.held with
    | some (op, none) => match s.dbgPerform op with
      | (some a, s) => s.setDbgHeld (some (op, some a))
      | (none, s) => s
    | _ => s

/-- STATUS. -/
def State.dbgStatus (s : State) : State :=
  let s := s.discardHeld
  s.reply (.ok s.dbgStat false) (lsbBits s.dbgStat)

/-- RATE. -/
def State.dbgRate (s : State) (code : Nat) : State :=
  let s := s.discardHeld
  if code = 3 then s.reply (.fault 2) else (s.put Reg.DBG_STAT_RATE code).reply (.ok 0 false)

/-- ATTACH with A = 1. -/
def State.dbgAttach (s : State) : State := (s.discardHeld.raise Reg.DBG_STAT_ATT).reply (.ok 0 false)

/-- ATTACH with A = 0 (R517, R533). -/
def State.dbgDetach (s : State) : State :=
  let s := (s.discardHeld.put Reg.DBG_STAT_ATT 0).put Reg.DBG_STAT_RATE 0
  s.endEmulation.reply (.ok 0 false)

/-- OP 9 to 15. -/
def State.dbgIllegal (s : State) : State :=
  let s := s.discardHeld
  s.reply (.fault (if s.on Reg.DBG_STAT_ATT then 2 else 8))

/-- IGNORED_LOW (R515, R520): it ends attachment, and with it every emulation as a detach does (R533; DEDUCED, log entry 73). -/
def State.ignoredLow (s : State) : State := (s.put Reg.DBG_STAT_ATT 0).dropPacket.endEmulation

/-- A packet that gets no answer (R518). -/
def State.noAnswer (s : State) : State := { s.bump Reg.DBG_PKTERR_COUNT with dbg := { s.dbg with last := none, slots := [] } }

/-- A packet whose CRC agrees is carried out; any other gets no answer (R518). -/
def State.packet (s : State) (bits : List Bool) (crc : BitVec 8) (f : State → State) : State :=
  if crc = crc8 bits then f s else s.noAnswer

/-- A packet of an operation of `DbgOp`. -/
def State.opPacket (s : State) (op : DbgOp) (crc : BitVec 8) : State := s.packet op.bits crc (fun s => s.dbgRequest op)

/-- A request whose OP is 9 to 15, or whose length is not that of its OP (R518, R519). -/
def State.oddPacket (s : State) (op : BitVec 4) (args : List Bool) : State :=
  if args.length = opArgs op.toNat then s.dbgIllegal else s.noAnswer

/-- PACKET_TIMEOUT (R517): the packet stays without an answer (R518). -/
def State.packetTimeout (s : State) : State := s.noAnswer

/-- DEBUG_DOMAIN_RESET (R516): attachment ends, and every debug register takes its reset value. -/
def State.debugReset (s : State) (fuse : BitVec 2) : State :=
  let s := s.endEmulation
  let s := { s with ctl := s.ctl.filter (fun e => !debugReg e.1), dbg := { Debug.reset with fuse := fuse, powered := s.dbg.powered } }
  (List.range 256).foldl (fun s c =>
    if (s.cell c).step || (s.cell c).skipBrk then s.modCell c (fun x => { x with step := false, skipBrk := false }) else s) s

/-! ## Debug events (R529-R532) -/

/-- R257, R258: the cell accepts a debug event. -/
def State.acceptsDebug (s : State) (c : Nat) : Bool :=
  let b := s.running c
  let x := s.cell c
  s.live c && !s.dead c && decide (x.cold = 0) && !x.resetDue && !x.hold && !x.win && s.debugDue c &&
    (b = bankIdle || b = bankI || (decide (b < 8) && x.held.isEmpty))

/-- DEBUG_ENTRY (R529): the lowest INFO is recorded; a halt request that is not recorded stays pending. -/
def State.debugEntry (s : State) (c : Nat) : State :=
  if s.acceptsDebug c then
    let b := s.running c
    let info := match (s.cell c).dreq with
      | some i => i.toNat
      | none => 4
    let s := if info = 4 then s.put (Reg.CELL_DCTL_HALT c) 0 else s
    let s := s.disturb c
    let pc := if b = bankIdle then Config.idlePc s.fresh else (s.bank c b).pc
    let s := if b = bankIdle then s.tickFresh else s
    let s := s.setReg (Reg.CELL_DCAUSE_V c).off (setFld (setFld (setFld 0 35 1 1) 4 4 b) 0 4 info)
    let s := s.setReg (Reg.CELL_DPC_PC c).off (pc.setWidth 36)
    let s := s.modCell c (fun x => { x with dFrom := b, dreq := none })
    s.enterBank c bankD 0x1C0
  else s

end Sys2Proof.Machine
end

