-- ==== Sys2Proof/Machine/Scrub.lean ====
section
/-! DEFINITION. Scrub.lean: the scrubbers (11 R320, R321), a master's write of one word, and the faults that reach a cell from
outside the meaning of an instruction (09 R253-R257). -/

namespace Sys2Proof.Machine

open Sys2Proof

/-! ## The scrubbers and the memories they walk -/

/-- The number of a memory's scrubber: its class as R491 numbers macros, and its instance. -/
def scrubCode (m : ScrubMem) : Nat :=
  let slots (cls : Nat) (k : ClusterId) (slot : BitVec 5) : Nat := 512 * cls + 17 * k.toNat + slot.toNat
  match m with
  | .store k slot => slots 0 k slot
  | .storeTags k slot => slots 1 k slot
  | .control k slot => slots 2 k slot
  | .dispatch k slot => slots 3 k slot
  | .icache k slot => slots 4 k slot
  | .dcache k slot => slots 5 k slot
  | .cluster k => 512 * 6 + k.toNat
  | .clusterTags k => 512 * 7 + k.toNat
  | .image => 512 * 8
  | .queues => 512 * 9
  | .firn => 512 * 10
  | .regions => 512 * 11
  | .verifier => 512 * 12

/-- Words of a memory: tags of its doublewords, microwords, dispatch entries, or words. -/
def scrubSize (m : ScrubMem) : Nat :=
  match m with
  | .store _ _ => 16384
  | .storeTags _ _ => 8192
  | .control _ _ => 1024
  | .dispatch _ _ => 1920
  | .icache _ _ => 2048
  | .dcache _ _ => 2048
  | .cluster _ => 262144
  | .clusterTags _ => 131072
  | .image => 1048576
  | .queues => 262144
  | .firn => 4608
  | .regions => 2048
  | .verifier => 8192

/-- The cluster and the slot that hold a memory. -/
def scrubPlace (m : ScrubMem) : Option (Nat × Nat) :=
  match m with
  | .store k slot => some (k.toNat, slot.toNat)
  | .storeTags k slot => some (k.toNat, slot.toNat)
  | .control k slot => some (k.toNat, slot.toNat)
  | .dispatch k slot => some (k.toNat, slot.toNat)
  | .icache k slot => some (k.toNat, slot.toNat)
  | .dcache k slot => some (k.toNat, slot.toNat)
  | .cluster k => some (k.toNat, 0)
  | .clusterTags k => some (k.toNat, 0)
  | .image => none
  | .queues => none
  | .firn => none
  | .regions => none
  | .verifier => none

/-- The scrubber runs: EN, and the power of the cluster that holds its memory. -/
def State.scrubs (s : State) (m : ScrubMem) : Bool :=
  s.on Reg.BLK_SCRCTL_EN && (match scrubPlace m with
    | some (k, slot) => decide (slot ≤ 16) && decide (s.power k ≤ 1)
    | none => true)

/-- A cell store, control store or dispatch table of a Deterministic or Paired cluster, whose scrubber never takes a cycle
(R321). -/
def State.scrubYields (s : State) (m : ScrubMem) : Bool :=
  match m with
  | .store k _ => decide (s.mode k.toNat ≠ 0)
  | .control k _ => decide (s.mode k.toNat ≠ 0)
  | .dispatch k _ => decide (s.mode k.toNat ≠ 0)
  | _ => false

def State.scrubberAt (s : State) (m : ScrubMem) : Scrubber := sget Scrubber.reset (scrubCode m) s.scrubbers
def State.setScrubber (s : State) (m : ScrubMem) (r : Scrubber) : State :=
  { s with scrubbers := sput Scrubber.reset (scrubCode m) r s.scrubbers }

/-! ## One word -/

/-- A word that a scrubber reads: its key (R491), the source that reports it, and its physical address, or its index in a memory
that has none. -/
structure ScrubWord where
  key : Nat
  src : Nat
  addr : Option Nat
  index : Nat
deriving DecidableEq, Repr

/-- The physical address that a report of a cell-store word gives: in the window of the logical cell that the slot holds, otherwise
in the slot view (DESIGN CHOICE, log entry 69). -/
def State.slotAddr (s : State) (k slot w : Nat) : Nat :=
  match s.cellAt k slot with
  | some c => ownStore c w
  | none => storeKey k slot w

/-- The line that a cache holds at a position: set by set, the most recently used way first. -/
def lineAt (ls : List CacheLine) (pos : Nat) : Option CacheLine :=
  (ls.filter (fun l => decide (l.line % 128 = pos / 8 % 128)))[pos / 1024]?

/-- The word of a cell's cache at a position. -/
def State.cacheAt (s : State) (k slot pos : Nat) (pick : Cell → List CacheLine) : Option (Nat × CacheLine) :=
  (s.cellAt k slot).bind fun c => (lineAt (pick (s.cell c)) pos).map fun l => (c, l)

/-- The word at position `pos` of a memory; none where a cache holds no line. -/
def State.scrubWord (s : State) (m : ScrubMem) (pos : Nat) : Option ScrubWord :=
  let phys (k : ClusterId) (slot : BitVec 5) : Nat := 17 * k.toNat + slot.toNat
  let at_ (a : Nat) : Option ScrubWord := some ⟨a, memSource a, some a, 0⟩
  let cache (k : ClusterId) (slot : BitVec 5) (pick : Cell → List CacheLine) (ix : Nat) : Option ScrubWord :=
    (s.cacheAt k.toNat slot.toNat pos pick).map fun q =>
      ⟨hiddenKey 4 (phys k slot) ix, phys k slot, some (8 * q.2.line + pos % 8), 0⟩
  match m with
  | .store k slot => some ⟨storeKey k.toNat slot.toNat pos, phys k slot, some (s.slotAddr k.toNat slot.toNat pos), 0⟩
  | .storeTags k slot =>
    some ⟨storeKey k.toNat slot.toNat (2 * pos), phys k slot, some (s.slotAddr k.toNat slot.toNat (2 * pos)), 0⟩
  | .control k slot => some ⟨hiddenKey 2 (phys k slot) pos, phys k slot, none, pos⟩
  | .dispatch k slot => some ⟨hiddenKey 3 (phys k slot) pos, phys k slot, none, pos⟩
  | .icache k slot => cache k slot Cell.icache pos
  | .dcache k slot => cache k slot Cell.dcache (2048 + pos)
  | .cluster k => at_ (0x2000000 + k.toNat * 0x40000 + pos)
  | .clusterTags k => at_ (0x2000000 + k.toNat * 0x40000 + 2 * pos)
  | .image => at_ (imageBase + pos)
  | .queues => at_ (queueBase + pos)
  | .firn => at_ (firnBase + pos)
  | .regions => at_ (0x20000 + pos)
  | .verifier => some ⟨hiddenKey 11 0 pos, srcVerifier, none, pos⟩

/-- The error that a word holds in store. -/
def State.scrubErr (s : State) (m : ScrubMem) (pos : Nat) (e : ScrubWord) : Option Bool :=
  let find (k : ClusterId) (slot : BitVec 5) (pick : MicroStore → List (Nat × Nat × Bool)) : Option Bool :=
    ((pick (sget MicroStore.empty k.toNat s.ldv.stores)).find? (fun q => decide (q.1 = slot.toNat ∧ q.2.1 = pos))).map fun q => q.2.2
  let cache (k : ClusterId) (slot : BitVec 5) (pick : Cell → List CacheLine) : Option Bool :=
    (s.cacheAt k.toNat slot.toNat pos pick).bind fun q => q.2.errAt (pos % 8)
  match m with
  | .control k slot => find k slot MicroStore.wordErr
  | .dispatch k slot => find k slot MicroStore.dispErr
  | .icache k slot => cache k slot Cell.icache
  | .dcache k slot => cache k slot Cell.dcache
  | .verifier => slookup pos s.ldv.bufErr
  | .storeTags _ _ => none
  | .clusterTags _ => none
  | _ => s.eccAt e.key

/-- The error of an entry of a control store or dispatch table in one slot. -/
def microErr (slot n : Nat) (e : Option Bool) (l : List (Nat × Nat × Bool)) : List (Nat × Nat × Bool) :=
  (match e with
    | some u => [(slot, n, u)]
    | none => []) ++ l.filter (fun q => !decide (q.1 = slot ∧ q.2.1 = n))

def State.setMicroErr (s : State) (k : Nat) (f : MicroStore → MicroStore) : State :=
  { s with ldv := { s.ldv with stores := sput MicroStore.empty k (f (sget MicroStore.empty k s.ldv.stores)) s.ldv.stores } }

/-- An error comes to a list of errors by word, or leaves it. -/
def errPut (i : Nat) (e : Option Bool) (l : List (Nat × Bool)) : List (Nat × Bool) :=
  match e with
  | some u => sinsert i u l
  | none => serase i l

/-- The error that a word holds becomes `e`. -/
def State.setScrubErr (s : State) (m : ScrubMem) (pos : Nat) (e : ScrubWord) (u : Option Bool) : State :=
  let fix (ls : List CacheLine) (l : CacheLine) : List CacheLine :=
    ls.map (fun x => if x.line = l.line then { x with err := errPut (pos % 8) u x.err } else x)
  match m with
  | .control k slot => s.setMicroErr k.toNat (fun x => { x with wordErr := microErr slot.toNat pos u x.wordErr })
  | .dispatch k slot => s.setMicroErr k.toNat (fun x => { x with dispErr := microErr slot.toNat pos u x.dispErr })
  | .icache k slot => match s.cacheAt k.toNat slot.toNat pos Cell.icache with
    | some (c, l) => s.modCell c (fun x => { x with icache := fix x.icache l })
    | none => s
  | .dcache k slot => match s.cacheAt k.toNat slot.toNat pos Cell.dcache with
    | some (c, l) => s.modCell c (fun x => { x with dcache := fix x.dcache l })
    | none => s
  | .verifier => { s with ldv := { s.ldv with bufErr := errPut pos u s.ldv.bufErr } }
  | .storeTags _ _ => s
  | .clusterTags _ => s
  | _ => { s with ecc := errPut e.key u s.ecc }

/-- What the scrubber finds: an error that the word already holds, or what the event brings. -/
def State.scrubFinds (s : State) (m : ScrubMem) (pos : Nat) (e : ScrubWord) (seen : ScrubSeen) : ScrubSeen :=
  match s.scrubErr m pos e with
  | some true => .double
  | some false => if seen = .double then .double else .single
  | none => seen

/-- A message about the word: its address, or its index with AV 0. -/
def State.scrubSend (s : State) (e : ScrubWord) (kind cls : Nat) : State :=
  match e.addr with
  | some a => s.sendAddr e.src kind cls a
  | none => s.sendInfo e.src kind cls e.index

/-- The two copies of a tag differ (R245). -/
def State.splitTag (s : State) (key : Nat) : State :=
  let d := key - key % 2
  if s.tagA.contains d = s.tagB.contains d then { s with tagA := setPut d (!s.tagA.contains d) s.tagA } else s

/-- The memory is a tag array. -/
def scrubTags (m : ScrubMem) : Bool := match m with
  | .storeTags _ _ => true
  | .clusterTags _ => true
  | _ => false

/-- An uncorrectable microword or dispatch entry in the spare, which nothing but its scrubber reads, is a failure event of the spare
(R474 cause 2, R478). -/
def State.spareSpoiled (s : State) (m : ScrubMem) : State :=
  let at_ (k : ClusterId) (slot : BitVec 5) : State :=
    if s.get (Reg.RPR_SP_SLOT k.toNat) = slot.toNat ∧ s.get (Reg.RPR_SP_STATE k.toNat) ≠ 0 ∧ s.runReady then s.retireSpare k.toNat else s
  match m with
  | .control k slot => at_ k slot
  | .dispatch k slot => at_ k slot
  | _ => s

/-- The word at position `pos` is read (R320): a single-bit error is written back corrected and reported, an uncorrectable one
stays and is reported, a tag-copy disagreement ends as R245 says. -/
def State.scrubRead (s : State) (m : ScrubMem) (pos : Nat) (seen : ScrubSeen) : State :=
  match s.scrubWord m pos with
  | none => s
  | some e =>
    if scrubTags m then
      (if seen = .tagsDiffer then s.splitTag e.key else s).tagCheck e.key e.src (e.addr.getD 0)
    else match s.scrubFinds m pos e seen with
      | .single =>
        (((s.setScrubErr m pos e none).bump Reg.BLK_SCRCORR_COUNT).scrubSend e 0x01 clsC).corrected e.key (e.addr.getD e.key) true
      | .double =>
        ((((s.setScrubErr m pos e (some true)).bump Reg.BLK_SCRUNC_COUNT).scrubSend e 0x02 clsU).candidate e.key
          (e.addr.getD e.key)).spareSpoiled m
      | _ => s

/-- The scrubber reads the word at its position and moves on (R320). -/
def State.scrubNext (s : State) (m : ScrubMem) (seen : ScrubSeen) : State :=
  let pos := (s.scrubberAt m).pos
  (s.setScrubber m ⟨(pos + 1) % scrubSize m, 0⟩).scrubRead m pos seen

/-- Yields at which an excepted scrubber reports itself. -/
def starveAt : Nat := 2 ^ 20

/-- A starved scrubber (R321): one message and one count. -/
def State.starve (s : State) (m : ScrubMem) : State :=
  let r := s.scrubberAt m
  let s := s.setScrubber m ⟨r.pos, starveAt⟩
  (match s.scrubWord m r.pos with
    | some e => s.scrubSend e 0x04 clsC
    | none => s).bump Reg.BLK_SCRSTARVE_COUNT

/-- SCRUB (R320, R321): one attempt of a scrubber; `busy` when a foreground access wants the port in this cycle. -/
def State.scrub (s : State) (m : ScrubMem) (seen : ScrubSeen) (busy : Bool) : State :=
  let r := s.scrubberAt m
  if ¬ s.scrubs m then s
  else if ¬ busy then s.scrubNext m seen
  else if s.scrubYields m then
    if r.yields + 1 = starveAt then s.starve m else if starveAt ≤ r.yields then s else s.setScrubber m ⟨r.pos, r.yields + 1⟩
  else if r.yields + 1 ≥ 1024 then (s.scrubNext m seen).bump Reg.BLK_SCRFORCE_COUNT
  else s.setScrubber m ⟨r.pos, r.yields + 1⟩

/-- SCRUBBER_STARVED (R321): the rest of the 2^20 yields has passed. -/
def State.scrubStarved (s : State) (m : ScrubMem) : State :=
  if s.scrubs m && s.scrubYields m && decide ((s.scrubberAt m).yields < starveAt) then s.starve m else s

/-! ## A master's write of one word (R318, R525, R557) -/

/-- A write by the slave port, by the debug domain, or by a cell's store as it drains. -/
def State.masterWrite (s : State) (m : Master) (pa : Nat) (w : Word) (en : BitVec 4) : State :=
  match m with
  | .slave => s.slaveWord pa en (some w)
  | .debug => if s.underTest pa then s else (s.busWrite .debug pa w en false none).2
  | .cell c =>
    if s.underTest pa || seedReg pa then s
    else match s.busWrite (.cell c) pa w en false (some c.toNat) with
      | (.done, s) => s
      | (.retry, s) => s
      | (.error, s) => s.storeError c.toNat pa

/-- The order in which the writes of one fabric cycle are applied (R557): the debug domain, the slave port, the cells by number. -/
def masterRank (m : Master) : Nat := match m with
  | .debug => 0
  | .slave => 1
  | .cell c => 2 + c.toNat

/-- The write that is applied last. -/
def lastWrite (ws : List (Master × Word)) : Option (Master × Word) :=
  ws.foldl (fun best e => match best with
    | some b => if masterRank b.1 ≤ masterRank e.1 then some e else some b
    | none => some e) none

/-- A write that a rule refuses takes no part (R251, R524), nor a slave-port write without credits (R546). -/
def State.mayWrite (s : State) (m : Master) (pa : Nat) : Bool :=
  match m with
  | .debug => decide (pa ≠ 0x8001)
  | .slave => decide (2 ≤ s.slave.credits)
  | .cell _ => decide (pa ≠ 0x8001) && !seedReg pa

/-- Several masters write one register in one fabric cycle (R557): an RW field takes the last write, and the other fields act
on the OR of the bits written 1. The slave port answers its own write also where another is the last. -/
def State.writeTogether (s : State) (pa : Nat) (ws : List (Master × Word)) : State :=
  let ws := ws.filter (fun e => s.mayWrite e.1 pa)
  let soft : Word := match regRow pa with
    | some row => BitVec.ofNat 36 (row.w1c ||| row.w1s ||| row.wo)
    | none => 0
  match lastWrite ws with
  | none => s
  | some (m, v) =>
    let any := ws.foldl (fun a e => a ||| e.2) (0 : Word)
    let t := s.masterWrite m pa ((v &&& ~~~ soft) ||| (any &&& soft)) 0xF
    if m ≠ .slave ∧ ws.any (fun e => decide (e.1 = .slave)) then
      t.answer 0 (if s.underTest pa || s.writeBusy pa then .retry else if s.unitFailed pa then .error else .okay [])
    else t

/-- A unit takes no access: it is under test (R510), or its test has failed and the block is in Hold (R508). -/
def State.shuts (s : State) (pa : Nat) : Bool := s.underTest pa || s.unitFailed pa

/-- A write of a control-space register whose command names no master. -/
def State.written (s : State) (off : Nat) (f : State → State) : State := if s.shuts off then s else (f s).close

/-! ## Faults that reach a cell from outside an instruction's own meaning -/

/-- What the fetch of an instruction gives when the command says how it ends: the fault itself, or a wait for the code. -/
def State.entryFetch (s : State) (c n : Nat) (done : State → State) (is : CellFault → Bool) : State :=
  match s.fetch c n with
  | .ok _ t => done t
  | .flt f t => if is f then t.faultOut c f else s
  | .stall t => (t.wait c).close

/-- A code word of a block memory turns out to be uncorrectable (R192). -/
def State.spoilCode (s : State) (c va : Nat) : State :=
  match s.translate c (s.cur c).dom.toNat va with
  | some p => if s.area p.pa = .fabric then s else s.setEcc (s.key p.pa) true
  | none => s

/-- A microword (INFO 5) or dispatch entry (INFO 6) of the cell's slot turns out to be uncorrectable (R231). -/
def State.spoilMicro (s : State) (c info n : Nat) : State :=
  s.setMicroErr (clusterOf c) (fun x =>
    if info = 5 then { x with wordErr := microErr (s.slotOf c) n (some true) x.wordErr }
    else { x with dispErr := microErr (s.slotOf c) n (some true) x.dispErr })

/-- A synchronous fault that FAULT_ENTRY brings (R253, R254): what the fetched code or its microwords hold. An instruction in
progress is past its fetch. -/
def State.entrySync (s : State) (c code info va : Nat) : State :=
  if ¬ s.canIssue c ∨ (s.cell c).hold = true ∨ (s.cell c).micro.isSome then s
  else if s.breaks c then s.modCell c (fun y => { y with dreq := some 1 })
  else if code = 2 ∨ code = 6 then
    s.entryFetch c 16 (fun _ => s) (fun f => decide (f.code = code ∧ f.info = info ∧ f.va = va))
  else if code = 1 ∧ (info = 1 ∨ info = 2 ∨ info = 3) then
    s.entryFetch c 1 (fun s => s.faultOut c { code := 1, info := info }) (fun _ => true)
  else if code = 7 ∧ info = 2 then
    let t := s.spoilCode c va
    t.entryFetch c 16 (fun _ => t) (fun f => decide (f.code = 7 ∧ f.info = 2 ∧ f.va = va))
  else if code = 7 ∧ (info = 5 ∨ info = 6) then
    s.entryFetch c 1 (fun s =>
      let t := s.spoilMicro c info va
      match t.microRead c info va [(s.slotOf c, va, true)] () with
      | .ok _ t => t
      | .flt f t => t.faultOut c f
      | .stall t => t) (fun _ => true)
  else s

/-- The cell accepts a held asynchronous fault (R257): it runs a level's bank. -/
def State.acceptsHeld (s : State) (c : Nat) : Bool :=
  let x := s.cell c
  s.live c && !s.dead c && decide (s.running c < 8) && decide (x.cold = 0) && !x.resetDue && !x.hold && !x.win && !x.held.isEmpty

/-- FAULT_ENTRY. -/
def State.faultEntry (s : State) (c : Nat) (r : FaultReq) : State :=
  match r with
  | .sync code info va => s.entrySync c code.toNat info.toNat va.toNat
  | .held => if s.acceptsHeld c then (s.takeHeld c).close else s

end Sys2Proof.Machine
end

