-- ==== Sys2Proof/Machine/BlockEvents.lean ====
section
/-! DEFINITION. BlockEvents.lean: the accesses of the slave port and the fabric, and the commands of the load verifier, Thaw, the debug domain, run control,
power, online edit and standby. -/

namespace Sys2Proof.Machine

open Sys2Proof

/-! ## Memory, fabric and register accesses -/

/-- SCRUB (R320, R321). -/
def execScrub (m : ScrubMem) (seen : ScrubSeen) (busy : Bool) (s : State) : Out :=
  .next ((s.scrub m seen busy).close)

/-- SCRUBBER_STARVED (R321). -/
def execScrubberStarved (m : ScrubMem) (s : State) : Out :=
  .next ((s.scrubStarved m).close)

/-- REGION_INSTALL (R306). -/
def execRegionInstall (m : Master) (d : BitVec 6) (r : BitVec 3) (v : Word) (s : State) : Out :=
  .next ((s.masterWrite m (0x20000 + 4 * (8 * d.toNat + r.toNat)) v 0xF).close)

/-- FABRIC_RESPONSE (R315, R317). -/
def execFabricResponse (p : BitVec 2) (tag : BitVec 10) (st : BitVec 2) (data : List Word) (s : State) : Out :=
  .next ((s.fabricResponse p.toNat tag.toNat st.toNat data).close)

/-- RETRY_REISSUE (R317). -/
def execRetryReissue (p : BitVec 2) (tag : BitVec 10) (s : State) : Out :=
  .next ((s.retryReissue p.toNat tag.toNat).close)

/-- FABRIC_TIMEOUT (R317). -/
def execFabricTimeout (p : BitVec 2) (tag : BitVec 10) (s : State) : Out :=
  .next ((s.fabricTimeout p.toNat tag.toNat).close)

/-- CREDIT_RETURN (R313). -/
def execCreditReturn (p : BitVec 2) (s : State) : Out :=
  .next ((s.creditReturn p.toNat).close)

/-- SLAVE_MEMORY_ACCESS (R297, R318). -/
def execSlaveMemoryAccess (tag : BitVec 8) (addr : BitVec 50) (wr : Bool) (beats : List (BitVec 8 × DWord)) (s : State) : Out :=
  .next ((s.slaveAccess tag addr.toNat wr beats).close)

/-- REGISTER_WRITE (R556, R557). -/
def execRegisterWrite (m : Master) (off : BitVec 20) (v : Word) (nonets : BitVec 4) (more : List (Master × Word)) (s : State) : Out :=
  .next ((if more.isEmpty then s.masterWrite m off.toNat v nonets else s.writeTogether off.toNat ((m, v) :: more)).close)

/-- REGISTER_READ_CLEAR (R8, R9): a read through the slave port. -/
def execRegisterReadClear (off : BitVec 20) (s : State) : Out :=
  .next ((s.slaveWord off.toNat 0xF none).close)

/-! ## Load verifier -/

/-- LDV_START (R237). -/
def execLdvStart (target : BitVec 16) (s : State) : Out :=
  .next (s.written 0xA100 (fun s => s.writeLdvCtrl (BitVec.ofNat 36 (4 * target.toNat + 1))))

/-- LDV_ABORT (R237). -/
def execLdvAbort (s : State) : Out :=
  .next (s.written 0xA100 State.ldvCancel)

/-- LDV_DATA (R237). -/
def execLdvData (w : Word) (s : State) : Out :=
  .next (s.written 0xA100 (fun s => s.ldvReceive w))

/-- VERIFY (R238). -/
def execVerify (s : State) : Out :=
  .next (s.ldvVerify.settle)

/-- BROADCAST (R239). -/
def execBroadcast (s : State) : Out :=
  .next (s.ldvWrite.settle)

/-- KEY_DELIVERY (R541). -/
def execKeyDelivery (sel : Bool) (words : List (BitVec 32)) (s : State) : Out :=
  .next (s.keyDelivery sel words)

/-! ## Thaw -/

/-- MCDONE (R505). -/
def execMcdone (s : State) : Out :=
  .next (s.microDone.close)

/-- THAW_START (R499). -/
def execThawStart (s : State) : Out :=
  .next (s.thawStart)

/-- FUSE_WORD (R542). -/
def execFuseWord (w : Word) (s : State) : Out :=
  .next (s.fuseWord w)

/-- FUSE_STREAM_TIMEOUT (R542). -/
def execFuseStreamTimeout (s : State) : Out :=
  .next (s.fuseTimeout.close)

/-- PHASE1_END (R501). -/
def execPhase1End (img : FlashImage) (bad : List MacroId) (spares : List (MacroId × BitVec 4 × BitVec 3)) (s : State) : Out :=
  .next ((s.phase1End img bad (spares.map (fun e => (e.1, e.2.1.toNat, e.2.2.toNat)))).close)

/-- PHASE2_END (R502). -/
def execPhase2End (bad : List MacroId) (spares : List (MacroId × BitVec 4 × BitVec 3)) (irqTables : Bool) (s : State) : Out :=
  .next ((s.phase2End bad (spares.map (fun e => (e.1, e.2.1.toNat, e.2.2.toNat))) irqTables).close)

/-- PHASE3_END (R503, R504). -/
def execPhase3End (slots : List (ClusterId × BitVec 5)) (clusters : List ClusterId) (units : List (BitVec 12)) (s : State) : Out :=
  .next ((s.phase3End (slots.map (fun e => (e.1.toNat, e.2.toNat))) (clusters.map BitVec.toNat) (units.map BitVec.toNat)).close)

/-- PHASE5_END (R506, R507). -/
def execPhase5End (slots : List (ClusterId × BitVec 5 × BitVec 72)) (s : State) : Out :=
  .next ((s.phase5End (slots.map (fun e => (e.1.toNat, e.2.1.toNat, e.2.2.toNat)))).close)

/-- PHASE_TIMEOUT (R499, R505). -/
def execPhaseTimeout (s : State) : Out :=
  .next (s.phaseTimeout.close)

/-! ## Reset and debug domain -/

/-- BLOCK_RESET (R11, R551). -/
def execBlockReset (cause : ResetCause) (s : State) : Out :=
  .next (s.resetBlock (decide (cause = .drst)))

/-- IGNORED_LOW (R515, R520). -/
def execIgnoredLow (s : State) : Out :=
  .next (s.ignoredLow)

/-- PACKET_TIMEOUT (R517). -/
def execPacketTimeout (s : State) : Out :=
  .next (s.packetTimeout)

/-- DEBUG_DOMAIN_RESET (R516). -/
def execDebugDomainReset (fuse : BitVec 2) (s : State) : Out :=
  .next (s.debugReset fuse)

/-- STATUS (R519). -/
def execStatus (crc : BitVec 8) (s : State) : Out :=
  .next ((s.packet (lsbBits 0#4) crc (fun s => s.dbgStatus)).close)

/-- RATE (R519). -/
def execRate (code : BitVec 2) (crc : BitVec 8) (s : State) : Out :=
  .next ((s.packet (lsbBits 1#4 ++ lsbBits code) crc (fun s => s.dbgRate code.toNat)).close)

/-- ATTACH (R520). -/
def execAttach (crc : BitVec 8) (s : State) : Out :=
  .next ((s.packet (lsbBits 2#4 ++ [true]) crc (fun s => s.dbgAttach)).close)

/-- DETACH (R520, R533). -/
def execDetach (crc : BitVec 8) (s : State) : Out :=
  .next ((s.packet (lsbBits 2#4 ++ [false]) crc (fun s => s.dbgDetach)).close)

/-- RDPHY (R525). -/
def execRdphy (addr : BitVec 50) (crc : BitVec 8) (s : State) : Out :=
  .next ((s.opPacket (.rdphy addr.toNat) crc).close)

/-- WRPHY (R525). -/
def execWrphy (addr : BitVec 50) (w : Word) (crc : BitVec 8) (s : State) : Out :=
  .next ((s.opPacket (.wrphy addr.toNat w) crc).close)

/-- WRCAP (R525). -/
def execWrcap (addr : BitVec 50) (d : DWord) (tag : Bool) (crc : BitVec 8) (s : State) : Out :=
  .next ((s.opPacket (.wrcap addr.toNat d tag) crc).close)

/-- RDBNK (R527, R528). -/
def execRdbnk (c : CellId) (bank : BitVec 4) (ix : BitVec 8) (crc : BitVec 8) (s : State) : Out :=
  .next ((s.opPacket (.rdbnk c.toNat bank.toNat ix.toNat) crc).close)

/-- WRBNK (R527, R528). -/
def execWrbnk (c : CellId) (bank : BitVec 4) (ix : BitVec 8) (w : Word) (tag : Bool) (crc : BitVec 8) (s : State) : Out :=
  .next ((s.opPacket (.wrbnk c.toNat bank.toNat ix.toNat w tag) crc).close)

/-- EVENT (R529). -/
def execEvent (c : CellId) (crc : BitVec 8) (s : State) : Out :=
  .next ((s.opPacket (.event c.toNat) crc).close)

/-- DBG_ILLEGAL_OP (R518, R519). -/
def execDbgIllegalOp (op : BitVec 4) (args : List Bool) (crc : BitVec 8) (s : State) : Out :=
  .next ((s.packet (lsbBits op ++ args) crc (fun s => s.oddPacket op args)).close)

/-- DEBUG_HELD_ACCESS (R522). -/
def execDebugHeldAccess (s : State) : Out :=
  .next (s.heldAccess.close)

/-- HALT (R529): a write of CELL_DCTL.HALT. -/
def execHalt (c : CellId) (s : State) : Out :=
  .next (s.written (cellBase c.toNat) (fun s => s.requestHalt c.toNat))

/-! ## Run control and power -/

/-- RUNCTL_STOP (R364). -/
def execRunctlStop (k : ClusterId) (mode : BitVec 2) (s : State) : Out :=
  .next (s.written (cluBase k.toNat) (fun s => s.writeRunCtl k.toNat (BitVec.ofNat 36 (4 * mode.toNat + 1))))

/-- RUNCTL_START (R366). -/
def execRunctlStart (k : ClusterId) (mode : BitVec 2) (s : State) : Out :=
  .next (s.written (cluBase k.toNat) (fun s => s.writeRunCtl k.toNat (BitVec.ofNat 36 (4 * mode.toNat + 2))))

/-- STOPPED_REACHED (R364). -/
def execStoppedReached (k : ClusterId) (s : State) : Out :=
  .next ((s.stoppedReached k.toNat).close)

/-- WRST (R551): CELL_FCTL.WRST of a cell, or CLU_PWRCTL.WRST of a cluster. -/
def execWrst (t : WarmTarget) (s : State) : Out :=
  match t with
  | .cell c => .next (s.written (cellBase c.toNat) (fun s => s.writeCell c.toNat 0x4A 1))
  | .cluster k => .next (s.written (cluBase k.toNat) (fun s => s.warmCluster k.toNat))

/-- RETAIN_REQUEST (R547). -/
def execRetainRequest (k : ClusterId) (dozeen : Bool) (s : State) : Out :=
  .next (s.written (cluBase k.toNat) (fun s => s.writePwrCtl k.toNat (BitVec.ofNat 36 (4 * b2n dozeen + 1))))

/-- OFF_REQUEST (R547). -/
def execOffRequest (k : ClusterId) (dozeen : Bool) (s : State) : Out :=
  .next (s.written (cluBase k.toNat) (fun s => s.writePwrCtl k.toNat (BitVec.ofNat 36 (4 * b2n dozeen + 2))))

/-- WAKE (R26, R547). -/
def execWake (k : ClusterId) (s : State) : Out :=
  .next ((s.wakeCluster k.toNat).close)

/-- RETAIN_ENTRY (R547). -/
def execRetainEntry (k : ClusterId) (s : State) : Out :=
  .next ((s.retainEntry k.toNat).close)

/-- CLUSTER_POWER_UP (R547). -/
def execClusterPowerUp (k : ClusterId) (s : State) : Out :=
  .next ((s.powerUp k.toNat).close)

/-- DOZE_ENTRY (R547). -/
def execDozeEntry (k : ClusterId) (s : State) : Out :=
  .next ((s.dozeEntry k.toNat).close)

/-! ## Online edit and standby -/

/-- EDITSWAP (R356). -/
def execEditswap (c : CellId) (levels : BitVec 8) (s : State) : Out :=
  .next (s.written (cellBase c.toNat) (fun s => s.writeCell c.toNat 0x180 (BitVec.ofNat 36 (4 * levels.toNat + 1))))

/-- EDIT_CANCEL (R360). -/
def execEditCancel (c : CellId) (levels : BitVec 8) (s : State) : Out :=
  .next (s.written (cellBase c.toNat) (fun s => s.writeCell c.toNat 0x180 (BitVec.ofNat 36 (4 * levels.toNat + 2))))

/-- EDIT_TIMEOUT (R357). -/
def execEditTimeout (c : CellId) (s : State) : Out :=
  .next ((s.editTimeout c.toNat).close)

/-- ROLE_ACTIVE (R369, R379). -/
def execRoleActive (pause : Bool) (s : State) : Out :=
  .next (s.written 0x9000 (fun s => s.writeStbyCtrl (BitVec.ofNat 36 (8 * b2n pause + 1))))

/-- ROLE_STANDBY (R369). -/
def execRoleStandby (pause : Bool) (s : State) : Out :=
  .next (s.written 0x9000 (fun s => s.writeStbyCtrl (BitVec.ofNat 36 (8 * b2n pause + 2))))

/-- ROLE_OFF (R369). -/
def execRoleOff (pause : Bool) (s : State) : Out :=
  .next (s.written 0x9000 (fun s => s.writeStbyCtrl (BitVec.ofNat 36 (8 * b2n pause))))

/-- STBY_SYNC (R374). -/
def execStbySync (s : State) : Out :=
  .next (s.written 0x9000 State.syncLines)

/-- FRAME_RECORD (R369). -/
def execFrameRecord (frame : DWord) (agrees : Bool) (err : Bool) (s : State) : Out :=
  .next ((if err then s.loseBeat else s.frameRecord frame.toNat agrees).settle)

/-- INPUT_RECORD (R376). -/
def execInputRecord (first : BitVec 17) (words : List Word) (err : Bool) (s : State) : Out :=
  .next ((if err then s.loseBeat else s.inputRecord first.toNat words).settle)

/-- LINE_RECORD (R376). -/
def execLineRecord (line : BitVec 22) (words : List Word) (err : Bool) (s : State) : Out :=
  .next ((if err then s.loseBeat else s.lineRecord line.toNat words).settle)

/-- EDIT_RECORD (R376). -/
def execEditRecord (c : CellId) (tag : Word) (err : Bool) (s : State) : Out :=
  .next ((if err then s.loseBeat else s.editRecord c.toNat tag).settle)

/-- HEARTBEAT (R377, R378). -/
def execHeartbeat (pause incomplete : Bool) (lines : Word) (crc : BitVec 32) (synced err : Bool) (s : State) : Out :=
  .next (((if err then s.loseBeat else s).heartbeat pause incomplete lines crc.toNat synced).settle)

end Sys2Proof.Machine
end

