-- ==== Sys2Proof/Machine/CellEvents.lean ====
section
/-! DEFINITION. CellEvents.lean: the commands of the frame clock, Rime, the distributor and the scheduler, and what reaches a cell. -/

namespace Sys2Proof.Machine

open Sys2Proof

/-! ## Pipeline, store buffer, handlers -/

/-- LOAD_DATA_RETURN (R191, R192). -/
def execLoadDataReturn (c : CellId) (s : State) : Out :=
  .next ((s.loadReturn c.toNat).close)

/-- STORE_BUFFER_DRAIN (R201-R206). -/
def execStoreBufferDrain (c : CellId) (s : State) : Out :=
  .next ((s.drainHead c.toNat).close)

/-- BACKGROUND_SPILL_FILL (R110-R112). -/
def execBackgroundSpillFill (c : CellId) (ret : Bool) (s : State) : Out :=
  .next ((s.background c.toNat ret).close)

/-- CELL_CHECK_ERROR (R474, R478). -/
def execCellCheckError (k : ClusterId) (slot : BitVec 5) (s : State) : Out :=
  .next ((s.checkError k.toNat slot.toNat).close)

/-- FAULT_ENTRY (R256, R257). -/
def execFaultEntry (c : CellId) (r : FaultReq) (s : State) : Out :=
  .next (s.faultEntry c.toNat r)

/-- INTERRUPT_ENTRY (R388-R391). -/
def execInterruptEntry (c : CellId) (s : State) : Out :=
  .next ((s.interruptEntry c.toNat).close)

/-- SCHEDULER_SWITCH (R286, R290). -/
def execSchedulerSwitch (c : CellId) (s : State) : Out :=
  .next ((s.schedulerSwitch c.toNat).close)

/-- DEBUG_ENTRY (R529). -/
def execDebugEntry (c : CellId) (s : State) : Out :=
  .next ((s.debugEntry c.toNat).close)

/-! ## Frame clock -/

/-- TICK (R18). -/
def execTick (s : State) : Out :=
  .next (s.tick)

/-- LEVEL0_DEADLINE (R50, R52). -/
def execLevel0Deadline (s : State) : Out :=
  .next (s.deadline.close)

/-- CYCLE_BUDGET_EXCEEDED (R49). -/
def execCycleBudgetExceeded (c : CellId) (n : LevelId) (s : State) : Out :=
  .next ((s.budgetExceeded c.toNat n.toNat).close)

/-- HOLDOVER (R33). -/
def execHoldover (s : State) : Out :=
  .next (s.holdover.settle)

/-- TIME_UPDATE (R30-R33). -/
def execTimeUpdate (tai : BitVec 80) (cycles : BitVec 36) (s : State) : Out :=
  .next ((s.timeUpdate tai.toNat cycles.toNat).settle)

/-- PPS_EDGE (R540). -/
def execPpsEdge (off : BitVec 32) (s : State) : Out :=
  .next ((s.ppsEdge off.toNat).settle)

/-- TIME_LOCK_CHANGE (R30, R540). -/
def execTimeLockChange (tpLock : Bool) (s : State) : Out :=
  .next ((s.timeLock tpLock).settle)

/-- FRAME_CLOCK_START (R39, R40): a write of FRM_CTRL with EN 1. -/
def execFrameClockStart (slew : BitVec 2) (s : State) : Out :=
  .next (s.written 0x1000 (fun s => s.writeFrmCtrl (BitVec.ofNat 36 (1 + 2 * slew.toNat))))

/-- FRAME_CLOCK_STOP (R42): a write of FRM_CTRL with EN 0. -/
def execFrameClockStop (slew : BitVec 2) (s : State) : Out :=
  .next (s.written 0x1000 (fun s => s.writeFrmCtrl (BitVec.ofNat 36 (2 * slew.toNat))))

/-! ## Rime -/

/-- INGRESS_ENTRY (R332-R335). -/
def execIngressEntry (src : BitVec 6) (s : State) : Out :=
  .next ((s.ingressEntry src.toNat).close)

/-- DEBOUNCE_CHANGE (R344, R347). -/
def execDebounceChange (inp : BitVec 6) (sample : Bool) (stamp : BitVec 80) (s : State) : Out :=
  .next ((s.heard (fun s => s.debounceChange inp.toNat sample stamp.toNat)).settle)

/-- EGRESS_PUBLICATION (R349, R350). -/
def execEgressPublication (s : State) : Out :=
  .next (s.egressPublish.close)

/-! ## Interrupt distributor -/

/-- IRQ_ASSERT (R382). -/
def execIrqAssert (src : BitVec 12) (s : State) : Out :=
  .next (s.written 0x12000 (fun s => s.irqAssert src.toNat))

/-- IRQ_DEASSERT (R382). -/
def execIrqDeassert (src : BitVec 12) (s : State) : Out :=
  .next (s.written 0x12000 (fun s => s.irqDeassert src.toNat))

/-- IRQ_PULSE (R382). -/
def execIrqPulse (src : BitVec 12) (s : State) : Out :=
  .next (s.written 0x12000 (fun s => s.irqPulse src.toNat))

/-- IRQ_PENDSET (R385). -/
def execIrqPendset (src : BitVec 12) (s : State) : Out :=
  .next (s.written 0x12000 (fun s => s.irqPendset src.toNat))

/-- IRQ_PENDCLR (R385). -/
def execIrqPendclr (src : BitVec 12) (s : State) : Out :=
  .next (s.written 0x12000 (fun s => s.irqPendclr src.toNat))

/-! ## Scheduler -/

/-- POST_ARRIVAL (R280). -/
def execPostArrival (from_ target : CellId) (n : LevelId) (s : State) : Out :=
  .next ((s.postArrival from_.toNat target.toNat n.toNat).close)

/-- DOORBELL (R281, R407). -/
def execDoorbell (target : CellId) (n : LevelId) (s : State) : Out :=
  .next ((s.doorbellArrival target.toNat n.toNat).close)

/-- TIMER_EXPIRY (R282). -/
def execTimerExpiry (c : CellId) (n : LevelId) (s : State) : Out :=
  .next ((s.timerExpiry c.toNat n.toNat).close)

/-- LEVEL_ENABLE (R275): a write of CELL_LCFGn with EN 1. -/
def execLevelEnable (c : CellId) (n : LevelId) (v : Word) (s : State) : Out :=
  .next (s.written (cellBase c.toNat + 0x120) (fun s => s.writeCell c.toNat (0x120 + n.toNat) (setFld v 35 1 1)))

/-- LEVEL_DISABLE (R288): a write of CELL_LCFGn with EN 0. -/
def execLevelDisable (c : CellId) (n : LevelId) (v : Word) (s : State) : Out :=
  .next (s.written (cellBase c.toNat + 0x120) (fun s => s.writeCell c.toNat (0x120 + n.toNat) (setFld v 35 1 0)))

/-- LOADING_END (R275, R278). -/
def execLoadingEnd (c : CellId) (n : LevelId) (s : State) : Out :=
  .next ((s.loadingEnd c.toNat n.toNat).close)

/-- STAGING_READY (R291). -/
def execStagingReady (c : CellId) (s : State) : Out :=
  .next ((s.stagingReady c.toNat).close)

end Sys2Proof.Machine
end

