-- ==== Sys2Proof/Machine/ControlInstr.lean ====
section
/-! DEFINITION. ControlInstr.lean: the control-flow, system, scheduling and queue instructions, over the operations of
Control.lean. -/

namespace Sys2Proof.Machine

open Sys2Proof

/-- BR (R176). -/
def execBr (c : CellId) (x : Enc) (s : State) : Out :=
  .next ((s.decode c.toNat 0o400).runInstr c.toNat x { leapForm ext16 6 with branch := true } (State.branchStep c.toNat x false))

/-- BRI (R176). -/
def execBri (c : CellId) (x : Enc) (s : State) : Out :=
  .next ((s.decode c.toNat 0o401).runInstr c.toNat x { leapForm [0] 6 with pops := 1 } (State.indirectStep c.toNat x false))

/-- CALL (R115, R176). -/
def execCall (c : CellId) (x : Enc) (s : State) : Out :=
  .next ((s.decode c.toNat 0o402).runInstr c.toNat x { leapForm ext16 6 with rpushes := 1, branch := true }
    (State.branchStep c.toNat x true))

/-- CALLI (R176). -/
def execCalli (c : CellId) (x : Enc) (s : State) : Out :=
  .next ((s.decode c.toNat 0o403).runInstr c.toNat x { leapForm [0] 6 with pops := 1, rpushes := 1 } (State.indirectStep c.toNat x true))

/-- RET (R115, R176). -/
def execRet (c : CellId) (x : Enc) (s : State) : Out :=
  .next ((s.decode c.toNat 0o404).runInstr c.toNat x { leapForm [0] 6 with rpops := 1 } (State.retStep c.toNat))

/-- SYS (R267). -/
def execSys (c : CellId) (x : Enc) (n : BitVec 3) (s : State) : Out :=
  .next ((s.decode c.toNat (0o420 + n.toNat)).runInstr c.toNat x (leapForm [0] 6) (State.sysStep c.toNat x n.toNat))

/-- RETS (R268). -/
def execRets (c : CellId) (x : Enc) (s : State) : Out :=
  .next ((s.decode c.toNat 0o405).runInstr c.toNat x (leapForm [0] 6) (State.retsStep c.toNat))

/-- IRET (R263). -/
def execIret (c : CellId) (x : Enc) (s : State) : Out :=
  .next ((s.decode c.toNat 0o406).runInstr c.toNat x (leapForm [0] 8) (State.iretStep c.toNat))

/-- FRET (R263). -/
def execFret (c : CellId) (x : Enc) (s : State) : Out :=
  .next ((s.decode c.toNat 0o407).runInstr c.toNat x (leapForm [0] 8) (State.fretStep c.toNat))

/-- DRET (R263). -/
def execDret (c : CellId) (x : Enc) (s : State) : Out :=
  .next ((s.decode c.toNat 0o410).runInstr c.toNat x (leapForm [0] 8) (State.dretStep c.toNat))

/-- FEND (R180, R284). -/
def execFend (c : CellId) (x : Enc) (s : State) : Out :=
  .next (((s.decode c.toNat 0o411).runInstr c.toNat x (jumpForm [0] 8) (State.fendStep c.toNat x)).close)

/-- WAIT (R180, R285). -/
def execWait (c : CellId) (x : Enc) (s : State) : Out :=
  .next ((s.decode c.toNat 0o412).runInstr c.toNat x { jumpForm [0] 8 with pushes := 1 } (State.waitStep c.toNat x))

/-- POST (R180, R280). -/
def execPost (c : CellId) (x : Enc) (s : State) : Out :=
  .next ((s.decode c.toNat 0o413).runInstr c.toNat x { jumpForm [0] 2 with pops := 1 } (State.postStep c.toNat))

/-- YIELD (R180, R284). -/
def execYield (c : CellId) (x : Enc) (s : State) : Out :=
  .next ((s.decode c.toNat 0o414).runInstr c.toNat x (jumpForm [0] 8) (State.yieldStep c.toNat x))

/-- ENQ (R174). -/
def execEnq (c : CellId) (x : Enc) (a : BitVec 2) (s : State) : Out :=
  .next (((s.decode c.toNat (0o510 + a.toNat)).runInstr c.toNat x { leapForm [0] 20 with pops := 1, pushes := 1 } (State.enqStep c.toNat a)).close)

/-- DEQ (R174). -/
def execDeq (c : CellId) (x : Enc) (a : BitVec 2) (s : State) : Out :=
  .next (((s.decode c.toNat (0o514 + a.toNat)).runInstr c.toNat x { leapForm [0] 20 with pops := 1, pushes := 1 } (State.deqStep c.toNat a)).close)

end Sys2Proof.Machine
end

