-- ==== Sys2Proof/Machine/Point.lean ====
section
/-! DEFINITION. Point.lean: point logic, point arithmetic with IEEE 754 binary32, comparisons and quality tests
(03 R63-R83, 05 R143-R149). -/

namespace Sys2Proof.Machine

open Sys2Proof

/-! ## Lanes (R68-R76) -/

/-- A point-logic instruction on `n` operands (R143); the lanes come S0 first. -/
def State.laneOp (s : State) (c : Nat) (x : Enc) (n : Nat) (scalar : Bool) (g : List Nat → Nat) : State :=
  s.calc c x { pops := n, pushes := 1 } (fun ws k => .ok [lanesOf scalar g ws] k)

/-! ## Point words (R63, R80, R81) -/

/-- Integer point arithmetic (R145): the operands come S0 first. -/
def State.pointInt (s : State) (c : Nat) (x : Enc) (n cyc : Nat) (g : List Int → Int) : State :=
  s.calc c x { op := 2, sat := true, cyc := cyc, pops := n, pushes := 1 } (fun ws k =>
    match narrow k x.sat (signedLo 32) (signedHi 32) 32 (g (ws.map pwInt)) with
    | some r => .ok [pwResult (wrapNat r.value 32) ws (if r.past then questionable else good)] r.bank
    | none => .flt 4 1)

/-- PDIV.I (R131, R145). -/
def State.pointDiv (s : State) (c : Nat) (x : Enc) : State :=
  s.calc c x { op := 2, sat := true, cyc := 40, fixed := true, pops := 2, pushes := 1 } (fun ws k =>
    match Machine.divide k x.sat (signedLo 32) (signedHi 32) 32 (pwInt (ws.getD 1 0)) (pwInt (ws.getD 0 0)) with
    | .zero => .flt 3 1
    | .past => .flt 4 1
    | .ok q k dz ov => .ok [pwResult (wrapNat q 32) ws (if dz then invalid else if ov then questionable else good)] k)

/-! ## Binary32 (R146) -/

/-- Binary32 arithmetic; the operands come S0 first. -/
def State.pointFloat (s : State) (c : Nat) (x : Enc) (n cyc : Nat) (g : List Word → Nat) : State :=
  s.calc c x { op := 2, cyc := cyc, pops := n, pushes := 1 } (fun ws k => .ok [pwResult (g ws) ws (floatLeast (g ws) ws)] k)

/-- PDIV.F (R131, R146). -/
def State.floatDiv (s : State) (c : Nat) (x : Enc) : State :=
  s.calc c x { op := 2, cyc := 30, fixed := true, pops := 2, pushes := 1 } (fun ws k =>
    let a := pwBits (ws.getD 1 0)
    let b := pwBits (ws.getD 0 0)
    if b % 2 ^ 31 = 0 then
      if k.dze then .flt 3 2 else .ok [pwResult (if a / 2 ^ 31 = 1 then 0xFF7FFFFF else 0x7F7FFFFF) ws invalid] k.setDz
    else .ok [pwResult (f32Div (f32Of a) (f32Of b)) ws (floatLeast (f32Div (f32Of a) (f32Of b)) ws)] k)

/-- PCVTFI (R147). -/
def State.floatToInt (s : State) (c : Nat) (x : Enc) : State :=
  s.calc c x { op := 2, cyc := 3, pops := 1, pushes := 1 } (fun ws k =>
    let take (v : Int) : Calc := match narrow k true (signedLo 32) (signedHi 32) 32 v with
      | some r => .ok [pwResult (wrapNat r.value 32) ws (if r.past then questionable else good)] r.bank
      | none => .flt 4 2
    match pwFloat (ws.getD 0 0) with
    | .nan => .ok [pwResult 0 ws invalid] k
    | .inf n => take (if n then -(2 ^ 40 : Nat) else (2 ^ 40 : Nat))
    | .fin n m e => take (f32ToInt n m e))

/-! ## Comparisons and quality tests (R149) -/

def State.pointCompare (s : State) (c : Nat) (x : Enc) (n : BitVec 3) (op : Word → Word → Bool) : State :=
  s.calc c x { op := 2, pops := 2, pred := predOf n } (fun ws k =>
    .ok [] (k.setPred n (op (ws.getD 1 0) (ws.getD 0 0))))

/-- A quality test leaves its operand on the stack. -/
def State.qualityTest (s : State) (c : Nat) (x : Enc) (n : BitVec 3) (op : Word → Bool) : State :=
  s.runInstr c x { op := 2, pops := 1, pushes := 1, pred := predOf n }
    (State.calcStep c [0] 0 (fun ws k => .ok [] (k.setPred n (op (ws.getD 0 0)))))

/-! ## The instructions -/

/-- BAND (R143). -/
def execBand (c : CellId) (x : Enc) (s : State) : Out :=
  .next ((s.decode c.toNat 0o261).laneOp c.toNat x 2 false (fun l => bandLane (l.getD 1 0) (l.getD 0 0)))

/-- BANDS (R143): lane 0 alone. -/
def execBands (c : CellId) (x : Enc) (s : State) : Out :=
  .next ((s.decode c.toNat 0o265).laneOp c.toNat x 2 true (fun l => bandLane (l.getD 1 0) (l.getD 0 0)))

/-- BOR (R143). -/
def execBor (c : CellId) (x : Enc) (s : State) : Out :=
  .next ((s.decode c.toNat 0o262).laneOp c.toNat x 2 false (fun l => borLane (l.getD 1 0) (l.getD 0 0)))

/-- BORS (R143): lane 0 alone. -/
def execBors (c : CellId) (x : Enc) (s : State) : Out :=
  .next ((s.decode c.toNat 0o266).laneOp c.toNat x 2 true (fun l => borLane (l.getD 1 0) (l.getD 0 0)))

/-- BXOR (R143). -/
def execBxor (c : CellId) (x : Enc) (s : State) : Out :=
  .next ((s.decode c.toNat 0o263).laneOp c.toNat x 2 false (fun l => bxorLane (l.getD 1 0) (l.getD 0 0)))

/-- BXORS (R143): lane 0 alone. -/
def execBxors (c : CellId) (x : Enc) (s : State) : Out :=
  .next ((s.decode c.toNat 0o267).laneOp c.toNat x 2 true (fun l => bxorLane (l.getD 1 0) (l.getD 0 0)))

/-- BNOT (R143). -/
def execBnot (c : CellId) (x : Enc) (s : State) : Out :=
  .next ((s.decode c.toNat 0o264).laneOp c.toNat x 1 false (fun l => bnotLane (l.getD 0 0)))

/-- BNOTS (R143): lane 0 alone. -/
def execBnots (c : CellId) (x : Enc) (s : State) : Out :=
  .next ((s.decode c.toNat 0o270).laneOp c.toNat x 1 true (fun l => bnotLane (l.getD 0 0)))

/-- RISE (R77, R143): ( x p -- r ). -/
def execRise (c : CellId) (x : Enc) (s : State) : Out :=
  .next ((s.decode c.toNat 0o271).laneOp c.toNat x 2 false (fun l => bandLane (l.getD 1 0) (bnotLane (l.getD 0 0))))

/-- FALL (R77, R143): ( x p -- r ). -/
def execFall (c : CellId) (x : Enc) (s : State) : Out :=
  .next ((s.decode c.toNat 0o272).laneOp c.toNat x 2 false (fun l => bandLane (bnotLane (l.getD 1 0)) (l.getD 0 0)))

/-- SETP (R78, R143): ( q s r -- q' ). -/
def execSetp (c : CellId) (x : Enc) (s : State) : Out :=
  .next ((s.decode c.toNat 0o273).laneOp c.toNat x 3 false (fun l => borLane (l.getD 1 0) (bandLane (l.getD 2 0) (bnotLane (l.getD 0 0)))))

/-- RSTP (R78, R143): ( q s r -- q' ). -/
def execRstp (c : CellId) (x : Enc) (s : State) : Out :=
  .next ((s.decode c.toNat 0o274).laneOp c.toNat x 3 false (fun l => bandLane (bnotLane (l.getD 0 0)) (borLane (l.getD 1 0) (l.getD 2 0))))

/-- PADD.I (R145). -/
def execPaddI (c : CellId) (x : Enc) (s : State) : Out :=
  .next ((s.decode c.toNat (384 + 0o20)).pointInt c.toNat x 2 1 (fun v => v.getD 1 0 + v.getD 0 0))

/-- PSUB.I (R145). -/
def execPsubI (c : CellId) (x : Enc) (s : State) : Out :=
  .next ((s.decode c.toNat (384 + 0o21)).pointInt c.toNat x 2 1 (fun v => v.getD 1 0 - v.getD 0 0))

/-- PMUL.I (R145). -/
def execPmulI (c : CellId) (x : Enc) (s : State) : Out :=
  .next ((s.decode c.toNat (384 + 0o22)).pointInt c.toNat x 2 2 (fun v => v.getD 1 0 * v.getD 0 0))

/-- PDIV.I (R145). -/
def execPdivI (c : CellId) (x : Enc) (s : State) : Out :=
  .next ((s.decode c.toNat (384 + 0o23)).pointDiv c.toNat x)

/-- PNEG.I (R145). -/
def execPnegI (c : CellId) (x : Enc) (s : State) : Out :=
  .next ((s.decode c.toNat (384 + 0o24)).pointInt c.toNat x 1 1 (fun v => -v.getD 0 0))

/-- PADD.F (R145, R146). -/
def execPaddF (c : CellId) (x : Enc) (s : State) : Out :=
  .next ((s.decode c.toNat (384 + 0o30)).pointFloat c.toNat x 2 3 (fun ws => f32Add (pwFloat (ws.getD 1 0)) (pwFloat (ws.getD 0 0))))

/-- PSUB.F (R145, R146). -/
def execPsubF (c : CellId) (x : Enc) (s : State) : Out :=
  .next ((s.decode c.toNat (384 + 0o31)).pointFloat c.toNat x 2 3 (fun ws => f32Add (pwFloat (ws.getD 1 0)) (pwFloat (ws.getD 0 0)).neg?))

/-- PMUL.F (R145, R146). -/
def execPmulF (c : CellId) (x : Enc) (s : State) : Out :=
  .next ((s.decode c.toNat (384 + 0o32)).pointFloat c.toNat x 2 3 (fun ws => f32Mul (pwFloat (ws.getD 1 0)) (pwFloat (ws.getD 0 0))))

/-- PDIV.F (R131, R146). -/
def execPdivF (c : CellId) (x : Enc) (s : State) : Out :=
  .next ((s.decode c.toNat (384 + 0o33)).floatDiv c.toNat x)

/-- PNEG.F (R145): bit 31 inverted, whatever the operand (DEDUCED). -/
def execPnegF (c : CellId) (x : Enc) (s : State) : Out :=
  .next ((s.decode c.toNat (384 + 0o34)).pointFloat c.toNat x 1 1 (fun ws => pwBits (ws.getD 0 0) ^^^ 0x80000000))

/-- PCVTIF (R147). -/
def execPcvtif (c : CellId) (x : Enc) (s : State) : Out :=
  .next ((s.decode c.toNat (384 + 0o40)).pointFloat c.toNat x 1 3 (fun ws => f32Round (decide (pwInt (ws.getD 0 0) < 0)) (pwInt (ws.getD 0 0)).natAbs 0 false))

/-- PCVTFI (R147). -/
def execPcvtfi (c : CellId) (x : Enc) (s : State) : Out :=
  .next ((s.decode c.toNat (384 + 0o41)).floatToInt c.toNat x)

/-- PQMRG (R148). -/
def execPqmrg (c : CellId) (x : Enc) (s : State) : Out :=
  .next ((s.decode c.toNat (384 + 0o42)).calc c.toNat x { op := 2, pops := 2, pushes := 1 } (fun ws k => .ok [pwResult (pwBits (ws.getD 1 0)) ws good] k))

/-- PCEQ.I (R149). -/
def execPceqI (c : CellId) (x : Enc) (p : BitVec 3) (s : State) : Out :=
  .next ((s.decode c.toNat (384 + 0o100 + p.toNat)).pointCompare c.toNat x p (fun a b => decide (pwInt a = pwInt b)))

/-- PCLT.I (R149). -/
def execPcltI (c : CellId) (x : Enc) (p : BitVec 3) (s : State) : Out :=
  .next ((s.decode c.toNat (384 + 0o110 + p.toNat)).pointCompare c.toNat x p (fun a b => decide (pwInt a < pwInt b)))

/-- PCEQ.F (R149). -/
def execPceqF (c : CellId) (x : Enc) (p : BitVec 3) (s : State) : Out :=
  .next ((s.decode c.toNat (384 + 0o120 + p.toNat)).pointCompare c.toNat x p (fun a b => f32Eq (pwFloat a) (pwFloat b)))

/-- PCLT.F (R149). -/
def execPcltF (c : CellId) (x : Enc) (p : BitVec 3) (s : State) : Out :=
  .next ((s.decode c.toNat (384 + 0o130 + p.toNat)).pointCompare c.toNat x p (fun a b => f32Less (pwFloat a) (pwFloat b)))

/-- QGD (R149). -/
def execQgd (c : CellId) (x : Enc) (p : BitVec 3) (s : State) : Out :=
  .next ((s.decode c.toNat (384 + 0o140 + p.toNat)).qualityTest c.toNat x p (fun a => decide (pwVal a = 0)))

/-- QIV (R149). -/
def execQiv (c : CellId) (x : Enc) (p : BitVec 3) (s : State) : Out :=
  .next ((s.decode c.toNat (384 + 0o150 + p.toNat)).qualityTest c.toNat x p (fun a => decide (rank (pwVal a) = 2)))

/-- QTS (R149). -/
def execQts (c : CellId) (x : Enc) (p : BitVec 3) (s : State) : Out :=
  .next ((s.decode c.toNat (384 + 0o160 + p.toNat)).qualityTest c.toNat x p (fun a => bit a 33))

/-- QSB (R149). -/
def execQsb (c : CellId) (x : Enc) (p : BitVec 3) (s : State) : Out :=
  .next ((s.decode c.toNat (384 + 0o170 + p.toNat)).qualityTest c.toNat x p (fun a => bit a 32))

/-- BQG (R149). -/
def execBqg (c : CellId) (x : Enc) (p : BitVec 3) (s : State) : Out :=
  .next ((s.decode c.toNat (384 + 0o200 + p.toNat)).qualityTest c.toNat x p (fun a => decide (laneVal (lane a 0) = 0)))

/-- BQT (R149). -/
def execBqt (c : CellId) (x : Enc) (p : BitVec 3) (s : State) : Out :=
  .next ((s.decode c.toNat (384 + 0o210 + p.toNat)).qualityTest c.toNat x p (fun a => bit a 3))


end Sys2Proof.Machine
end

