-- ==== Sys2Proof/Machine/Transfer.lean ====
section
/-! DEFINITION. Transfer.lean: the loads and stores, capability, move, image, synchronisation, SAVEM and LOADM and
function-block instructions, over the operations of Store.lean. -/

namespace Sys2Proof.Machine

open Sys2Proof

/-! ## Dispatch indices of the addressing modes (R163, R164) -/

/-- A nonet form that the tables do not list has no opcode; fault 1 meets it before any index is used. -/
def ldIndex (m : AddrMode) : Nat := match m with
  | .tos n => 0o300 + n.toNat
  | .ptr n => 0o304 + n.toNat
  | .postInc n => 0o310 + n.toNat
  | .preDec n => 0o314 + n.toNat
  | .indexed sc n => 1152 + 4 * sc.toNat + n.toNat
  | .disp n => 1152 + 0o040 + n.toNat
def stIndex (m : AddrMode) : Nat := match m with
  | .tos n => 0o320 + n.toNat
  | .ptr n => 0o324 + n.toNat
  | .postInc n => 0o330 + n.toNat
  | .preDec n => 0o334 + n.toNat
  | .indexed sc n => 1152 + 0o020 + 4 * sc.toNat + n.toNat
  | .disp n => 1152 + 0o044 + n.toNat
def ldnIndex (m : AddrMode) : Nat := match m with
  | .tos n => 0o340 + n.toNat
  | .ptr n => 0o344 + n.toNat
  | .disp n => 1152 + 0o050 + n.toNat
  | _ => 0
def stnIndex (m : AddrMode) : Nat := match m with
  | .tos n => 0o350 + n.toNat
  | .ptr n => 0o354 + n.toNat
  | .disp n => 1152 + 0o054 + n.toNat
  | _ => 0

/-! ## Shapes -/

def State.load (s : State) (c : Nat) (x : Enc) (m : AddrMode) (nonetForm : Bool) : State :=
  s.runInstr c x (loadForm x m nonetForm) (State.loadStep c x m nonetForm)

def State.store (s : State) (c : Nat) (x : Enc) (m : AddrMode) (nonetForm : Bool) : State :=
  s.runInstr c x (storeForm x m nonetForm) (State.storeStep c x m nonetForm)

/-- A move between bank registers and the stack (R168). -/
def State.move (s : State) (c : Nat) (x : Enc) (n m : Nat) (rc : Bool) (g : List Word → Bank → List Word × Bank) : State :=
  s.calc c x { op := 2, rep := false, rc := rc, pops := n, pushes := m } (fun ws k => .ok (g ws k).1 (g ws k).2)

/-- An image load (R170). -/
def State.imageRd (s : State) (c : Nat) (x : Enc) (bits : Bool) (view : State → Nat → Word) : State :=
  s.runInstr c x { load := true, cyc := 6, pops := 1, pushes := 1 } (State.imageLoad c bits view)

/-! ## The instructions -/

/-- LD (R163, R164). -/
def execLd (c : CellId) (x : Enc) (m : AddrMode) (s : State) : Out :=
  .next (((s.decode c.toNat (ldIndex m)).load c.toNat x m false).close)

/-- ST (R163, R164). -/
def execSt (c : CellId) (x : Enc) (m : AddrMode) (s : State) : Out :=
  .next (((s.decode c.toNat (stIndex m)).store c.toNat x m false).close)

/-- LDN (R160). -/
def execLdn (c : CellId) (x : Enc) (m : AddrMode) (s : State) : Out :=
  .next (((s.decode c.toNat (ldnIndex m)).load c.toNat x m true).close)

/-- STN (R160). -/
def execStn (c : CellId) (x : Enc) (m : AddrMode) (s : State) : Out :=
  .next (((s.decode c.toNat (stnIndex m)).store c.toNat x m true).close)

/-- CLD (R166). -/
def execCld (c : CellId) (x : Enc) (d : BitVec 2) (a : BitVec 2) (s : State) : Out :=
  .next (((s.decode c.toNat (1152 + 0o60 + 4 * d.toNat + a.toNat)).runInstr c.toNat x { op := 2, exts := [0, 1, 2, 3, 4, 5, 6], rep := false } (State.cldStep c.toNat x d a)).close)

/-- CST (R166). -/
def execCst (c : CellId) (x : Enc) (d : BitVec 2) (a : BitVec 2) (s : State) : Out :=
  .next (((s.decode c.toNat (1152 + 0o100 + 4 * d.toNat + a.toNat)).runInstr c.toNat x { op := 2, exts := [0, 1, 2, 3, 4, 5, 6], rep := false } (State.cstStep c.toNat x d a)).close)

/-- CNARROW (R166): ( b l -- ). -/
def execCnarrow (c : CellId) (x : Enc) (a : BitVec 2) (s : State) : Out :=
  .next ((s.decode c.toNat (0o520 + a.toNat)).runInstr c.toNat x { rep := false, pops := 2 }
    (State.capStep c.toNat 2 a (fun k ws => narrowCap (k.cap a) (ws.getD 1 0) (ws.getD 0 0))))

/-- CPERM (R166). -/
def execCperm (c : CellId) (x : Enc) (a : BitVec 2) (s : State) : Out :=
  .next ((s.decode c.toNat (0o524 + a.toNat)).runInstr c.toNat x { rep := false, pops := 1 }
    (State.capStep c.toNat 1 a (fun k ws => permCap (k.cap a) (ws.getD 0 0))))

/-- CSHUT (R166). -/
def execCshut (c : CellId) (x : Enc) (a : BitVec 2) (s : State) : Out :=
  .next ((s.decode c.toNat (0o530 + a.toNat)).runInstr c.toNat x (secondForm x 1)
    (State.capStep c.toNat 1 a (fun k ws => shutCap (k.cap a) (k.cap (secondCap x)) (ws.getD 0 0))))

/-- COPEN (R166). -/
def execCopen (c : CellId) (x : Enc) (a : BitVec 2) (s : State) : Out :=
  .next ((s.decode c.toNat (0o534 + a.toNat)).runInstr c.toNat x (secondForm x 0)
    (State.capStep c.toNat 0 a (fun k _ => openCap (k.cap a) (k.cap (secondCap x)))))

/-- CCOPY (R166). -/
def execCcopy (c : CellId) (x : Enc) (a : BitVec 2) (s : State) : Out :=
  .next ((s.decode c.toNat (0o540 + a.toNat)).runInstr c.toNat x (secondForm x 0)
    (State.capStep c.toNat 0 a (fun k _ => .ok (k.cap (secondCap x)))))

/-- GETA (R168). -/
def execGeta (c : CellId) (x : Enc) (a : BitVec 2) (s : State) : Out :=
  .next ((s.decode c.toNat (1536 + 0o0 + a.toNat)).move c.toNat x 0 1 false (fun _ k => ([(k.ptr a).setWidth 36], k)))

/-- SETA (R168). -/
def execSeta (c : CellId) (x : Enc) (a : BitVec 2) (s : State) : Out :=
  .next ((s.decode c.toNat (1536 + 0o4 + a.toNat)).move c.toNat x 1 0 false (fun ws k => ([], k.setPtr a ((ws.getD 0 0).setWidth 32))))

/-- ADDA (R168): a sum modulo 2^32 takes the low bits of the S36 operand. -/
def execAdda (c : CellId) (x : Enc) (a : BitVec 2) (s : State) : Out :=
  .next ((s.decode c.toNat (1536 + 0o10 + a.toNat)).move c.toNat x 1 0 false (fun ws k => ([], k.setPtr a (k.ptr a + (ws.getD 0 0).setWidth 32))))

/-- GETRC (R168). -/
def execGetrc (c : CellId) (x : Enc) (s : State) : Out :=
  .next ((s.decode c.toNat (1536 + 0o20)).move c.toNat x 0 1 false (fun _ k => ([k.rc], k)))

/-- SETRC (R168). -/
def execSetrc (c : CellId) (x : Enc) (s : State) : Out :=
  .next ((s.decode c.toNat (1536 + 0o21)).move c.toNat x 1 0 true (fun ws k => ([], { k with rc := ws.getD 0 0 })))

/-- GETDSP (R168): DSP as it was before. -/
def execGetdsp (c : CellId) (x : Enc) (s : State) : Out :=
  .next ((s.decode c.toNat (1536 + 0o22)).move c.toNat x 0 1 false (fun _ k => ([k.dsp.setWidth 36], k)))

/-- GETRSP (R168). -/
def execGetrsp (c : CellId) (x : Enc) (s : State) : Out :=
  .next ((s.decode c.toNat (1536 + 0o24)).move c.toNat x 0 1 false (fun _ k => ([k.rsp.setWidth 36], k)))

/-- SETDSP (R169). -/
def execSetdsp (c : CellId) (x : Enc) (s : State) : Out :=
  .next ((s.decode c.toNat (1536 + 0o23)).runInstr c.toNat x { op := 2, rep := false, cyc := 2, pops := 1 } (State.setSpStep c.toNat false))

/-- SETRSP (R169). -/
def execSetrsp (c : CellId) (x : Enc) (s : State) : Out :=
  .next ((s.decode c.toNat (1536 + 0o25)).runInstr c.toNat x { op := 2, rep := false, cyc := 2, pops := 1 } (State.setSpStep c.toNat true))

/-- GETFL (R168). -/
def execGetfl (c : CellId) (x : Enc) (s : State) : Out :=
  .next ((s.decode c.toNat (1536 + 0o26)).move c.toNat x 0 1 false (fun _ k => ([k.flags], k)))

/-- SETFL (R168): every field of FLAGS, MP with them. -/
def execSetfl (c : CellId) (x : Enc) (s : State) : Out :=
  .next ((s.decode c.toNat (1536 + 0o27)).move c.toNat x 1 0 false (fun ws k => ([], { k with flags := ws.getD 0 0 &&& flagMask })))

/-- GETACC0 (R168): ( -- g a.d ). -/
def execGetacc0 (c : CellId) (x : Enc) (s : State) : Out :=
  .next ((s.decode c.toNat (1536 + 0o30)).move c.toNat x 0 3 false (fun _ k => ([accGuard (k.acc false), accMid (k.acc false), accLo (k.acc false)], k)))

/-- SETACC0 (R168): ( g a.d -- ). -/
def execSetacc0 (c : CellId) (x : Enc) (s : State) : Out :=
  .next ((s.decode c.toNat (1536 + 0o32)).move c.toNat x 3 0 false (fun ws k => ([], k.setAcc false (accOf (ws.getD 0 0) (ws.getD 1 0) (ws.getD 2 0)))))

/-- GETACC1 (R168): ( -- g a.d ). -/
def execGetacc1 (c : CellId) (x : Enc) (s : State) : Out :=
  .next ((s.decode c.toNat (1536 + 0o31)).move c.toNat x 0 3 false (fun _ k => ([accGuard (k.acc true), accMid (k.acc true), accLo (k.acc true)], k)))

/-- SETACC1 (R168): ( g a.d -- ). -/
def execSetacc1 (c : CellId) (x : Enc) (s : State) : Out :=
  .next ((s.decode c.toNat (1536 + 0o33)).move c.toNat x 3 0 false (fun ws k => ([], k.setAcc true (accOf (ws.getD 0 0) (ws.getD 1 0) (ws.getD 2 0)))))

/-- LDIM (R170): the latched input plane. -/
def execLdim (c : CellId) (x : Enc) (s : State) : Out :=
  .next ((s.decode c.toNat 0o500).imageRd c.toNat x false (fun s w => s.readInput s.rime.lat w))

/-- LDIMP (R170): the previous input plane. -/
def execLdimp (c : CellId) (x : Enc) (s : State) : Out :=
  .next ((s.decode c.toNat 0o501).imageRd c.toNat x false (fun s w => s.readInput s.rime.prev w))

/-- LDOP (R170): the pending output plane. -/
def execLdop (c : CellId) (x : Enc) (s : State) : Out :=
  .next ((s.decode c.toNat 0o502).imageRd c.toNat x false (fun s w => s.readPending w))

/-- LDOC (R170): the committed output plane. -/
def execLdoc (c : CellId) (x : Enc) (s : State) : Out :=
  .next ((s.decode c.toNat 0o503).imageRd c.toNat x false (fun s w => s.readOutput s.rime.comm w))

/-- BLD (R170): the latched input plane. -/
def execBld (c : CellId) (x : Enc) (s : State) : Out :=
  .next ((s.decode c.toNat 0o505).imageRd c.toNat x true (fun s w => s.readInput s.rime.lat w))

/-- BLDP (R170): the previous input plane. -/
def execBldp (c : CellId) (x : Enc) (s : State) : Out :=
  .next ((s.decode c.toNat 0o506).imageRd c.toNat x true (fun s w => s.readInput s.rime.prev w))

/-- STIM (R170, R171). -/
def execStim (c : CellId) (x : Enc) (s : State) : Out :=
  .next (((s.decode c.toNat 0o504).runInstr c.toNat x { cyc := 2, pops := 2 } (State.imageSt c.toNat false)).close)

/-- BST (R170, R171). -/
def execBst (c : CellId) (x : Enc) (s : State) : Out :=
  .next (((s.decode c.toNat 0o507).runInstr c.toNat x { cyc := 2, pops := 2 } (State.imageSt c.toNat true)).close)

/-- PREF (R182). -/
def execPref (c : CellId) (x : Enc) (a : BitVec 2) (s : State) : Out :=
  .next ((s.decode c.toNat (0o544 + a.toNat)).runInstr c.toNat x (syncForm 1 1) (State.prefStep c.toNat a))

/-- FENCE (R182). -/
def execFence (c : CellId) (x : Enc) (s : State) : Out :=
  .next (((s.decode c.toNat 0o560).runInstr c.toNat x (syncForm 2 0) (State.fenceStep c.toNat)).close)

/-- RSYNC (R182): the model's cells take every invalidation at once (R309). -/
def execRsync (c : CellId) (x : Enc) (s : State) : Out :=
  .next ((s.decode c.toNat 0o561).runInstr c.toNat x { syncForm 400 0 with fixed := true } (fun _ s => .ok false s))

/-- FLUSHI (R182). -/
def execFlushi (c : CellId) (x : Enc) (s : State) : Out :=
  .next (((s.decode c.toNat 0o562).runInstr c.toNat x (syncForm 8 0) (State.flushiStep c.toNat)).close)

/-- SAVEM (R183, R184). -/
def execSavem (c : CellId) (x : Enc) (a : BitVec 2) (s : State) : Out :=
  .next (((s.decode c.toNat (0o550 + a.toNat)).runInstr c.toNat x { syncForm 2 1 with fixed := true } (State.multiStep c.toNat a true)).close)

/-- LOADM (R183, R184). -/
def execLoadm (c : CellId) (x : Enc) (a : BitVec 2) (s : State) : Out :=
  .next (((s.decode c.toNat (0o554 + a.toNat)).runInstr c.toNat x { syncForm 2 1 with fixed := true } (State.multiStep c.toNat a false)).close)

/-- TON (R152): ( in pt -- q et ). -/
def execTon (c : CellId) (x : Enc) (a : BitVec 2) (s : State) : Out :=
  .next (((s.decode c.toNat (768 + 0o0 + a.toNat)).runInstr c.toNat x (blockForm 12 2 2) (State.blockStep c.toNat a 2 (fun s ops i =>
    let r := tonStep s.frame36 (ops.getD 1 0) (ops.getD 0 0) i
    (r.1, r.1.q, r.2)))).close)

/-- TOF (R152): ( in pt -- q et ). -/
def execTof (c : CellId) (x : Enc) (a : BitVec 2) (s : State) : Out :=
  .next (((s.decode c.toNat (768 + 0o4 + a.toNat)).runInstr c.toNat x (blockForm 12 2 2) (State.blockStep c.toNat a 2 (fun s ops i =>
    let r := tofStep s.frame36 (ops.getD 1 0) (ops.getD 0 0) i
    (r.1, r.1.q, r.2)))).close)

/-- CTU (R152): ( cu r pv -- q cv ). -/
def execCtu (c : CellId) (x : Enc) (a : BitVec 2) (s : State) : Out :=
  .next (((s.decode c.toNat (768 + 0o10 + a.toNat)).runInstr c.toNat x (blockForm 10 3 2) (State.blockStep c.toNat a 3 (fun _ ops i =>
    let r := ctuStep (ops.getD 2 0) (ops.getD 1 0) i
    (r, decide ((ops.getD 0 0).toInt ≤ r.w1.toInt), r.w1)))).close)

/-- SDFT (R154). -/
def execSdft (c : CellId) (x : Enc) (a : BitVec 2) (s : State) : Out :=
  .next (((s.decode c.toNat (768 + 0o14 + a.toNat)).runInstr c.toNat x (blockForm 24 1 1) (State.sdftStep c.toNat a)).close)

end Sys2Proof.Machine
end

