-- ==== Sys2Proof/Machine/UnitEvents.lean ====
section
/-! DEFINITION. UnitEvents.lean: the commands of the queue manager, the backplane ports, Firn, Moraine and the repair controller. -/

namespace Sys2Proof.Machine

open Sys2Proof

/-! ## Queue manager -/

/-- CHANNEL_ENQUEUE (R408, R409). -/
def execChannelEnqueue (ch : BitVec 5) (q : BitVec 16) (s : State) : Out :=
  .next (s.written 0x5100 (fun s => s.channelStart ch.toNat q.toNat false))

/-- CHANNEL_DEQUEUE (R408, R409). -/
def execChannelDequeue (ch : BitVec 5) (q : BitVec 16) (s : State) : Out :=
  .next (s.written 0x5100 (fun s => s.channelStart ch.toNat q.toNat true))

/-- CHANNEL_ILLEGAL_OP (R409). -/
def execChannelIllegalOp (ch : BitVec 5) (_op11 : Bool) (_q : BitVec 16) (s : State) : Out :=
  .next (s.written 0x5100 (fun s => s.channelIllegal ch.toNat))

/-- CHANNEL_COMPLETION (R409). -/
def execChannelCompletion (ch : BitVec 5) (s : State) : Out :=
  .next ((s.channelComplete ch.toNat).close)

/-- RESERVATION_GRANT (R403). -/
def execReservationGrant (q : BitVec 16) (deq : Bool) (s : State) : Out :=
  .next ((s.grant q.toNat deq).close)

/-- DESCRIPTOR_WRITE (R400). -/
def execDescriptorWrite (m : Master) (q : BitVec 16) (w : BitVec 2) (v : Word) (s : State) : Out :=
  .next ((s.masterWrite m (queueBase + 4 * q.toNat + w.toNat) v 0xF).close)

/-! ## Backplane ports -/

/-- PORT_ENABLE (R413, R438): a write of BP_CTRL with EN 1. -/
def execPortEnable (n : BitVec 3) (v : Word) (s : State) : Out :=
  .next (s.written (bpBase n.toNat) (fun s => s.writePort n.toNat 0 (setFld v 0 1 1)))

/-- PORT_DISABLE (R438): a write of BP_CTRL with EN 0. -/
def execPortDisable (n : BitVec 3) (v : Word) (s : State) : Out :=
  .next (s.written (bpBase n.toNat) (fun s => s.writePort n.toNat 0 (setFld v 0 1 0)))

/-- BUS_INTEGRATION (R414). -/
def execBusIntegration (n : BitVec 3) (s : State) : Out :=
  .next ((s.busIntegration n.toNat).settle)

/-- FRAME_RECEPTION (R420, R423, R424). `after` is how many of the newest writes of the port's filter words came after the cycle
of the frame's FDF bit (R419). -/
def execFrameReception (n : BitVec 3) (f : CanFrame) (after : BitVec 16) (s : State) : Out :=
  .next ((s.receive n.toNat f after.toNat).close)

/-- SHADOW_TRANSFER (R420). -/
def execShadowTransfer (n : BitVec 3) (b : BitVec 6) (s : State) : Out :=
  .next ((s.tryTransfer n.toNat b.toNat).close)

/-- BUFFER_LOCK (R422): a read of a receive buffer's word 0. -/
def execBufferLock (n : BitVec 3) (b : BitVec 6) (s : State) : Out :=
  .next (s.written (0x30000 + 0x800 * n.toNat) (fun s => s.lockBuffer n.toNat b.toNat))

/-- LOCK_RELEASE (R422): a read of the locked buffer's word 22. -/
def execLockRelease (n : BitVec 3) (b : BitVec 6) (s : State) : Out :=
  .next (s.written (0x30000 + 0x800 * n.toNat) (fun s => s.releaseLock n.toNat b.toNat))

/-- LOCK_TIMEOUT (R422). -/
def execLockTimeout (n : BitVec 3) (s : State) : Out :=
  .next ((s.lockTimeout n.toNat).close)

/-- TRANSMIT_REQUEST (R425). -/
def execTransmitRequest (n : BitVec 3) (b : BitVec 6) (s : State) : Out :=
  .next (s.written (0x30000 + 0x800 * n.toNat) (fun s => s.request n.toNat b.toNat))

/-- TRANSMIT_WITHDRAW (R416, R427). -/
def execTransmitWithdraw (n : BitVec 3) (b : BitVec 6) (s : State) : Out :=
  .next (s.written (0x30000 + 0x800 * n.toNat) (fun s => s.withdraw n.toNat b.toNat))

/-- FRAME_START (R425, R430). -/
def execFrameStart (n : BitVec 3) (t : BitVec 80) (s : State) : Out :=
  .next ((s.frameStart n.toNat t.toNat).settle)

/-- FRAME_END (R427). -/
def execFrameEnd (n : BitVec 3) (e : TxEnd) (tdcv : Option (BitVec 16)) (s : State) : Out :=
  .next ((s.frameEnd n.toNat e (tdcv.map BitVec.toNat)).settle)

/-- WINDOW_CLOSE (R431). -/
def execWindowClose (n : BitVec 3) (b : BitVec 6) (s : State) : Out :=
  .next ((s.windowClose n.toNat b.toNat).settle)

/-- ERROR_FRAME (R434, R435). -/
def execErrorFrame (n : BitVec 3) (lec : BitVec 3) (tecInc recInc : BitVec 4) (s : State) : Out :=
  .next ((s.errorFrame n.toNat lec.toNat tecInc.toNat recInc.toNat).settle)

/-- RECOVER (R435). -/
def execRecover (n : BitVec 3) (s : State) : Out :=
  .next (s.written (bpBase n.toNat) (fun s => s.portRecover n.toNat))

/-- BUS_OFF_RECOVERY_END (R435). -/
def execBusOffRecoveryEnd (n : BitVec 3) (s : State) : Out :=
  .next ((s.recoveryEnd n.toNat).settle)

/-- HOLD_STATUS_FRAME (R436). -/
def execHoldStatusFrame (n : BitVec 3) (s : State) : Out :=
  .next ((s.holdStatus n.toNat).settle)

/-! ## Firn -/

/-- KEEP_ENABLE (R454): a write of KEEP_CFG with EN 1. -/
def execKeepEnable (v : Word) (s : State) : Out :=
  .next (s.written 0x6000 (fun s => s.writeKeepCfg (setFld v 0 1 1)))

/-- STORE_READY (R454). -/
def execStoreReady (s : State) : Out :=
  .next (s.storeReady.settle)

/-- READ (R448, R455). `badA` and `badB`: the copy in that half fails its checks as it is read now (R444). -/
def execRead (key : BitVec 13) (badA badB : Bool) (s : State) : Out :=
  .next (s.written 0x6002 (fun s => s.writeKeep ⟨1, key.toNat, badA, badB⟩))

/-- COMMIT (R446, R447). -/
def execCommit (glen : BitVec 13) (s : State) : Out :=
  .next (s.written 0x6002 (fun s => s.writeKeepCmd 2 glen.toNat))

/-- UNLOCKR (R448). -/
def execUnlockr (s : State) : Out :=
  .next (s.written 0x6002 (fun s => s.writeKeepCmd 3 0))

/-- UNLOCKW (R448). -/
def execUnlockw (s : State) : Out :=
  .next (s.written 0x6002 (fun s => s.writeKeepCmd 4 0))

/-- LOCK (R448). -/
def execLock (s : State) : Out :=
  .next (s.written 0x6002 (fun s => s.writeKeepCmd 5 0))

/-- SETPWR (R448). -/
def execSetpwr (s : State) : Out :=
  .next (s.written 0x6002 (fun s => s.writeKeepCmd 6 0))

/-- SETPWW (R448). -/
def execSetpww (s : State) : Out :=
  .next (s.written 0x6002 (fun s => s.writeKeepCmd 7 0))

/-- HOTSAVE (R449). -/
def execHotsave (s : State) : Out :=
  .next (s.written 0x6002 (fun s => s.writeKeepCmd 8 0))

/-- FORMAT (R453). -/
def execFormat (s : State) : Out :=
  .next (s.written 0x6002 (fun s => s.writeKeepCmd 9 0))

/-- KEEP_ILLEGAL_OP (R456). -/
def execKeepIllegalOp (op : BitVec 4) (arg : BitVec 13) (s : State) : Out :=
  .next (s.written 0x6002 (fun s => s.writeKeepCmd op.toNat arg.toNat))

/-- FLASH_OP_COMPLETE (R447). -/
def execFlashOpComplete (blank : Bool) (s : State) : Out :=
  .next ((s.flashDone blank).settle)

/-- PF_WARN (R449, R545). -/
def execPfWarn (s : State) : Out :=
  .next (s.pfWarnRise.settle)

/-- PF_OK_FALL (R446, R545). -/
def execPfOkFall (s : State) : Out :=
  .next (s.pfOkSet false)

/-- PF_OK_RISE (R545). -/
def execPfOkRise (s : State) : Out :=
  .next (s.pfOkSet true)

/-- PF_WARN_FALL (R545). -/
def execPfWarnFall (s : State) : Out :=
  .next (s.pfWarnFall)

/-- HOT_SAVE (R449). -/
def execHotSave (s : State) : Out :=
  .next (s.hotSave.settle)

/-- RECLAIM (R452). -/
def execReclaim (halfB : Bool) (s : State) : Out :=
  .next ((s.reclaim halfB).settle)

/-- TWIN_REWRITE (R454). -/
def execTwinRewrite (key : BitVec 10) (s : State) : Out :=
  .next ((s.twinRewrite key.toNat).settle)

/-- REPAIR_RECORD_APPEND (R492). -/
def execRepairRecordAppend (blank : Bool) (s : State) : Out :=
  .next ((s.appendRecord blank).settle)

/-! ## Moraine -/

/-- MESSAGE_TAKEN (R460-R462). -/
def execMessageTaken (s : State) : Out :=
  .next (s.takeMessage.close)

/-- MOR_ACK_SRCV (R467). -/
def execMorAckSrcv (src : BitVec 12) (s : State) : Out :=
  .next (s.written 0x2000 (fun s => s.writeAck (setFld (setFld 0 33 1 1) 0 12 src.toNat)))

/-- MOR_ACK_ALL (R467). -/
def execMorAckAll (s : State) : Out :=
  .next (s.written 0x2000 (fun s => s.writeAck (setFld 0 34 1 1)))

/-- MOR_ACK_FIRST (R463). -/
def execMorAckFirst (s : State) : Out :=
  .next (s.written 0x2000 (fun s => s.writeAck (setFld 0 35 1 1)))

/-- MOR_LOGPOP (R464). -/
def execMorLogpop (n : BitVec 9) (s : State) : Out :=
  .next (s.written 0x2000 (fun s => s.logPop n.toNat))

/-- MOR_FIRST0_READ (R463). -/
def execMorFirst0Read (s : State) : Out :=
  .next (s.written 0x2000 State.readFirst0)

/-- QUIET_EXIT (R466). -/
def execQuietExit (src : BitVec 12) (s : State) : Out :=
  .next ((s.quietExit src.toNat).settle)

/-! ## Repair controller -/

/-- MIGRATE (R486). -/
def execMigrate (c : CellId) (s : State) : Out :=
  .next (s.written 0x3000 (fun s => s.writeRprCmd 1 (c.toNat * 2 ^ 13)))

/-- TEST (R486). -/
def execTest (k : ClusterId) (slot : BitVec 5) (s : State) : Out :=
  .next (s.written 0x3000 (fun s => s.writeRprCmd 2 (k.toNat * 2 ^ 9 + slot.toNat * 2 ^ 4)))

/-- TEST_END (R485, R486). -/
def execTestEnd (k : ClusterId) (slot : BitVec 5) (pass : Bool) (s : State) : Out :=
  .next ((s.testEnd k.toNat slot.toNat pass).close)

/-- RESTORE (R486). -/
def execRestore (k : ClusterId) (slot : BitVec 5) (s : State) : Out :=
  .next (s.written 0x3000 (fun s => s.writeRprCmd 3 (k.toNat * 2 ^ 9 + slot.toNat * 2 ^ 4)))

/-- RPR_ILLEGAL_OP (R486). -/
def execRprIllegalOp (op : BitVec 4) (arg : BitVec 32) (s : State) : Out :=
  .next (s.written 0x3000 (fun s => s.writeRprCmd op.toNat arg.toNat))

/-- MIGRATION_COPY_END (R480). -/
def execMigrationCopyEnd (k : ClusterId) (s : State) : Out :=
  .next ((s.copyEnd k.toNat).close)

/-- SPARE_ARMED (R476). -/
def execSpareArmed (k : ClusterId) (s : State) : Out :=
  .next ((s.spareArmed k.toNat).close)

/-- SNAPSHOT_DRAIN_END (R477). -/
def execSnapshotDrainEnd (k : ClusterId) (s : State) : Out :=
  .next ((s.snapshotDrained k.toNat).close)

/-- FIELD_ROW_REPAIR (R489). -/
def execFieldRowRepair (s : State) : Out :=
  .next (s.rowRepair.close)

/-- CLOCK_STEP_LOWERING (R494). -/
def execClockStepLowering (k : ClusterId) (margin : BitVec 6) (temp : BitVec 9) (s : State) : Out :=
  .next ((s.lowerStep k.toNat margin.toNat temp.toNat).close)

/-- MONITOR_RECOVERY (R494). -/
def execMonitorRecovery (k : ClusterId) (margin : BitVec 6) (temp : BitVec 9) (s : State) : Out :=
  .next ((s.monitorRecovery k.toNat margin.toNat temp.toNat).close)

/-- CALIBRATION (R496). -/
def execCalibration (k : ClusterId) (completed : Bool) (s : State) : Out :=
  .next ((s.calibrate k.toNat completed).close)

end Sys2Proof.Machine
end

