-- ==== Sys2Proof/Machine/Dispatch.lean ====
section
/-! DEFINITION. Dispatch.lean: what each command does, one arm per row of the opcode table. -/

namespace Sys2Proof.Machine

open Sys2Proof

/-- The effect of a command on everything but the queue of waiting commands. -/
def exec (i : Instr) (s : State) : Host.Outcome State Fault Refusal :=
  match i with
  | .lit c x short => Sys2Proof.Machine.execLit c x short s
  | .nop c x => Sys2Proof.Machine.execNop c x s
  | .drop c x => Sys2Proof.Machine.execDrop c x s
  | .dup c x => Sys2Proof.Machine.execDup c x s
  | .swap c x => Sys2Proof.Machine.execSwap c x s
  | .over c x => Sys2Proof.Machine.execOver c x s
  | .rot c x => Sys2Proof.Machine.execRot c x s
  | .nip c x => Sys2Proof.Machine.execNip c x s
  | .tuck c x => Sys2Proof.Machine.execTuck c x s
  | .pick c x => Sys2Proof.Machine.execPick c x s
  | .add c x => Sys2Proof.Machine.execAdd c x s
  | .sub c x => Sys2Proof.Machine.execSub c x s
  | .addu c x => Sys2Proof.Machine.execAddu c x s
  | .subu c x => Sys2Proof.Machine.execSubu c x s
  | .neg c x => Sys2Proof.Machine.execNeg c x s
  | .abs c x => Sys2Proof.Machine.execAbs c x s
  | .min c x => Sys2Proof.Machine.execMin c x s
  | .max c x => Sys2Proof.Machine.execMax c x s
  | .minu c x => Sys2Proof.Machine.execMinu c x s
  | .maxu c x => Sys2Proof.Machine.execMaxu c x s
  | .and c x => Sys2Proof.Machine.execAnd c x s
  | .or c x => Sys2Proof.Machine.execOr c x s
  | .xor c x => Sys2Proof.Machine.execXor c x s
  | .not c x => Sys2Proof.Machine.execNot c x s
  | .andn c x => Sys2Proof.Machine.execAndn c x s
  | .shl c x => Sys2Proof.Machine.execShl c x s
  | .shr c x => Sys2Proof.Machine.execShr c x s
  | .sar c x => Sys2Proof.Machine.execSar c x s
  | .rol c x => Sys2Proof.Machine.execRol c x s
  | .ins c x => Sys2Proof.Machine.execIns c x s
  | .ext c x => Sys2Proof.Machine.execExt c x s
  | .exts c x => Sys2Proof.Machine.execExts c x s
  | .clz c x => Sys2Proof.Machine.execClz c x s
  | .popc c x => Sys2Proof.Machine.execPopc c x s
  | .nperm c x => Sys2Proof.Machine.execNperm c x s
  | .ceq c x p => Sys2Proof.Machine.execCeq c x p s
  | .clt c x p => Sys2Proof.Machine.execClt c x p s
  | .cltu c x p => Sys2Proof.Machine.execCltu c x p s
  | .pget c x p => Sys2Proof.Machine.execPget c x p s
  | .pset c x p => Sys2Proof.Machine.execPset c x p s
  | .pand c x p => Sys2Proof.Machine.execPand c x p s
  | .por c x p => Sys2Proof.Machine.execPor c x p s
  | .mul c x => Sys2Proof.Machine.execMul c x s
  | .mulh c x => Sys2Proof.Machine.execMulh c x s
  | .mulhu c x => Sys2Proof.Machine.execMulhu c x s
  | .mac0 c x => Sys2Proof.Machine.execMac0 c x s
  | .mac1 c x => Sys2Proof.Machine.execMac1 c x s
  | .msu0 c x => Sys2Proof.Machine.execMsu0 c x s
  | .msu1 c x => Sys2Proof.Machine.execMsu1 c x s
  | .accclr0 c x => Sys2Proof.Machine.execAccclr0 c x s
  | .accclr1 c x => Sys2Proof.Machine.execAccclr1 c x s
  | .accrd0 c x => Sys2Proof.Machine.execAccrd0 c x s
  | .accrd1 c x => Sys2Proof.Machine.execAccrd1 c x s
  | .fmul c x => Sys2Proof.Machine.execFmul c x s
  | .div c x => Sys2Proof.Machine.execDiv c x s
  | .divu c x => Sys2Proof.Machine.execDivu c x s
  | .mod c x => Sys2Proof.Machine.execMod c x s
  | .sqrt c x => Sys2Proof.Machine.execSqrt c x s
  | .band c x => Sys2Proof.Machine.execBand c x s
  | .bor c x => Sys2Proof.Machine.execBor c x s
  | .bxor c x => Sys2Proof.Machine.execBxor c x s
  | .bnot c x => Sys2Proof.Machine.execBnot c x s
  | .bands c x => Sys2Proof.Machine.execBands c x s
  | .bors c x => Sys2Proof.Machine.execBors c x s
  | .bxors c x => Sys2Proof.Machine.execBxors c x s
  | .bnots c x => Sys2Proof.Machine.execBnots c x s
  | .rise c x => Sys2Proof.Machine.execRise c x s
  | .fall c x => Sys2Proof.Machine.execFall c x s
  | .setp c x => Sys2Proof.Machine.execSetp c x s
  | .rstp c x => Sys2Proof.Machine.execRstp c x s
  | .paddI c x => Sys2Proof.Machine.execPaddI c x s
  | .psubI c x => Sys2Proof.Machine.execPsubI c x s
  | .pmulI c x => Sys2Proof.Machine.execPmulI c x s
  | .pdivI c x => Sys2Proof.Machine.execPdivI c x s
  | .pnegI c x => Sys2Proof.Machine.execPnegI c x s
  | .paddF c x => Sys2Proof.Machine.execPaddF c x s
  | .psubF c x => Sys2Proof.Machine.execPsubF c x s
  | .pmulF c x => Sys2Proof.Machine.execPmulF c x s
  | .pdivF c x => Sys2Proof.Machine.execPdivF c x s
  | .pnegF c x => Sys2Proof.Machine.execPnegF c x s
  | .pcvtif c x => Sys2Proof.Machine.execPcvtif c x s
  | .pcvtfi c x => Sys2Proof.Machine.execPcvtfi c x s
  | .pqmrg c x => Sys2Proof.Machine.execPqmrg c x s
  | .pceqI c x p => Sys2Proof.Machine.execPceqI c x p s
  | .pcltI c x p => Sys2Proof.Machine.execPcltI c x p s
  | .pceqF c x p => Sys2Proof.Machine.execPceqF c x p s
  | .pcltF c x p => Sys2Proof.Machine.execPcltF c x p s
  | .qgd c x p => Sys2Proof.Machine.execQgd c x p s
  | .qiv c x p => Sys2Proof.Machine.execQiv c x p s
  | .qts c x p => Sys2Proof.Machine.execQts c x p s
  | .qsb c x p => Sys2Proof.Machine.execQsb c x p s
  | .bqg c x p => Sys2Proof.Machine.execBqg c x p s
  | .bqt c x p => Sys2Proof.Machine.execBqt c x p s
  | .ton c x a => Sys2Proof.Machine.execTon c x a s
  | .tof c x a => Sys2Proof.Machine.execTof c x a s
  | .ctu c x a => Sys2Proof.Machine.execCtu c x a s
  | .sdft c x a => Sys2Proof.Machine.execSdft c x a s
  | .ld c x m => Sys2Proof.Machine.execLd c x m s
  | .st c x m => Sys2Proof.Machine.execSt c x m s
  | .ldn c x m => Sys2Proof.Machine.execLdn c x m s
  | .stn c x m => Sys2Proof.Machine.execStn c x m s
  | .cld c x d a => Sys2Proof.Machine.execCld c x d a s
  | .cst c x d a => Sys2Proof.Machine.execCst c x d a s
  | .cnarrow c x a => Sys2Proof.Machine.execCnarrow c x a s
  | .cperm c x a => Sys2Proof.Machine.execCperm c x a s
  | .cshut c x a => Sys2Proof.Machine.execCshut c x a s
  | .copen c x a => Sys2Proof.Machine.execCopen c x a s
  | .ccopy c x a => Sys2Proof.Machine.execCcopy c x a s
  | .geta c x a => Sys2Proof.Machine.execGeta c x a s
  | .seta c x a => Sys2Proof.Machine.execSeta c x a s
  | .adda c x a => Sys2Proof.Machine.execAdda c x a s
  | .getrc c x => Sys2Proof.Machine.execGetrc c x s
  | .setrc c x => Sys2Proof.Machine.execSetrc c x s
  | .getdsp c x => Sys2Proof.Machine.execGetdsp c x s
  | .setdsp c x => Sys2Proof.Machine.execSetdsp c x s
  | .getrsp c x => Sys2Proof.Machine.execGetrsp c x s
  | .setrsp c x => Sys2Proof.Machine.execSetrsp c x s
  | .getfl c x => Sys2Proof.Machine.execGetfl c x s
  | .setfl c x => Sys2Proof.Machine.execSetfl c x s
  | .getacc0 c x => Sys2Proof.Machine.execGetacc0 c x s
  | .getacc1 c x => Sys2Proof.Machine.execGetacc1 c x s
  | .setacc0 c x => Sys2Proof.Machine.execSetacc0 c x s
  | .setacc1 c x => Sys2Proof.Machine.execSetacc1 c x s
  | .ldim c x => Sys2Proof.Machine.execLdim c x s
  | .ldimp c x => Sys2Proof.Machine.execLdimp c x s
  | .ldop c x => Sys2Proof.Machine.execLdop c x s
  | .ldoc c x => Sys2Proof.Machine.execLdoc c x s
  | .stim c x => Sys2Proof.Machine.execStim c x s
  | .bld c x => Sys2Proof.Machine.execBld c x s
  | .bldp c x => Sys2Proof.Machine.execBldp c x s
  | .bst c x => Sys2Proof.Machine.execBst c x s
  | .enq c x a => Sys2Proof.Machine.execEnq c x a s
  | .deq c x a => Sys2Proof.Machine.execDeq c x a s
  | .br c x => Sys2Proof.Machine.execBr c x s
  | .bri c x => Sys2Proof.Machine.execBri c x s
  | .call c x => Sys2Proof.Machine.execCall c x s
  | .calli c x => Sys2Proof.Machine.execCalli c x s
  | .ret c x => Sys2Proof.Machine.execRet c x s
  | .sys c x n => Sys2Proof.Machine.execSys c x n s
  | .rets c x => Sys2Proof.Machine.execRets c x s
  | .iret c x => Sys2Proof.Machine.execIret c x s
  | .fret c x => Sys2Proof.Machine.execFret c x s
  | .dret c x => Sys2Proof.Machine.execDret c x s
  | .fend c x => Sys2Proof.Machine.execFend c x s
  | .wait c x => Sys2Proof.Machine.execWait c x s
  | .post c x => Sys2Proof.Machine.execPost c x s
  | .yield c x => Sys2Proof.Machine.execYield c x s
  | .pref c x a => Sys2Proof.Machine.execPref c x a s
  | .fence c x => Sys2Proof.Machine.execFence c x s
  | .rsync c x => Sys2Proof.Machine.execRsync c x s
  | .flushi c x => Sys2Proof.Machine.execFlushi c x s
  | .savem c x a => Sys2Proof.Machine.execSavem c x a s
  | .loadm c x a => Sys2Proof.Machine.execLoadm c x a s
  | .loadDataReturn c => Sys2Proof.Machine.execLoadDataReturn c s
  | .storeBufferDrain c => Sys2Proof.Machine.execStoreBufferDrain c s
  | .backgroundSpillFill c ret => Sys2Proof.Machine.execBackgroundSpillFill c ret s
  | .cellCheckError k slot => Sys2Proof.Machine.execCellCheckError k slot s
  | .faultEntry c r => Sys2Proof.Machine.execFaultEntry c r s
  | .interruptEntry c => Sys2Proof.Machine.execInterruptEntry c s
  | .schedulerSwitch c => Sys2Proof.Machine.execSchedulerSwitch c s
  | .debugEntry c => Sys2Proof.Machine.execDebugEntry c s
  | .tick => Sys2Proof.Machine.execTick s
  | .level0Deadline => Sys2Proof.Machine.execLevel0Deadline s
  | .cycleBudgetExceeded c n => Sys2Proof.Machine.execCycleBudgetExceeded c n s
  | .holdover => Sys2Proof.Machine.execHoldover s
  | .timeUpdate tai cycles => Sys2Proof.Machine.execTimeUpdate tai cycles s
  | .ppsEdge off => Sys2Proof.Machine.execPpsEdge off s
  | .frameClockStart slew => Sys2Proof.Machine.execFrameClockStart slew s
  | .frameClockStop slew => Sys2Proof.Machine.execFrameClockStop slew s
  | .ingressEntry src => Sys2Proof.Machine.execIngressEntry src s
  | .debounceChange inp sample stamp => Sys2Proof.Machine.execDebounceChange inp sample stamp s
  | .egressPublication => Sys2Proof.Machine.execEgressPublication s
  | .irqAssert src => Sys2Proof.Machine.execIrqAssert src s
  | .irqDeassert src => Sys2Proof.Machine.execIrqDeassert src s
  | .irqPulse src => Sys2Proof.Machine.execIrqPulse src s
  | .irqPendset src => Sys2Proof.Machine.execIrqPendset src s
  | .irqPendclr src => Sys2Proof.Machine.execIrqPendclr src s
  | .postArrival from_ target n => Sys2Proof.Machine.execPostArrival from_ target n s
  | .doorbell target n => Sys2Proof.Machine.execDoorbell target n s
  | .timerExpiry c n => Sys2Proof.Machine.execTimerExpiry c n s
  | .levelEnable c n v => Sys2Proof.Machine.execLevelEnable c n v s
  | .levelDisable c n v => Sys2Proof.Machine.execLevelDisable c n v s
  | .loadingEnd c n => Sys2Proof.Machine.execLoadingEnd c n s
  | .stagingReady c => Sys2Proof.Machine.execStagingReady c s
  | .channelEnqueue ch q => Sys2Proof.Machine.execChannelEnqueue ch q s
  | .channelDequeue ch q => Sys2Proof.Machine.execChannelDequeue ch q s
  | .channelIllegalOp ch op11 q => Sys2Proof.Machine.execChannelIllegalOp ch op11 q s
  | .channelCompletion ch => Sys2Proof.Machine.execChannelCompletion ch s
  | .reservationGrant q deq => Sys2Proof.Machine.execReservationGrant q deq s
  | .descriptorWrite m q w v => Sys2Proof.Machine.execDescriptorWrite m q w v s
  | .portEnable n v => Sys2Proof.Machine.execPortEnable n v s
  | .portDisable n v => Sys2Proof.Machine.execPortDisable n v s
  | .busIntegration n => Sys2Proof.Machine.execBusIntegration n s
  | .frameReception n f after => Sys2Proof.Machine.execFrameReception n f after s
  | .shadowTransfer n b => Sys2Proof.Machine.execShadowTransfer n b s
  | .bufferLock n b => Sys2Proof.Machine.execBufferLock n b s
  | .lockRelease n b => Sys2Proof.Machine.execLockRelease n b s
  | .lockTimeout n => Sys2Proof.Machine.execLockTimeout n s
  | .transmitRequest n b => Sys2Proof.Machine.execTransmitRequest n b s
  | .transmitWithdraw n b => Sys2Proof.Machine.execTransmitWithdraw n b s
  | .frameStart n t => Sys2Proof.Machine.execFrameStart n t s
  | .frameEnd n e tdcv => Sys2Proof.Machine.execFrameEnd n e tdcv s
  | .windowClose n b => Sys2Proof.Machine.execWindowClose n b s
  | .errorFrame n lec tecInc recInc => Sys2Proof.Machine.execErrorFrame n lec tecInc recInc s
  | .recover n => Sys2Proof.Machine.execRecover n s
  | .busOffRecoveryEnd n => Sys2Proof.Machine.execBusOffRecoveryEnd n s
  | .holdStatusFrame n => Sys2Proof.Machine.execHoldStatusFrame n s
  | .keepEnable v => Sys2Proof.Machine.execKeepEnable v s
  | .storeReady => Sys2Proof.Machine.execStoreReady s
  | .read key badA badB => Sys2Proof.Machine.execRead key badA badB s
  | .commit glen => Sys2Proof.Machine.execCommit glen s
  | .unlockr => Sys2Proof.Machine.execUnlockr s
  | .unlockw => Sys2Proof.Machine.execUnlockw s
  | .lock => Sys2Proof.Machine.execLock s
  | .setpwr => Sys2Proof.Machine.execSetpwr s
  | .setpww => Sys2Proof.Machine.execSetpww s
  | .hotsave => Sys2Proof.Machine.execHotsave s
  | .format => Sys2Proof.Machine.execFormat s
  | .keepIllegalOp op arg => Sys2Proof.Machine.execKeepIllegalOp op arg s
  | .flashOpComplete blank => Sys2Proof.Machine.execFlashOpComplete blank s
  | .pfWarn => Sys2Proof.Machine.execPfWarn s
  | .pfOkFall => Sys2Proof.Machine.execPfOkFall s
  | .hotSave => Sys2Proof.Machine.execHotSave s
  | .reclaim halfB => Sys2Proof.Machine.execReclaim halfB s
  | .twinRewrite key => Sys2Proof.Machine.execTwinRewrite key s
  | .repairRecordAppend blank => Sys2Proof.Machine.execRepairRecordAppend blank s
  | .messageTaken => Sys2Proof.Machine.execMessageTaken s
  | .morAckSrcv src => Sys2Proof.Machine.execMorAckSrcv src s
  | .morAckAll => Sys2Proof.Machine.execMorAckAll s
  | .morAckFirst => Sys2Proof.Machine.execMorAckFirst s
  | .morLogpop n => Sys2Proof.Machine.execMorLogpop n s
  | .morFirst0Read => Sys2Proof.Machine.execMorFirst0Read s
  | .quietExit src => Sys2Proof.Machine.execQuietExit src s
  | .migrate c => Sys2Proof.Machine.execMigrate c s
  | .test k slot => Sys2Proof.Machine.execTest k slot s
  | .testEnd k slot pass => Sys2Proof.Machine.execTestEnd k slot pass s
  | .restore k slot => Sys2Proof.Machine.execRestore k slot s
  | .rprIllegalOp op arg => Sys2Proof.Machine.execRprIllegalOp op arg s
  | .migrationCopyEnd k => Sys2Proof.Machine.execMigrationCopyEnd k s
  | .spareArmed k => Sys2Proof.Machine.execSpareArmed k s
  | .fieldRowRepair => Sys2Proof.Machine.execFieldRowRepair s
  | .clockStepLowering k margin temp => Sys2Proof.Machine.execClockStepLowering k margin temp s
  | .calibration k completed => Sys2Proof.Machine.execCalibration k completed s
  | .scrub m seen busy => Sys2Proof.Machine.execScrub m seen busy s
  | .regionInstall m d r v => Sys2Proof.Machine.execRegionInstall m d r v s
  | .fabricResponse p tag st data => Sys2Proof.Machine.execFabricResponse p tag st data s
  | .retryReissue p tag => Sys2Proof.Machine.execRetryReissue p tag s
  | .fabricTimeout p tag => Sys2Proof.Machine.execFabricTimeout p tag s
  | .slaveMemoryAccess tag addr wr beats => Sys2Proof.Machine.execSlaveMemoryAccess tag addr wr beats s
  | .registerWrite m off v nonets more => Sys2Proof.Machine.execRegisterWrite m off v nonets more s
  | .ldvStart target => Sys2Proof.Machine.execLdvStart target s
  | .ldvAbort => Sys2Proof.Machine.execLdvAbort s
  | .ldvData w => Sys2Proof.Machine.execLdvData w s
  | .verify => Sys2Proof.Machine.execVerify s
  | .broadcast => Sys2Proof.Machine.execBroadcast s
  | .keyDelivery sel words => Sys2Proof.Machine.execKeyDelivery sel words s
  | .mcdone => Sys2Proof.Machine.execMcdone s
  | .thawStart => Sys2Proof.Machine.execThawStart s
  | .fuseWord w => Sys2Proof.Machine.execFuseWord w s
  | .fuseStreamTimeout => Sys2Proof.Machine.execFuseStreamTimeout s
  | .phase1End img bad spares => Sys2Proof.Machine.execPhase1End img bad spares s
  | .phase2End bad spares irqTables => Sys2Proof.Machine.execPhase2End bad spares irqTables s
  | .phase3End slots clusters units => Sys2Proof.Machine.execPhase3End slots clusters units s
  | .phase5End slots => Sys2Proof.Machine.execPhase5End slots s
  | .phaseTimeout => Sys2Proof.Machine.execPhaseTimeout s
  | .blockReset cause => Sys2Proof.Machine.execBlockReset cause s
  | .ignoredLow => Sys2Proof.Machine.execIgnoredLow s
  | .packetTimeout => Sys2Proof.Machine.execPacketTimeout s
  | .debugDomainReset fuse => Sys2Proof.Machine.execDebugDomainReset fuse s
  | .status crc => Sys2Proof.Machine.execStatus crc s
  | .rate code crc => Sys2Proof.Machine.execRate code crc s
  | .attach crc => Sys2Proof.Machine.execAttach crc s
  | .detach crc => Sys2Proof.Machine.execDetach crc s
  | .rdphy addr crc => Sys2Proof.Machine.execRdphy addr crc s
  | .wrphy addr w crc => Sys2Proof.Machine.execWrphy addr w crc s
  | .wrcap addr d tag crc => Sys2Proof.Machine.execWrcap addr d tag crc s
  | .rdbnk c bank ix crc => Sys2Proof.Machine.execRdbnk c bank ix crc s
  | .wrbnk c bank ix w tag crc => Sys2Proof.Machine.execWrbnk c bank ix w tag crc s
  | .event c crc => Sys2Proof.Machine.execEvent c crc s
  | .dbgIllegalOp op args crc => Sys2Proof.Machine.execDbgIllegalOp op args crc s
  | .debugHeldAccess => Sys2Proof.Machine.execDebugHeldAccess s
  | .halt c => Sys2Proof.Machine.execHalt c s
  | .runctlStop k mode => Sys2Proof.Machine.execRunctlStop k mode s
  | .runctlStart k mode => Sys2Proof.Machine.execRunctlStart k mode s
  | .stoppedReached k => Sys2Proof.Machine.execStoppedReached k s
  | .wrst t => Sys2Proof.Machine.execWrst t s
  | .retainRequest k dozeen => Sys2Proof.Machine.execRetainRequest k dozeen s
  | .offRequest k dozeen => Sys2Proof.Machine.execOffRequest k dozeen s
  | .wake k => Sys2Proof.Machine.execWake k s
  | .retainEntry k => Sys2Proof.Machine.execRetainEntry k s
  | .clusterPowerUp k => Sys2Proof.Machine.execClusterPowerUp k s
  | .dozeEntry k => Sys2Proof.Machine.execDozeEntry k s
  | .editswap c levels => Sys2Proof.Machine.execEditswap c levels s
  | .editCancel c levels => Sys2Proof.Machine.execEditCancel c levels s
  | .editTimeout c => Sys2Proof.Machine.execEditTimeout c s
  | .roleActive pause => Sys2Proof.Machine.execRoleActive pause s
  | .roleStandby pause => Sys2Proof.Machine.execRoleStandby pause s
  | .roleOff pause => Sys2Proof.Machine.execRoleOff pause s
  | .stbySync => Sys2Proof.Machine.execStbySync s
  | .frameRecord frame agrees err => Sys2Proof.Machine.execFrameRecord frame agrees err s
  | .inputRecord first words err => Sys2Proof.Machine.execInputRecord first words err s
  | .lineRecord line words err => Sys2Proof.Machine.execLineRecord line words err s
  | .editRecord c tag err => Sys2Proof.Machine.execEditRecord c tag err s
  | .heartbeat pause incomplete lines crc synced err => Sys2Proof.Machine.execHeartbeat pause incomplete lines crc synced err s
  | .timeLockChange tpLock => Sys2Proof.Machine.execTimeLockChange tpLock s
  | .pfOkRise => Sys2Proof.Machine.execPfOkRise s
  | .pfWarnFall => Sys2Proof.Machine.execPfWarnFall s
  | .snapshotDrainEnd k => Sys2Proof.Machine.execSnapshotDrainEnd k s
  | .monitorRecovery k margin temp => Sys2Proof.Machine.execMonitorRecovery k margin temp s
  | .scrubberStarved m => Sys2Proof.Machine.execScrubberStarved m s
  | .creditReturn p => Sys2Proof.Machine.execCreditReturn p s
  | .registerReadClear off => Sys2Proof.Machine.execRegisterReadClear off s

end Sys2Proof.Machine
end

