-- ==== Sys2Proof/Safety.lean ====
section
/-! DEFINITION. Safety.lean: the terms in which the statements speak of a run: a cell that is ready for an instruction, operands
that lie in its window, the state after an instruction, and the canonical form of the state's tables. -/

namespace Sys2Proof.Machine

open Sys2Proof

/-- Nothing comes before the effect of the instruction that cell `c` executes next (R97): the cell may issue, no breakpoint
matches, its code is fetched, the cluster's control store holds Onaed's image and no routine of another is under way, the form is
admitted, no missed spill waits, the guard passes, and the instruction is not repeated, or is a REP with iterations left. -/
structure State.Ready (s : State) (c : Nat) (x : Enc) (f : Form) : Prop where
  issue : s.canIssue c = true
  unbroken : s.breaks c = false
  fetched : s.fetch c (fetchLen x f.op) = .ok () s
  listed : s.asListed c = true
  formed : f.fault1 x = none
  unmissed : findMark ((s.cur c).dmark ++ (s.cur c).rmark) missSlot = none
  guarded : guardPasses x.guard (s.cur c) = true
  counted : x.rept = .once ∨ (x.rept = .rep ∧ (s.cur c).rc ≠ 0)
  unbegun : (s.cell c).micro = none

/-- The stack checks of R109 pass, every popped entry lies in its window, no window overflows, and no entry is marked, pending
or under a load shadow. -/
structure State.Fits (s : State) (c : Nat) (f : Form) : Prop where
  stack : f.pops = 0 ∧ f.pushes = 0 ∧ f.rpops = 0 ∧ f.rpushes = 0 ∨
    ((s.cur c).c[3]).usable = true ∧ ((s.cur c).c[3]).r = true ∧ ((s.cur c).c[3]).w = true
  depth : f.pops ≤ (s.cur c).depth
  rdepth : f.rpops ≤ (s.cur c).rdepth
  order : ((s.cur c).rsp.toNat : Int) - f.rpops + f.rpushes ≤ (s.cur c).dsp.toNat + f.pops - f.pushes
  held : f.pops ≤ (s.cur c).dw
  rheld : f.rpops ≤ (s.cur c).rw
  room : (s.cur c).dw ≤ 16 + f.pops - f.pushes
  rroom : (s.cur c).rw ≤ 8 + f.rpops - f.rpushes
  plain : (s.cur c).shadow = [] ∧ (s.cur c).dmark = [] ∧ (s.cur c).rmark = [] ∧ (s.cur c).pend = []

/-- The top `n` data entries, S0 first. -/
def State.top (s : State) (c n : Nat) : List Word := (List.range n).map (fun i => (s.cur c).dget ((s.cur c).slot i))

/-- The state after an instruction, or one iteration of a REP, whose effect left the running bank as `k`: RC counts the
iteration, and the completion follows; the PC moves on after the last one. -/
def State.after (s : State) (c : Nat) (x : Enc) (f : Form) (k : Bank) : State :=
  let rep := decide (x.rept = .rep)
  let t := s.setCur c k
  let t := if rep then t.modCur c (fun q => { q with rc := q.rc - 1 }) else t
  t.complete c (s.running c) (s.levelOf c) f (nextPc (s.cur c) x f.op) f.cyc (!rep || decide ((s.cur c).rc = 1)) false

/-! ## Operands and results as the chapters write them -/

/-- Operand item `i` of the words read, S0 first: a word, or under WIDE a doubleword (R116, R126). -/
def opU (x : Enc) (ws : List Word) (i : Nat) : Nat :=
  if x.wide then (dword (ws.getD (2 * i) 0) (ws.getD (2 * i + 1) 0)).toNat else (ws.getD i 0).toNat

/-- The same item as a signed number. -/
def opS (x : Enc) (ws : List Word) (i : Nat) : Int :=
  if x.wide then (dword (ws.getD (2 * i) 0) (ws.getD (2 * i + 1) 0)).toInt else (ws.getD i 0).toInt

/-- The immediate at the operand's width (R98). -/
def immU (x : Enc) : Nat := if x.wide then (BitVec.ofInt 72 (encImm x)).toNat else (BitVec.ofInt 36 (encImm x)).toNat
def immS (x : Enc) : Int := if x.wide then (BitVec.ofInt 72 (encImm x)).toInt else (BitVec.ofInt 36 (encImm x)).toInt

/-- The operands a and b of a two-operand instruction, b on top or the immediate. -/
def aU (x : Enc) (ws : List Word) : Nat := if x.ext = [] then opU x ws 1 else opU x ws 0
def bU (x : Enc) (ws : List Word) : Nat := if x.ext = [] then opU x ws 0 else immU x
def aS (x : Enc) (ws : List Word) : Int := if x.ext = [] then opS x ws 1 else opS x ws 0
def bS (x : Enc) (ws : List Word) : Int := if x.ext = [] then opS x ws 0 else immS x

/-- A number as pushed: its low 36 bits, or under WIDE its low 72 bits, the upper word first (R116). -/
def asPushed (x : Enc) (v : Int) : List Word :=
  if x.wide then [dhi (BitVec.ofInt 72 v), dlo (BitVec.ofInt 72 v)] else [BitVec.ofInt 36 v]

/-- result(v, lo, hi) of R130: pushed as it is in range; otherwise fault 4 with OVE, or OV and the value saturated or wrapped. -/
def ranged (x : Enc) (k : Bank) (lo hi v : Int) : Calc :=
  if lo ≤ v ∧ v ≤ hi then .ok (asPushed x v) k
  else if k.ove then .flt 4 1
  else .ok (asPushed x (if x.sat then max lo (min v hi) else v)) k.setOv

def rangedS (x : Enc) (k : Bank) (v : Int) : Calc :=
  if x.wide then ranged x k (-2 ^ 71) (2 ^ 71 - 1) v else ranged x k (-2 ^ 35) (2 ^ 35 - 1) v
def rangedU (x : Enc) (k : Bank) (v : Int) : Calc :=
  if x.wide then ranged x k 0 (2 ^ 72 - 1) v else ranged x k 0 (2 ^ 36 - 1) v

/-- The fault of an instruction of form `f` (R186): the listed count, then the entry of R264. -/
def State.faulted (s : State) (c : Nat) (f : Form) (e : CellFault) : State := s.faultAt c (s.levelOf c) f.cyc e

/-- A fault 2 whose check concerns no address: the address recorded is free (log entry 12). -/
def State.refused (s : State) (c : Nat) (f : Form) (info : Nat) : State :=
  s.tickFresh.faulted c f { code := 2, info := info, va := (Config.checkAddr s.fresh).toNat }

/-- The instruction that `mk` makes has the form `f` and, ready and with its operands in the window, the outcome `g` of its
popped words and its bank: it completes with the words pushed, or its fault is taken. -/
def Computes (mk : CellId → Enc → Instr) (f : Enc → Form) (g : Enc → List Word → Bank → Calc) : Prop :=
  ∀ (c : CellId) (x : Enc) (s : State), s.Ready c.toNat x (f x) → s.Fits c.toNat (f x) →
    exec (mk c x) s = .next (match g x (s.top c.toNat (f x).pops) (s.cur c.toNat) with
      | .ok push k => s.after c.toNat x (f x) ((k.popN (f x).pops).pushAll push)
      | .flt code info => s.faulted c.toNat (f x) { code := code, info := info })

/-- The instruction leaves the entries it reads on the stack; `g` of them and of the bank is the bank it completes with. -/
def Leaves (mk : CellId → Enc → Instr) (f : Enc → Form) (g : Enc → List Word → Bank → Bank) : Prop :=
  ∀ (c : CellId) (x : Enc) (s : State), s.Ready c.toNat x (f x) → s.Fits c.toNat (f x) →
    exec (mk c x) s = .next (s.after c.toNat x (f x) (g x (s.top c.toNat (f x).pops) (s.cur c.toNat)))

/-- The form of an instruction that pops `n` items and pushes `m`, which WIDE makes doublewords. -/
def wideForm (n m : Nat) (x : Enc) : Form :=
  { wide := true, pops := n * (if x.wide then 2 else 1), pushes := m * (if x.wide then 2 else 1) }

/-- The form of an instruction on plain words. -/
def wordForm (n m : Nat) (_ : Enc) : Form := { pops := n, pushes := m }

/-- The form of a two-operand instruction whose second operand may be an immediate of one to six syllables. -/
def pairedForm (m : Nat) (sat : Bool) (x : Enc) : Form :=
  { wideForm (if x.ext = [] then 2 else 1) m x with sat := sat, exts := [0, 1, 2, 3, 4, 5, 6] }

/-- Operand width in bits and in words. -/
def bitsOf (x : Enc) : Nat := if x.wide then 72 else 36
def wordsOf (x : Enc) : Nat := if x.wide then 2 else 1

/-- The word whose bit `i` is `f i`. -/
def wordOf (f : Nat → Bool) : Word := BitVec.ofNat 36 ((List.range 36).map (fun i => if f i then 2 ^ i else 0)).sum

/-- The count of a shift (R135): S0 as U36, or imm[6:0]; and the operand under it. -/
def countOf (x : Enc) (ws : List Word) : Nat := if x.ext = [] then (ws.getD 0 0).toNat else immU x % 128
def shiftedU (x : Enc) (ws : List Word) : Nat := if x.ext = [] then opU x (ws.drop 1) 0 else opU x ws 0
def shiftedS (x : Enc) (ws : List Word) : Int := if x.ext = [] then opS x (ws.drop 1) 0 else opS x ws 0
def shiftForm (x : Enc) : Form :=
  { wide := true, exts := [0, 1, 2], pops := wordsOf x + (if x.ext = [] then 1 else 0), pushes := wordsOf x }

/-- Position and width of a bit field (R136), and operand `i` besides them. -/
def posOf (x : Enc) (ws : List Word) : Nat := if x.ext = [] then (ws.getD 1 0).toNat % 64 else immU x / 64 % 64
def lenOf (x : Enc) (ws : List Word) : Nat := if x.ext = [] then (ws.getD 0 0).toNat % 64 else immU x % 64
def besides (x : Enc) (ws : List Word) (i : Nat) : Word := if x.ext = [] then ws.getD (2 + i) 0 else ws.getD i 0
def fieldForm (n : Nat) (x : Enc) : Form := { exts := [0, 2], pops := n + (if x.ext = [] then 2 else 0), pushes := 1 }

/-- The form of a comparison on items, and of an instruction on `n` words, that writes Pn. -/
def compareForm (p : BitVec 3) (x : Enc) : Form := { pairedForm 0 false x with pred := if p = 0 then none else some p.toNat }
def predForm (op n m : Nat) (p : BitVec 3) (_ : Enc) : Form :=
  { op := op, pops := n, pushes := m, pred := if p = 0 then none else some p.toNat }

/-- The quotient part of divide(a, b, lo, hi) of R131. -/
def divided (x : Enc) (k : Bank) (lo hi a b : Int) : Calc :=
  if b = 0 then if k.dze then .flt 3 1 else .ok (asPushed x (if a < 0 then lo else hi)) k.setDz
  else ranged x k lo hi (a.tdiv b)

/-- ACC0 or ACC1 takes result(v) as S80 (R130, R139). -/
def accumulated (x : Enc) (k : Bank) (one : Bool) (v : Int) : Calc :=
  let put (k : Bank) (v : Int) : Bank := if one then { k with acc1 := BitVec.ofInt 80 v } else { k with acc0 := BitVec.ofInt 80 v }
  if -2 ^ 79 ≤ v ∧ v ≤ 2 ^ 79 - 1 then .ok [] (put k v)
  else if k.ove then .flt 4 1
  else .ok [] (put k.setOv (if x.sat then max (-2 ^ 79) (min v (2 ^ 79 - 1)) else v))

/-- rnd(acc, n) of R140. -/
def rounded (acc : Int) (n : Nat) : Int := if n = 0 then acc else (acc + 2 ^ (n - 1)) / 2 ^ n

/-- Lane `j` of a bit-point word, and the word that the lanes make (R68, R69). -/
def digit (w : Word) (j : Nat) : Nat := w.toNat / 16 ^ j % 16
def nineLanes (f : Nat → Nat) : Word := BitVec.ofNat 36 ((List.range 9).map (fun j => f j * 16 ^ j)).sum
def laneZero (f : Nat → Nat) : Word := BitVec.ofNat 36 (f 0)

/-- The point word with VALUE and the quality of R80 over its operands, its validity at least `least` in the order good 0,
questionable 1, invalid 2 (R67, R81). -/
def pointWord (value : Int) (ws : List Word) (least : Nat) : Word :=
  BitVec.ofInt 36 (value % 2 ^ 32 + 2 ^ 32 * (b2n (ws.any (fun w => w.getLsbD 32)) + 2 * b2n (ws.any (fun w => w.getLsbD 33)) +
    4 * (([0, 3, 1] : List Nat).getD ((ws.map (fun w => rank (w.toNat / 2 ^ 34))).foldl max least) 0) : Nat))

/-- VALUE as S32. -/
def valueS (w : Word) : Int := (w.setWidth 32).toInt

/-- Integer overflow of point arithmetic (R145): result(v, -2^31, 2^31 - 1, 32), at least questionable when past. -/
def pointRanged (x : Enc) (k : Bank) (ws : List Word) (v : Int) : Calc :=
  if -2 ^ 31 ≤ v ∧ v ≤ 2 ^ 31 - 1 then .ok [pointWord v ws 0] k
  else if k.ove then .flt 4 1
  else .ok [pointWord (if x.sat then max (-2 ^ 31) (min v (2 ^ 31 - 1)) else v) ws 1] k.setOv

def pointForm (n cyc : Nat) (sat : Bool) (_ : Enc) : Form := { op := 2, sat := sat, cyc := cyc, pops := n, pushes := 1 }

/-- A binary32 result (R81, R146): a NaN is invalid, an infinity from finite operands at least questionable. -/
def floated (v : Nat) (ws : List Word) (k : Bank) : Calc :=
  let finite := ws.all (fun w => decide (w.toNat / 2 ^ 23 % 256 ≠ 255 ∨ w.toNat % 2 ^ 23 ≠ 0))
  .ok [pointWord v ws (if v % 2 ^ 31 > 0x7F800000 then 2 else if v % 2 ^ 31 = 0x7F800000 ∧ finite then 1 else 0)] k

def moveForm (n m : Nat) (rc : Bool) (_ : Enc) : Form := { op := 2, rep := false, rc := rc, pops := n, pushes := m }

/-- `exec` answers a next state, and `P` holds of it. -/
def Gives (i : Instr) (s : State) (P : State → Prop) : Prop := ∃ t, exec i s = .next t ∧ P t

/-! ## Accesses to memory -/

/-- Nothing of cell `c` waits in its store buffer, no instruction in progress has written, read or translated anything already, and
no bank of it is selected for debugging. -/
structure State.Quiet (s : State) (c : Nat) : Prop where
  drained : (s.cell c).sb = []
  unsent : (s.cell c).sent = []
  unseen : (s.cell c).seen = []
  unplaced : (s.cell c).xlat = []
  unwatched : s.get (Reg.CELL_DBSEL_BANKS c) = 0

/-- The word at virtual address `va` of the running bank lies at `p`, in the cell's own store or, outside Throughput mode, in its
cluster's memory; it is readable and holds no live stack entry. -/
structure State.Near (s : State) (c va : Nat) (p : Phys) : Prop where
  lands : s.translate c (s.cur c).dom.toNat va = some p
  plain : p.dev = false
  held : va < 0x4000 ∨ s.setHeld c = true
  place : (∃ key, s.area p.pa = .store key) ∧ s.reach c p.pa = .own ∨
    (∃ k, s.area p.pa = .cluster k) ∧ s.reach c p.pa = .cluster ∧ s.throughput c = false
  unlive : s.liveSlot c p.pa 0 = none
  clean : s.eccAt (s.key p.pa) = none
  powered : s.busBusy p.pa = false

/-- R159: the capability selector, the effective address, and the pointer's value after a successful access; `w` is the operand
that the mode takes from the stack. -/
def addressed (k : Bank) (x : Enc) (m : AddrMode) (w : Word) : BitVec 2 × Nat × Option VAddr :=
  let step : Int := wordsOf x * (if x.ext = [] then 1 else 2 ^ (encRaw x % 4))
  let p (n : BitVec 2) : Int := (k.ptr n).toNat
  match m with
  | .tos n => (n, w.toNat % 2 ^ 32, none)
  | .ptr n => (n, (k.ptr n).toNat, none)
  | .postInc n => (n, (k.ptr n).toNat, some (BitVec.ofInt 32 (p n + step)))
  | .preDec n => (n, ((p n - step) % 2 ^ 32).toNat, some (BitVec.ofInt 32 (p n - step)))
  | .indexed j n => (n, ((p n + w.toInt * 2 ^ j.toNat) % 2 ^ 32).toNat, none)
  | .disp n => (n, ((p n + encImm x) % 2 ^ 32).toNat, none)

/-- The pointer of a post-increment or pre-decrement takes its new value. -/
def Bank.moved (k : Bank) (a : BitVec 2 × Nat × Option VAddr) : Bank :=
  match a.2.2 with
  | some v => k.setPtr a.1 v
  | none => k

/-- The state after a write of register C2 (R157, R167): 6 cycles more outside Throughput mode, and a new fetch. -/
def State.refetched (s : State) (c : Nat) (d : BitVec 2) : State :=
  if d = 2 then (if s.throughput c then s else s.charge c 6).flushPq c else s

/-- An access outside the cell's store costs 23 cycles more (R157). -/
def State.accessed (s : State) (c n : Nat) (ph : Nat → Phys) : State :=
  if (List.range n).any (fun i => decide (s.reach c (ph i).pa = .cluster)) then s.charge c 23 else s

/-- The bank after a load that pops `n` entries and loads `ws`, S0 first (R116, R120): each loaded slot still shows what it held,
to the instruction that follows the last iteration. -/
def Bank.loaded (k : Bank) (n : Nat) (ws : List Word) (last : Bool) : Bank :=
  let p := k.popN n
  let q := p.pushAll ws.reverse
  if last then { q with shadow := ((List.range ws.length).reverse).map (fun i => (q.slot i, p.dget (q.slot i))) } else q

/-- The iteration in progress is the last one (R103). -/
def lastOf (x : Enc) (k : Bank) : Bool := decide (x.rept = .once) || decide (k.rc = 1)

/-- The store-buffer entry of a plain store. -/
def State.stored (s : State) (c : Nat) (p : Phys) (ws : List (Word × BitVec 4)) (tag dbl : Bool) : SbEntry :=
  { pa := p.pa, words := ws, tag := tag, dev := false, ret := s.retained p.via, bank := s.running c, issued := false, dbl := dbl }

/-- The form with the count that BR or CALL takes when it transfers (R193). -/
def State.listedForm (s : State) (c : Nat) (x : Enc) (f : Form) : Form :=
  if f.branch then { f with cyc := s.takenCount c x (s.cur c).pc.toNat } else f

/-- The state after an instruction that sets the PC itself. -/
def State.jumped (s : State) (c : Nat) (x : Enc) (f : Form) (k : Bank) : State :=
  (s.setCur c k).complete c (s.running c) (s.levelOf c) f (nextPc (s.cur c) x f.op) f.cyc true true

/-! ## What an event leaves -/

/-- A register of the distributor, which the unit lines of R381 write whenever a unit's condition changes. -/
def distributor (off : Nat) : Prop := 0x10000 ≤ off ∧ off < 0x12008

/-- A power register of a cluster in Doze or Retain, which a presentation may wake (R25, R394). -/
def State.wakeable (s : State) (off : Nat) : Prop :=
  ∃ k < 16, (s.power k = 1 ∨ s.power k = 2) ∧
    (off = (Reg.CLU_PWRCTL_REQ k).off ∨ off = (Reg.CLU_PWRSTAT_STATE k).off ∨ off = Reg.DBG_STAT_EMUL.off)

/-- `t` differs from `s` in the registers `regs` and the cells `cells` at most, besides the distributor's registers, what it
presents to the cells, and the power of a cluster that a presentation wakes, with the beats that its port then sends (R313). -/
structure State.Frame (s t : State) (regs cells : List Nat) : Prop where
  registers : ∀ off ∉ regs, ¬ distributor off → ¬ s.wakeable off → t.reg off = s.reg off
  others : ∀ c ∉ cells, t.cell c = s.cell c
  power : (∀ k < 16, s.power k ≠ 2) → t.pwr = s.pwr ∧ t.fab = s.fab
  rest : { t with ctl := s.ctl, cells := s.cells, presented := s.presented, withdrawn := s.withdrawn, pwr := s.pwr, fab := s.fab } = s

/-- `s` with the memory of `t`: its words, tags and stored errors. -/
def State.memoryOf (s t : State) : State := { s with mem := t.mem, tagA := t.tagA, tagB := t.tagB, ecc := t.ecc }

/-- Of cell `c`, bank `b` alone differs. -/
def State.onlyBank (s t : State) (c b : Nat) : Prop :=
  (∀ d ≠ b, t.bank c d = s.bank c d) ∧ { t.cell c with banks := (s.cell c).banks } = s.cell c

/-- No migration waits, no cluster waits for its drain to lose power, and no edit window waits to open. -/
structure State.Calm (s : State) : Prop where
  unmoved : s.rpr.migs = []
  powered : s.pwr.offDue = []
  shut : ∀ e ∈ s.cells, e.2.win = false ∧ e.2.tickDue = false

/-- The queue manager reads the descriptor of queue `q` without an error (R401). -/
structure State.Readable (s : State) (q : Nat) : Prop where
  usable : s.qBroken q = false
  clean : ∀ w < 4, s.eccAt (descAddr q w) = none

/-- The lines that units drive stand at their conditions' levels (R381). -/
def State.Settled (s : State) : Prop := ∀ src, 1 ≤ src → src ≤ 7 → s.irqLine src = s.unitLine src

/-- A saturating counter of `s` has counted once in `t` (R8). -/
def State.counted (s t : State) (f : Fld) : Prop := t.get f = min (s.get f + 1) (2 ^ f.len - 1)

/-- A source has fewer than four messages waiting (R460). -/
def State.room (s : State) (src : Nat) : Prop := (s.msgs.filter (fun m => decide (m.src = src))).length < 4

/-- A message that carries INFO, and one that carries an address. -/
def infoMsg (src kind cls info : Nat) : Msg := { src := src, kind := BitVec.ofNat 8 kind, cls := cls, av := false, pers := false, info := info }
def addrMsg (src kind cls pa : Nat) : Msg := { src := src, kind := BitVec.ofNat 8 kind, cls := cls, av := true, pers := false, info := pa }

/-! ## The invariant -/

/-- What holds of the waiting commands, the registers, the memories with their tags, the cells and Moraine's messages, and of
the last corrected addresses and the row candidates. -/
structure Sound (p : List Instr) (pending : List Instr) (ctl : List (Nat × Word)) (ctlTagA ctlTagB : List Nat)
    (mem : List (Nat × Word)) (tagA tagB : List Nat) (cells : List (Nat × Cell)) (msgs : List Msg) (corr : List (Nat × Bool)) (cands : List Nat) : Prop where
  /-- the waiting commands are `p` -/
  queue : pending = p
  /-- each table lists its keys in rising order, and no entry equal to what an unlisted key reads as -/
  ctl : swf resetWord ctl = true
  ctlTagA : setWf ctlTagA = true
  ctlTagB : setWf ctlTagB = true
  mem : swf (fun _ => 0) mem = true
  tagA : setWf tagA = true
  tagB : setWf tagB = true
  cells : swf (fun _ => Cell.reset) cells = true
  /-- a source has at most four messages waiting (R460) -/
  msgs : ∀ src, (msgs.filter (fun m => decide (m.src = src))).length ≤ 4
  /-- the last 64 corrected addresses are kept (R488), and 16 candidates wait (R489) -/
  corr : corr.length ≤ 64
  cands : cands.length ≤ 16

/-- The state's tables are sound and its waiting commands are `p`. -/
def State.Good (p : List Instr) (s : State) : Prop :=
  Sound p s.pending s.ctl s.ctlTagA s.ctlTagB s.mem s.tagA s.tagB s.cells s.msgs s.rpr.corr s.rpr.cands

/-- THE INVARIANT: the state's tables are sound. -/
def State.Inv (s : State) : Prop := s.Good s.pending

end Sys2Proof.Machine
end

