-- ==== Sys2Proof/Certificates/Slice0/Obligations.lean ====
section
/-! DEFINITION. Obligations.lean: the statements for the provers. -/

open Sys2Proof Sys2Proof.Machine

/-! ## The step and the queue -/

/-- A step runs the command at the front of the queue on the state with the rest of the queue; with no command waiting the
block idles (the queue is the model's own: log entry 1). -/
def Obligations.StepRunsFrontCommand : Prop :=
  ∀ (i : Instr) (rest : List Instr) (s : State),
    step { s with pending := i :: rest } = exec i { s with pending := rest } ∧ step { s with pending := [] } = .next { s with pending := [] }

/-! ## Instructions of a cell -/

/-- R132, R133, R99: the stack operations. The entries that an operation keeps stay in the ring as they are. -/
def Obligations.StackOperations : Prop :=
  (∀ short : BitVec 6, Computes (fun c x => .lit c x short)
    (fun x => { wideForm 0 1 x with exts := if x.wide then [0, 1, 2, 3, 4, 5, 6] else [0, 1, 2, 3, 4, 5] })
    (fun x _ k => .ok (asPushed x (sextNat (short.toNat * 64 ^ x.ext.length + encRaw x) (6 * (x.ext.length + 1)))) k)) ∧
  Computes .nop (wordForm 0 0) (fun _ _ k => .ok [] k) ∧
  Computes .drop (wideForm 1 0) (fun _ _ k => .ok [] k) ∧
  Leaves .dup (wideForm 1 2) (fun x ws k => k.pushAll (asPushed x (opU x ws 0))) ∧
  Leaves .over (wideForm 2 3) (fun x ws k => k.pushAll (asPushed x (opU x ws 1))) ∧
  Leaves .pick (fun x => { exts := [1], bad := decide (encRaw x % 16 = 15), pops := encRaw x % 16 + 1, pushes := encRaw x % 16 + 2 })
    (fun x ws k => k.push (ws.getD (encRaw x % 16) 0)) ∧
  Computes .swap (wideForm 2 2) (fun x ws k => .ok (asPushed x (opU x ws 0) ++ asPushed x (opU x ws 1)) k) ∧
  Computes .rot (wordForm 3 3) (fun _ ws k => .ok [ws.getD 1 0, ws.getD 0 0, ws.getD 2 0] k) ∧
  Computes .nip (wordForm 2 1) (fun _ ws k => .ok [ws.getD 0 0] k) ∧
  Computes .tuck (wordForm 2 3) (fun _ ws k => .ok [ws.getD 0 0, ws.getD 1 0, ws.getD 0 0] k)

/-- R130, R134: integer arithmetic with SAT, WIDE and immediates; minima, maxima and bitwise logic, which set no flag. -/
def Obligations.IntegerInstructions : Prop :=
  (
    Computes .add (pairedForm 1 true) (fun x ws k => rangedS x k (aS x ws + bS x ws)) ∧
    Computes .sub (pairedForm 1 true) (fun x ws k => rangedS x k (aS x ws - bS x ws)) ∧
    Computes .addu (pairedForm 1 true) (fun x ws k => rangedU x k (aU x ws + bU x ws)) ∧
    Computes .subu (pairedForm 1 true) (fun x ws k => rangedU x k (aU x ws - bU x ws)) ∧
    Computes .neg (fun x => { wideForm 1 1 x with sat := true }) (fun x ws k => rangedS x k (- opS x ws 0)) ∧
    Computes .abs (fun x => { wideForm 1 1 x with sat := true }) (fun x ws k => rangedS x k |opS x ws 0|)) ∧
  (
    Computes .min (pairedForm 1 false) (fun x ws k => .ok (asPushed x (min (aS x ws) (bS x ws))) k) ∧
    Computes .max (pairedForm 1 false) (fun x ws k => .ok (asPushed x (max (aS x ws) (bS x ws))) k) ∧
    Computes .minu (pairedForm 1 false) (fun x ws k => .ok (asPushed x (min (aU x ws) (bU x ws) : Nat)) k) ∧
    Computes .maxu (pairedForm 1 false) (fun x ws k => .ok (asPushed x (max (aU x ws) (bU x ws) : Nat)) k) ∧
    Computes .and (pairedForm 1 false) (fun x ws k => .ok (asPushed x (aU x ws &&& bU x ws : Nat)) k) ∧
    Computes .or (pairedForm 1 false) (fun x ws k => .ok (asPushed x (aU x ws ||| bU x ws : Nat)) k) ∧
    Computes .xor (pairedForm 1 false) (fun x ws k => .ok (asPushed x (aU x ws ^^^ bU x ws : Nat)) k) ∧
    Computes .andn (pairedForm 1 false) (fun x ws k => .ok (asPushed x (aU x ws - (aU x ws &&& bU x ws) : Nat)) k) ∧
    Computes .not (wideForm 1 1) (fun x ws k => .ok (asPushed x (-1 - (opU x ws 0 : Int))) k))

/-- R135: shifts, which take the whole of S0 as their count, leading zeros and the number of 1 bits. -/
def Obligations.Shifts : Prop :=
  Computes .shl shiftForm (fun x ws k => .ok (asPushed x (shiftedU x ws * 2 ^ countOf x ws : Nat)) k) ∧
  Computes .shr shiftForm (fun x ws k => .ok (asPushed x (shiftedU x ws / 2 ^ countOf x ws : Nat)) k) ∧
  Computes .sar shiftForm (fun x ws k => .ok (asPushed x (shiftedS x ws / 2 ^ countOf x ws)) k) ∧
  Computes .rol shiftForm (fun x ws k =>
    .ok (asPushed x ((BitVec.ofNat (bitsOf x) (shiftedU x ws)).rotateLeft (countOf x ws)).toNat) k) ∧
  Computes .clz (fun x => { wideForm 1 1 x with pushes := 1 }) (fun x ws k => .ok [BitVec.ofNat 36 (bitsOf x - (opU x ws 0).size)] k) ∧
  Computes .popc (fun x => { wideForm 1 1 x with pushes := 1 }) (fun x ws k => .ok [BitVec.ofNat 36 ((opU x ws 0).bits.count true)] k)

/-- R136, R137: bit fields and nonet permutation, bit by bit. -/
def Obligations.BitFields : Prop :=
  Computes .ins (fieldForm 2) (fun x ws k => .ok [wordOf (fun i =>
    if posOf x ws ≤ i ∧ i < posOf x ws + lenOf x ws then (besides x ws 0).getLsbD (i - posOf x ws) else (besides x ws 1).getLsbD i)] k) ∧
  Computes .ext (fieldForm 1) (fun x ws k => .ok [wordOf (fun i =>
    decide (i < lenOf x ws) && (besides x ws 0).getLsbD (posOf x ws + i))] k) ∧
  Computes .exts (fieldForm 1) (fun x ws k => .ok [wordOf (fun i =>
    if 1 ≤ lenOf x ws ∧ lenOf x ws ≤ 36 then (besides x ws 0).getLsbD (posOf x ws + min i (lenOf x ws - 1))
    else decide (i < lenOf x ws) && (besides x ws 0).getLsbD (posOf x ws + i))] k) ∧
  Computes .nperm (fun x => { exts := [0, 2], pops := if x.ext = [] then 2 else 1, pushes := 1 }) (fun x ws k =>
    let sel := if x.ext = [] then (ws.getD 0 0).toNat else immU x
    let a := if x.ext = [] then ws.getD 1 0 else ws.getD 0 0
    .ok [wordOf (fun i => a.getLsbD (9 * (sel / 4 ^ (i / 9) % 4) + i % 9))] k)

/-- R129, R138, R273: where the flags of the arithmetic lie, and that setting one changes nothing else; what a write of Pn does,
which for P0 is discarded.

R138: comparisons and predicates. -/
def Obligations.FlagsAndComparisons : Prop :=
  (
    (∀ k : Bank, k.ove = k.flags.getLsbD 1 ∧ k.dze = k.flags.getLsbD 3 ∧
      k.setOv = { k with flags := k.flags ||| 1 } ∧ k.setDz = { k with flags := k.flags ||| 4 } ∧ k.mp = k.flags.toNat / 64 % 16) ∧
    ∀ (k : Bank) (n m : BitVec 3) (b : Bool),
      (k.setPred n b).p.getLsbD m.toNat = (if n = m ∧ n ≠ 0 then b else k.p.getLsbD m.toNat) ∧
      { k.setPred n b with p := k.p } = k) ∧
  (
    ∀ p : BitVec 3,
      Computes (fun c x => .ceq c x p) (compareForm p) (fun x ws k => .ok [] (k.setPred p (decide (aU x ws = bU x ws)))) ∧
      Computes (fun c x => .clt c x p) (compareForm p) (fun x ws k => .ok [] (k.setPred p (decide (aS x ws < bS x ws)))) ∧
      Computes (fun c x => .cltu c x p) (compareForm p) (fun x ws k => .ok [] (k.setPred p (decide (aU x ws < bU x ws)))) ∧
      Computes (fun c x => .pget c x p) (wordForm 0 1) (fun _ _ k => .ok [if k.p.getLsbD p.toNat then 1 else 0] k) ∧
      Computes (fun c x => .pset c x p) (predForm 1 1 0 p) (fun _ ws k => .ok [] (k.setPred p ((ws.getD 0 0).getLsbD 0))) ∧
      Computes (fun c x => .pand c x p) (predForm 2 1 0 p)
        (fun _ ws k => .ok [] (k.setPred p (k.p.getLsbD p.toNat && (ws.getD 0 0).getLsbD 0))) ∧
      Computes (fun c x => .por c x p) (predForm 2 1 0 p)
        (fun _ ws k => .ok [] (k.setPred p (k.p.getLsbD p.toNat || (ws.getD 0 0).getLsbD 0))))

/-- R139 to R141: the multiplier. MUL under WIDE pushes the exact product of its words.

R131, R142: the long operations. -/
def Obligations.MultiplicationAndDivision : Prop :=
  (
    let form (op : Nat) (wide sat : Bool) (x : Enc) : Form :=
      { op := op, exts := [0, 1, 2, 3, 4, 5, 6], wide := wide, sat := sat, bad := wide && sat && x.wide && x.sat, cyc := 2,
        pops := if x.ext = [] then 2 else 1, pushes := wordsOf x }
    let plain (x : Enc) : Enc := { x with wide := false }
    Computes .mul (form 1 true true) (fun x ws k =>
      let v := aS (plain x) ws * bS (plain x) ws
      if x.wide then .ok (asPushed x v) k else rangedS x k v) ∧
    Computes .mulh (form 1 false false) (fun x ws k => .ok [BitVec.ofInt 36 (aS x ws * bS x ws / 2 ^ 36)] k) ∧
    Computes .mulhu (form 1 false false) (fun x ws k => .ok [BitVec.ofNat 36 (aU x ws * bU x ws / 2 ^ 36)] k) ∧
    Computes .fmul (form 2 false true) (fun x ws k => rangedS x k ((aS x ws * bS x ws + 2 ^ 29) / 2 ^ 30))) ∧
  (
    let form (sat : Bool) (_ : Enc) : Form := { sat := sat, cyc := 38, fixed := true, pops := 2, pushes := 1 }
    Computes .div (form true) (fun x ws k => divided x k (-2 ^ 35) (2 ^ 35 - 1) (ws.getD 1 0).toInt (ws.getD 0 0).toInt) ∧
    Computes .divu (form false) (fun x ws k => divided x k 0 (2 ^ 36 - 1) (ws.getD 1 0).toNat (ws.getD 0 0).toNat) ∧
    Computes .mod (form false) (fun _ ws k =>
      if ws.getD 0 0 = 0 then if k.dze then .flt 3 1 else .ok [ws.getD 1 0] k.setDz
      else .ok [BitVec.ofInt 36 ((ws.getD 1 0).toInt.tmod (ws.getD 0 0).toInt)] k) ∧
    Computes .sqrt (fun x => { wideForm 1 1 x with cyc := if x.wide then 38 else 20, fixed := true, pushes := 1 })
      (fun x ws k => .ok [BitVec.ofNat 36 (opU x ws 0).sqrt] k))

/-- R139, R140: the accumulators. -/
def Obligations.Accumulators : Prop :=
  let form (op : Nat) (_ : Enc) : Form := { op := op, sat := true, pops := 2 }
  let product (ws : List Word) : Int := (ws.getD 1 0).toInt * (ws.getD 0 0).toInt
  let read (x : Enc) : Form :=
    { op := 2, exts := [0, 1, 2], wide := true, sat := true, cyc := 2, pops := if x.ext = [] then 1 else 0, pushes := wordsOf x }
  Computes .mac0 (form 1) (fun x ws k => accumulated x k false (k.acc0.toInt + product ws)) ∧
  Computes .mac1 (form 1) (fun x ws k => accumulated x k true (k.acc1.toInt + product ws)) ∧
  Computes .msu0 (form 2) (fun x ws k => accumulated x k false (k.acc0.toInt - product ws)) ∧
  Computes .msu1 (form 2) (fun x ws k => accumulated x k true (k.acc1.toInt - product ws)) ∧
  Computes .accclr0 (fun _ => { op := 2 }) (fun _ _ k => .ok [] { k with acc0 := 0 }) ∧
  Computes .accclr1 (fun _ => { op := 2 }) (fun _ _ k => .ok [] { k with acc1 := 0 }) ∧
  Computes .accrd0 read (fun x ws k => rangedS x k (rounded k.acc0.toInt (countOf x ws))) ∧
  Computes .accrd1 read (fun x ws k => rangedS x k (rounded k.acc1.toInt (countOf x ws)))

/-- R73 to R76: the lane functions on all lanes, against the tables of R73 and R74 in the order G0 G1 Q0 Q1 I0 I1, with the
reserved code read as invalid (R66), and the test bits of R75.

R143: point logic, lane by lane; the S forms compute lane 0 alone. -/
def Obligations.LogicOfLanes : Prop :=
  (
    let place (l : Nat) : Nat := 2 * rank (l / 2 % 4) + l % 2
    let lane (i tst : Nat) : Nat := i % 2 + 2 * ([0, 3, 1] : List Nat).getD (i / 2) 0 + 8 * tst
    let andTable : List (List Nat) := [[0, 0, 0, 0, 0, 0], [0, 1, 2, 3, 4, 5], [0, 2, 2, 2, 4, 4], [0, 3, 2, 3, 4, 5],
      [0, 4, 4, 4, 4, 4], [0, 5, 4, 5, 4, 5]]
    let orTable : List (List Nat) := [[0, 1, 2, 3, 4, 5], [1, 1, 1, 1, 1, 1], [2, 1, 2, 3, 4, 5], [3, 1, 3, 3, 5, 5],
      [4, 1, 4, 5, 4, 5], [5, 1, 5, 5, 5, 5]]
    let test (d a b : Nat) : Nat :=
      if place a = d ∧ place b = d then min (a / 8) (b / 8) else if place a = d then a / 8 else if place b = d then b / 8
      else max (a / 8) (b / 8)
    ∀ a < 16, ∀ b < 16,
      bandLane a b = lane ((andTable.getD (place a) []).getD (place b) 0) (test 0 a b) ∧
      borLane a b = lane ((orTable.getD (place a) []).getD (place b) 0) (test 1 a b) ∧
      bxorLane a b = lane (2 * max (place a / 2) (place b / 2) + (a + b) % 2) (max (a / 8) (b / 8)) ∧
      bnotLane a = lane (2 * (place a / 2) + (a + 1) % 2) (a / 8)) ∧
  (
    let two (g : (Nat → Nat) → Word) (f : Nat → Nat → Nat) (_ : Enc) (ws : List Word) (k : Bank) : Calc :=
      .ok [g (fun j => f (digit (ws.getD 1 0) j) (digit (ws.getD 0 0) j))] k
    let one (g : (Nat → Nat) → Word) (_ : Enc) (ws : List Word) (k : Bank) : Calc :=
      .ok [g (fun j => bnotLane (digit (ws.getD 0 0) j))] k
    let three (f : Nat → Nat → Nat → Nat) (_ : Enc) (ws : List Word) (k : Bank) : Calc :=
      .ok [nineLanes (fun j => f (digit (ws.getD 2 0) j) (digit (ws.getD 1 0) j) (digit (ws.getD 0 0) j))] k
    Computes .band (wordForm 2 1) (two nineLanes bandLane) ∧
    Computes .bor (wordForm 2 1) (two nineLanes borLane) ∧
    Computes .bxor (wordForm 2 1) (two nineLanes bxorLane) ∧
    Computes .bnot (wordForm 1 1) (one nineLanes) ∧
    Computes .bands (wordForm 2 1) (two laneZero bandLane) ∧
    Computes .bors (wordForm 2 1) (two laneZero borLane) ∧
    Computes .bxors (wordForm 2 1) (two laneZero bxorLane) ∧
    Computes .bnots (wordForm 1 1) (one laneZero) ∧
    Computes .rise (wordForm 2 1) (two nineLanes (fun a p => bandLane a (bnotLane p))) ∧
    Computes .fall (wordForm 2 1) (two nineLanes (fun a p => bandLane (bnotLane a) p)) ∧
    Computes .setp (wordForm 3 1) (three (fun q a r => borLane a (bandLane q (bnotLane r)))) ∧
    Computes .rstp (wordForm 3 1) (three (fun q a r => bandLane (bnotLane r) (borLane a q))))

/-- R80, R81, R131, R145, R148: integer point arithmetic and PQMRG. -/
def Obligations.PointArithmetic : Prop :=
  let a (ws : List Word) : Int := valueS (ws.getD 1 0)
  let b (ws : List Word) : Int := valueS (ws.getD 0 0)
  Computes .paddI (pointForm 2 1 true) (fun x ws k => pointRanged x k ws (a ws + b ws)) ∧
  Computes .psubI (pointForm 2 1 true) (fun x ws k => pointRanged x k ws (a ws - b ws)) ∧
  Computes .pmulI (pointForm 2 2 true) (fun x ws k => pointRanged x k ws (a ws * b ws)) ∧
  Computes .pdivI (fun x => { pointForm 2 40 true x with fixed := true }) (fun x ws k =>
    if b ws = 0 then
      if k.dze then .flt 3 1 else .ok [pointWord (if a ws < 0 then -2 ^ 31 else 2 ^ 31 - 1) ws 2] k.setDz
    else pointRanged x k ws ((a ws).tdiv (b ws))) ∧
  Computes .pnegI (pointForm 1 1 true) (fun x ws k => pointRanged x k ws (- b ws)) ∧
  Computes .pqmrg (pointForm 2 1 false) (fun _ ws k => .ok [pointWord (a ws) ws 0] k)

/-- R131, R146, R147: binary32 point arithmetic, over the operations that Binary32Rounding describes; PNEG.F
inverts bit 31 of every operand (log entry 61). -/
def Obligations.FloatArithmetic : Prop :=
  let value (ws : List Word) (i : Nat) : Nat := (ws.getD i 0).toNat % 2 ^ 32
  let a (ws : List Word) : F32 := f32Of (value ws 1)
  let b (ws : List Word) : F32 := f32Of (value ws 0)
  Computes .paddF (pointForm 2 3 false) (fun _ ws k => floated (f32Add (a ws) (b ws)) ws k) ∧
  Computes .psubF (pointForm 2 3 false) (fun _ ws k => floated (f32Add (a ws) (b ws).neg?) ws k) ∧
  Computes .pmulF (pointForm 2 3 false) (fun _ ws k => floated (f32Mul (a ws) (b ws)) ws k) ∧
  Computes .pdivF (fun x => { pointForm 2 30 false x with fixed := true }) (fun _ ws k =>
    if value ws 0 % 2 ^ 31 = 0 then
      if k.dze then .flt 3 2 else .ok [pointWord (if value ws 1 ≥ 2 ^ 31 then 0xFF7FFFFF else 0x7F7FFFFF) ws 2] k.setDz
    else floated (f32Div (a ws) (b ws)) ws k) ∧
  Computes .pnegF (pointForm 1 1 false) (fun _ ws k => floated ((value ws 0 + 2 ^ 31) % 2 ^ 32) ws k) ∧
  Computes .pcvtif (pointForm 1 3 false) (fun _ ws k =>
    floated (f32Round (decide (valueS (ws.getD 0 0) < 0)) (valueS (ws.getD 0 0)).natAbs 0 false) ws k) ∧
  Computes .pcvtfi (pointForm 1 3 false) (fun _ ws k =>
    let past (v : Int) : Calc := if k.ove then .flt 4 2 else .ok [pointWord v ws 1] k.setOv
    match b ws with
    | .nan => .ok [pointWord 0 ws 2] k
    | .inf n => past (if n then -2 ^ 31 else 2 ^ 31 - 1)
    | .fin n m e =>
      let v := f32ToInt n m e
      if v < -2 ^ 31 then past (-2 ^ 31) else if 2 ^ 31 - 1 < v then past (2 ^ 31 - 1) else .ok [pointWord v ws 0] k)

/-- R146, R147: rounding to nearest, ties to even. A number of magnitude v becomes a pattern of its sign whose magnitude is as
near to v as that of any finite pattern; an infinity only from 2^128 - 2^103 on; of two that are equally near, an even one.
The sum, the product and the quotient of two finite numbers are their exact sum, product and quotient rounded so, a sum of 0
is -0 only of two negative zeros, and the integer nearest to a number is even of two that are equally near. Infinities and
NaNs follow IEEE 754, and every NaN result is 0x7FC00000. -/
def Obligations.Binary32Rounding : Prop :=
  let value (x : F32) : ℚ := match x with
    | .fin n m e => (if n then -1 else 1) * (m : ℚ) * 2 ^ e
    | _ => 0
  let nearest (neg : Bool) (v : ℚ) (r : Nat) : Prop :=
    r / 2 ^ 31 = b2n neg ∧ r < 2 ^ 32 ∧
    (r % 2 ^ 31 = 0x7F800000 ∧ 2 ^ 128 - 2 ^ 103 ≤ v ∨
      r % 2 ^ 31 < 0x7F800000 ∧ v < 2 ^ 128 - 2 ^ 103 ∧
      ∀ p < 0x7F800000, |v - value (f32Of (r % 2 ^ 31))| < |v - value (f32Of p)| ∨
        |v - value (f32Of (r % 2 ^ 31))| = |v - value (f32Of p)| ∧ (p = r % 2 ^ 31 ∨ r % 2 = 0))
  let infinity (neg : Bool) : Nat := (if neg then 2 ^ 31 else 0) + 0x7F800000
  (∀ (neg : Bool) (m : Nat) (e : Int), nearest neg ((m : ℚ) * 2 ^ e) (f32Round neg m e false)) ∧
  (∀ i < 2 ^ 32, ∀ j < 2 ^ 32, ∀ (n k : Bool) (m p : Nat) (e f : Int), f32Of i = .fin n m e → f32Of j = .fin k p f →
    let a := value (f32Of i)
    let b := value (f32Of j)
    (a + b ≠ 0 → nearest (decide (a + b < 0)) |a + b| (f32Add (f32Of i) (f32Of j))) ∧
    (a + b = 0 → f32Add (f32Of i) (f32Of j) = if n && k then 2 ^ 31 else 0) ∧
    nearest (n != k) |a * b| (f32Mul (f32Of i) (f32Of j)) ∧
    (p ≠ 0 → nearest (n != k) |a / b| (f32Div (f32Of i) (f32Of j)))) ∧
  (∀ (n : Bool) (m : Nat) (e : Int),
    let near := |(f32ToInt n m e : ℚ) - value (.fin n m e)|
    near < 1 / 2 ∨ near = 1 / 2 ∧ f32ToInt n m e % 2 = 0) ∧
  (∀ x : F32, f32Add .nan x = 0x7FC00000 ∧ f32Add x .nan = 0x7FC00000 ∧ f32Mul .nan x = 0x7FC00000 ∧ f32Mul x .nan = 0x7FC00000 ∧
    f32Div .nan x = 0x7FC00000 ∧ f32Div x .nan = 0x7FC00000) ∧
  (∀ n k : Bool, f32Add (.inf n) (.inf k) = (if n = k then infinity n else 0x7FC00000) ∧ f32Mul (.inf n) (.inf k) = infinity (n != k) ∧
    f32Div (.inf n) (.inf k) = 0x7FC00000 ∧
    ∀ (m : Nat) (e : Int), f32Add (.inf n) (.fin k m e) = infinity n ∧ f32Add (.fin k m e) (.inf n) = infinity n ∧
      f32Mul (.inf n) (.fin k m e) = (if m = 0 then 0x7FC00000 else infinity (n != k)) ∧
      f32Mul (.fin k m e) (.inf n) = (if m = 0 then 0x7FC00000 else infinity (n != k)) ∧
      f32Div (.inf n) (.fin k m e) = infinity (n != k) ∧ f32Div (.fin k m e) (.inf n) = if k != n then 2 ^ 31 else 0)

/-- R149: point comparisons, by value alone, and quality tests, which leave their operand on the stack. -/
def Obligations.PointTests : Prop :=
  ∀ p : BitVec 3,
    let compare (f : Word → Word → Bool) (_ : Enc) (ws : List Word) (k : Bank) : Calc :=
      .ok [] (k.setPred p (f (ws.getD 1 0) (ws.getD 0 0)))
    let test (f : Word → Bool) (_ : Enc) (ws : List Word) (k : Bank) : Bank := k.setPred p (f (ws.getD 0 0))
    let real (w : Word) : F32 := f32Of (w.toNat % 2 ^ 32)
    Computes (fun c x => .pceqI c x p) (predForm 2 2 0 p) (compare (fun a b => decide (a.setWidth 32 = b.setWidth 32))) ∧
    Computes (fun c x => .pcltI c x p) (predForm 2 2 0 p) (compare (fun a b => decide (valueS a < valueS b))) ∧
    Computes (fun c x => .pceqF c x p) (predForm 2 2 0 p) (compare (fun a b => f32Eq (real a) (real b))) ∧
    Computes (fun c x => .pcltF c x p) (predForm 2 2 0 p) (compare (fun a b => f32Less (real a) (real b))) ∧
    Leaves (fun c x => .qgd c x p) (predForm 2 1 1 p) (test (fun a => !a.getLsbD 34 && !a.getLsbD 35)) ∧
    Leaves (fun c x => .qiv c x p) (predForm 2 1 1 p) (test (fun a => a.getLsbD 34 != a.getLsbD 35)) ∧
    Leaves (fun c x => .qts c x p) (predForm 2 1 1 p) (test (fun a => a.getLsbD 33)) ∧
    Leaves (fun c x => .qsb c x p) (predForm 2 1 1 p) (test (fun a => a.getLsbD 32)) ∧
    Leaves (fun c x => .bqg c x p) (predForm 2 1 1 p) (test (fun a => !a.getLsbD 1 && !a.getLsbD 2)) ∧
    Leaves (fun c x => .bqt c x p) (predForm 2 1 1 p) (test (fun a => a.getLsbD 3))

/-- R168: moves between the stack and the bank's registers.

R114, R169: SETDSP and SETRSP, the window holding the operand alone: the order of the pointers is checked, with the pointer that
is not set as it stands after the pop. -/
def Obligations.RegistersAndPointers : Prop :=
  (
    let guardOf (v : Acc) : Word := BitVec.ofInt 36 (v.extractLsb' 72 8).toInt
    let acc (ws : List Word) : Acc := (ws.getD 2 0).extractLsb' 0 8 ++ (ws.getD 1 0 ++ ws.getD 0 0)
    (∀ a : BitVec 2,
      Computes (fun c x => .geta c x a) (moveForm 0 1 false) (fun _ _ k => .ok [BitVec.ofNat 36 (k.a[a.toNat]'a.isLt).toNat] k) ∧
      Computes (fun c x => .seta c x a) (moveForm 1 0 false) (fun _ ws k =>
        .ok [] { k with a := k.a.set a.toNat (BitVec.ofNat 32 (ws.getD 0 0).toNat) a.isLt }) ∧
      Computes (fun c x => .adda c x a) (moveForm 1 0 false) (fun _ ws k =>
        .ok [] { k with a := k.a.set a.toNat (BitVec.ofInt 32 ((k.a[a.toNat]'a.isLt).toNat + (ws.getD 0 0).toInt)) a.isLt })) ∧
    Computes .getrc (moveForm 0 1 false) (fun _ _ k => .ok [k.rc] k) ∧
    Computes .setrc (moveForm 1 0 true) (fun _ ws k => .ok [] { k with rc := ws.getD 0 0 }) ∧
    Computes .getdsp (moveForm 0 1 false) (fun _ _ k => .ok [BitVec.ofNat 36 k.dsp.toNat] k) ∧
    Computes .getrsp (moveForm 0 1 false) (fun _ _ k => .ok [BitVec.ofNat 36 k.rsp.toNat] k) ∧
    Computes .getfl (moveForm 0 1 false) (fun _ _ k => .ok [k.flags] k) ∧
    Computes .setfl (moveForm 1 0 false) (fun _ ws k => .ok [] { k with flags := ws.getD 0 0 &&& 0x3CF }) ∧
    Computes .getacc0 (moveForm 0 3 false)
      (fun _ _ k => .ok [guardOf k.acc0, k.acc0.extractLsb' 36 36, k.acc0.extractLsb' 0 36] k) ∧
    Computes .getacc1 (moveForm 0 3 false)
      (fun _ _ k => .ok [guardOf k.acc1, k.acc1.extractLsb' 36 36, k.acc1.extractLsb' 0 36] k) ∧
    Computes .setacc0 (moveForm 3 0 false) (fun _ ws k => .ok [] { k with acc0 := acc ws }) ∧
    Computes .setacc1 (moveForm 3 0 false) (fun _ ws k => .ok [] { k with acc1 := acc ws })) ∧
  (
    ∀ (c : CellId) (x : Enc) (s : State),
      let f : Form := { op := 2, rep := false, cyc := 2, pops := 1 }
      let k := s.cur c.toNat
      let v := ((s.top c.toNat 1).getD 0 0).toNat % 2 ^ 32
      let base := (k.c[3]).lo.toNat % 2 ^ 32
      let top := base + (k.c[3]).hi.toNat % 2 ^ 28
      s.Ready c.toNat x f → s.Fits c.toNat f → k.dw = 1 → k.rw = 0 →
      exec (.setdsp c x) s = .next (if base ≤ k.rsp.toNat ∧ k.rsp.toNat ≤ v ∧ v ≤ top
        then s.after c.toNat x f { k.popN 1 with dsp := BitVec.ofNat 32 v } else s.faulted c.toNat f { code := 5, info := 4 }) ∧
      exec (.setrsp c x) s = .next (if base ≤ v ∧ v ≤ (k.dsp + 1).toNat ∧ (k.dsp + 1).toNat ≤ top
        then s.after c.toNat x f { k.popN 1 with rsp := BitVec.ofNat 32 v } else s.faulted c.toNat f { code := 5, info := 4 }))

/-- R117, R118, R159 to R163: loads of words and doublewords in every mode, from the cell's store at once and, outside Throughput
mode, from its cluster's memory, whose data come later (R190, R191): the cell waits for them. No memory word changes, and the
loaded slots show their old content to the next instruction. -/
def Obligations.Loads : Prop :=
  ∀ (c : CellId) (x : Enc) (m : AddrMode) (s : State) (ph : Nat → Phys),
    let n := wordsOf x
    let k := s.cur c.toNat
    let a := addressed k x m ((s.top c.toNat 1).getD 0 0)
    s.Ready c.toNat x (loadForm x m false) → s.Fits c.toNat (loadForm x m false) → s.Quiet c.toNat →
    (k.cap a.1).check (k.cap a.1).r a.2.1 n = none → (∀ i < n, s.Near c.toNat ((a.2.1 + i) % 2 ^ 32) (ph i)) →
    ((∀ i < n, s.reach c.toNat (ph i).pa = .own) →
      exec (.ld c x m) s = .next (s.after c.toNat x (loadForm x m false)
        ((k.loaded (modePops m) ((List.range n).map (fun i => s.word (s.key (ph i).pa))) (lastOf x k)).moved a)).close) ∧
    ((∀ i < n, s.reach c.toNat (ph i).pa = .cluster) → (s.cell c.toNat).loads = [] →
      s.pwr = Power.reset → s.rpr.migs = [] → (s.cell c.toNat).resetDue = false →
      Gives (.ld c x m) s (fun t =>
        (t.cell c.toNat).stall.isSome ∧ t.canIssue c.toNat = false ∧
        (t.cur c.toNat).dsp = ((s.cur c.toNat).popN (modePops m)).dsp - BitVec.ofNat 32 n ∧
        (t.cur c.toNat).pc = (if lastOf x k then nextPc k x (modeSyllables m) else k.pc) ∧
        Gives (.loadDataReturn c) t (fun u =>
          (∀ i < n, (u.cur c.toNat).dget ((u.cur c.toNat).slot i) = s.word (s.key (ph i).pa)) ∧
          (u.cur c.toNat).pend = [] ∧ (u.cell c.toNat).loads = [] ∧ (u.cell c.toNat).stall = none ∧
          ∀ key, u.word key = s.word key)))

/-- R160, R163: nonet loads from the cell's own store, which zero-extend the nonet that S0[1:0] names, and nonet stores to it. -/
def Obligations.NonetAccesses : Prop :=
  ∀ (c : CellId) (x : Enc) (m : AddrMode) (s : State) (ph : Phys),
    let k := s.cur c.toNat
    let ws := s.top c.toNat 3
    let j := (ws.getD 0 0).toNat % 4
    let a := addressed k x m (ws.getD 1 0)
    s.Quiet c.toNat → s.Near c.toNat a.2.1 ph →
    s.reach c.toNat ph.pa = .own →
    (s.Ready c.toNat x (loadForm x m true) → s.Fits c.toNat (loadForm x m true) →
      (k.cap a.1).check (k.cap a.1).r a.2.1 1 = none →
      exec (.ldn c x m) s = .next (s.after c.toNat x (loadForm x m true)
        (k.loaded (modePops m + 1) [BitVec.ofNat 36 ((s.word (s.key ph.pa)).toNat / 512 ^ j % 512)] (lastOf x k))).close) ∧
    (s.Ready c.toNat x (storeForm x m true) → s.Fits c.toNat (storeForm x m true) →
      (k.cap a.1).check (k.cap a.1).w a.2.1 1 = none →
      exec (.stn c x m) s = .next ((s.setSb c.toNat [s.stored c.toNat ph
          [(BitVec.ofNat 36 ((ws.getD (modePops m + 1) 0).toNat % 512 * 512 ^ j), BitVec.ofNat 4 (2 ^ j))] false false]).after c.toNat x
        (storeForm x m true) (k.popN (modePops m + 2))).close)

/-- R159 to R163, R201: stores of words and doublewords in every mode. A store to the cell's own store enters the empty store
buffer; outside Throughput mode a word stored to the cluster's memory is in memory when the instruction ends (R203), with tag
0 (R161), and no other word of memory changes. -/
def Obligations.Stores : Prop :=
  ∀ (c : CellId) (x : Enc) (m : AddrMode) (s : State) (ph : Nat → Phys),
    let n := wordsOf x
    let k := s.cur c.toNat
    let a := addressed k x m ((s.top c.toNat 1).getD 0 0)
    let ws := (s.top c.toNat (modePops m + n)).drop (modePops m)
    s.Ready c.toNat x (storeForm x m false) → s.Fits c.toNat (storeForm x m false) → s.Quiet c.toNat →
    (k.cap a.1).check (k.cap a.1).w a.2.1 n = none → (∀ i < n, s.Near c.toNat ((a.2.1 + i) % 2 ^ 32) (ph i)) →
    (∀ i < n, (ph i).pa = (ph 0).pa + i) →
    (s.reach c.toNat (ph 0).pa = .own → s.reach c.toNat (ph (n - 1)).pa = .own →
      exec (.st c x m) s = .next ((s.setSb c.toNat [s.stored c.toNat (ph 0) (ws.map (fun w => (w, 0xF))) false x.wide]).after c.toNat x
        (storeForm x m false) ((k.popN (modePops m + n)).moved a)).close) ∧
    (n = 1 → s.reach c.toNat (ph 0).pa = .cluster → s.pwr = Power.reset → s.rpr.migs = [] → (s.cell c.toNat).resetDue = false →
      Gives (.st c x m) s (fun t =>
        t.word (ph 0).pa = ws.getD 0 0 ∧ t.tagOf (ph 0).pa = false ∧ (∀ key ≠ (ph 0).pa, t.word key = s.word key) ∧
        (t.cell c.toNat).sb = [] ∧ (t.cur c.toNat).pc = (if lastOf x k then nextPc k x (modeSyllables m) else k.pc)))

/-- R118, R166: the check of a capability and the order of its failures.

R118, R162, R164: a load or a store whose capability check fails raises fault 2 with that check's INFO, and one whose word has no
translation fault 6; a pointer form changes nothing else (R118: the access is not made and An is unchanged). -/
def Obligations.CheckedAccesses : Prop :=
  (
    ∀ (q : Cap) (perm : Bool) (ea size : Nat), q.check perm ea size =
      (if q.tag = false then some 1 else if q.hi.toNat / 2 ^ 28 ≠ 0 then some 2 else if perm = false then some 3
       else if q.lo.toNat % 2 ^ 32 ≤ ea ∧ ea + size ≤ q.lo.toNat % 2 ^ 32 + q.hi.toNat % 2 ^ 28 then none else some 4)) ∧
  (
    ∀ (c : CellId) (x : Enc) (n : BitVec 2) (s : State),
      let k := s.cur c.toNat
      let ea := (k.ptr n).toNat
      let ld := loadForm x (.postInc n) false
      let st := storeForm x (.postInc n) false
      x.wide = false → (s.cell c.toNat).xlat = [] →
      (s.Ready c.toNat x ld → s.Fits c.toNat ld →
        (∀ info, (k.cap n).check (k.cap n).r ea 1 = some info →
          exec (.ld c x (.postInc n)) s = .next (s.faulted c.toNat ld { code := 2, info := info, va := ea }).close) ∧
        ((k.cap n).check (k.cap n).r ea 1 = none → s.translate c.toNat k.dom.toNat ea = none →
          exec (.ld c x (.postInc n)) s = .next ((s.refill c.toNat ea).faulted c.toNat ld { code := 6, info := 1, va := ea }).close)) ∧
      (s.Ready c.toNat x st → s.Fits c.toNat st →
        (∀ info, (k.cap n).check (k.cap n).w ea 1 = some info →
          exec (.st c x (.postInc n)) s = .next (s.faulted c.toNat st { code := 2, info := info, va := ea }).close) ∧
        ((k.cap n).check (k.cap n).w ea 1 = none → s.translate c.toNat k.dom.toNat ea = none →
          exec (.st c x (.postInc n)) s = .next ((s.refill c.toNat ea).faulted c.toNat st { code := 6, info := 1, va := ea }).close)))

/-- R165, R166, R245, R246: CLD takes the doubleword with its hidden tag and writes no memory; CST puts the register with its
tag into the store buffer. -/
def Obligations.CapabilityMoves : Prop :=
  ∀ (c : CellId) (x : Enc) (d a : BitVec 2) (s : State) (p q : Phys),
    let f : Form := { op := 2, exts := [0, 1, 2, 3, 4, 5, 6], rep := false }
    let k := s.cur c.toNat
    let ea := (((k.ptr a).toNat + encImm x) % 2 ^ 32).toNat
    let key := s.key p.pa
    s.Ready c.toNat x f → s.Fits c.toNat f → s.Quiet c.toNat → s.Near c.toNat ea p → s.Near c.toNat ((ea + 1) % 2 ^ 32) q → ea % 2 = 0 →
    ((k.cap a).check (k.cap a).r ea 2 = none → (d ≠ 3 ∨ k.dw = 0 ∧ k.rw = 0) →
      s.tagA.contains (key - key % 2) = s.tagB.contains (key - key % 2) →
      exec (.cld c x d a) s = .next (((s.accessed c.toNat 2 (fun i => if i = 0 then p else q)).refetched c.toNat d).after c.toNat x f
        (k.setCap d ⟨s.word key, s.word (s.key q.pa), s.tagA.contains (key - key % 2) && s.tagB.contains (key - key % 2)⟩)).close) ∧
    ((k.cap a).check ((k.cap a).w && (!(k.cap d).tag || (k.cap a).m)) ea 2 = none → q.pa = p.pa + 1 →
      s.reach c.toNat p.pa = .own → s.reach c.toNat q.pa = .own →
      exec (.cst c x d a) s = .next ((s.setSb c.toNat [s.stored c.toNat p [((k.cap d).lo, 0xF), ((k.cap d).hi, 0xF)] (k.cap d).tag true]).after
        c.toNat x f k).close) ∧
    ((k.cap a).check true ea 2 = none → (k.cap d).tag = true → (k.cap a).m = false →
      exec (.cst c x d a) s = .next (s.faulted c.toNat f { code := 2, info := 3, va := ea }).close)

/-- R165, R166, R248: the rules on capabilities, their checks in the order shown. A write of C2 costs 6 cycles more outside
Throughput mode (R167); of a fault 2 that concerns no address the address is free (log entry 12). -/
def Obligations.CapabilityRules : Prop :=
  let perm (q : Cap) : Nat := q.lo.toNat / 2 ^ 32
  let lo (q : Cap) : Nat := q.lo.toNat % 2 ^ 32
  let lock (q : Cap) : Nat := q.hi.toNat / 2 ^ 28
  let len (q : Cap) : Nat := q.hi.toNat % 2 ^ 28
  let made (q : Cap) (perm lo lock len : Nat) : Except Nat Cap :=
    .ok ⟨BitVec.ofNat 36 (perm * 2 ^ 32 + lo), BitVec.ofNat 36 (lock * 2 ^ 28 + len), q.tag⟩
  let controls (key : Cap) (t : Nat) : Bool := key.tag && decide (lock key = 255 ∧ lo key ≤ t ∧ t < lo key + len key)
  let acts (i : Instr) (c : CellId) (x : Enc) (f : Form) (a : BitVec 2) (s : State) (r : Except Nat Cap) : Prop :=
    s.Ready c.toNat x f → s.Fits c.toNat f → (a ≠ 3 ∨ (s.cur c.toNat).dw = f.pops ∧ (s.cur c.toNat).rw = 0) →
    exec i s = .next (match r with
      | .ok q => (s.refetched c.toNat a).after c.toNat x f (((s.cur c.toNat).popN f.pops).setCap a q)
      | .error info => s.refused c.toNat f info)
  let second (x : Enc) (n : Nat) : Form := { exts := [1], rep := false, bad := decide (4 ≤ encRaw x), pops := n }
  ∀ (c : CellId) (x : Enc) (a : BitVec 2) (s : State),
    let q := (s.cur c.toNat).cap a
    let o := (s.cur c.toNat).cap (BitVec.ofNat 2 (encRaw x))
    let w (i : Nat) : Nat := ((s.top c.toNat 2).getD i 0).toNat
    acts (.cnarrow c x a) c x { rep := false, pops := 2 } a s
      (if q.tag = false then .error 1 else if lock q ≠ 0 ∧ lock q ≠ 255 then .error 2
       else if w 1 % 2 ^ 32 < lo q ∨ 2 ^ 28 ≤ w 0 ∨ lo q + len q < w 1 % 2 ^ 32 + w 0 then .error 4
       else made q (perm q) (w 1 % 2 ^ 32) (lock q) (w 0)) ∧
    acts (.cperm c x a) c x { rep := false, pops := 1 } a s
      (if q.tag = false then .error 1 else if lock q ≠ 0 then .error 2 else made q (perm q &&& w 0) (lo q) 0 (len q)) ∧
    acts (.cshut c x a) c x (second x 1) a s
      (if q.tag = false then .error 1 else if lock q ≠ 0 then .error 2
       else if controls o (w 0) ∧ 1 ≤ w 0 ∧ w 0 ≤ 254 then made q (perm q) (lo q) (w 0) (len q) else .error 7) ∧
    acts (.copen c x a) c x (second x 0) a s
      (if q.tag = false then .error 1
       else if lock q ≠ 0 ∧ lock q ≠ 255 ∧ controls o (lock q) then made q (perm q) (lo q) 0 (len q) else .error 7) ∧
    acts (.ccopy c x a) c x (second x 0) a s (.ok o)

/-- R170, R171: image loads. The plane's word is taken as Rime holds it, a bit-point load takes the lane alone; an index past the
plane, or a malformed reference, is fault 2.

R66, R171, R337: image stores of a cell that is not Paired. The owner's store becomes the word's last store of the frame, with the
reserved validity written as invalid; BST changes one lane of the
pending word, which is normalised by its type (log entry 34). Another cell's store is refused and counted. -/
def Obligations.ImageAccesses : Prop :=
  (
    let f : Form := { load := true, cyc := 6, pops := 1, pushes := 1 }
    let loads (mk : CellId → Enc → Instr) (bits : Bool) (view : State → Nat → Word) : Prop :=
      ∀ (c : CellId) (x : Enc) (s : State), s.Ready c.toNat x f → s.Fits c.toNat f →
        let p := ((s.top c.toNat 1).getD 0 0).toNat
        let k := s.cur c.toNat
        exec (mk c x) s = .next (
          if bits then
            if p / 16 < 131072 ∧ p % 16 ≤ 8 then
              s.after c.toNat x f (k.loaded 1 [BitVec.ofNat 36 (digit (view s (p / 16)) (p % 16))] (lastOf x k))
            else s.refused c.toNat f 8
          else if p < 131072 then s.after c.toNat x f (k.loaded 1 [view s p] (lastOf x k))
          else s.refused c.toNat f 8)
    loads .ldim false (fun s p => s.readInput s.rime.lat p) ∧
    loads .ldimp false (fun s p => s.readInput s.rime.prev p) ∧
    loads .ldop false (fun s p => s.readPending p) ∧
    loads .ldoc false (fun s p => s.readOutput s.rime.comm p) ∧
    loads .bld true (fun s p => s.readInput s.rime.lat p) ∧
    loads .bldp true (fun s p => s.readInput s.rime.prev p)) ∧
  (∀ (bits : Bool) (w : Word), normWord bits w =
    if bits then nineLanes (fun j => if digit w j / 2 % 4 = 2 then digit w j - 2 else digit w j)
    else if w.toNat / 2 ^ 34 = 2 then w - 2 ^ 34 else w) ∧
  (
    let f : Form := { cyc := 2, pops := 2 }
    ∀ (c : CellId) (x : Enc) (s : State), s.Ready c.toNat x f → s.Fits c.toNat f → s.paired c.toNat = false →
      let p := ((s.top c.toNat 1).getD 0 0).toNat
      let w := (s.top c.toNat 2).getD 1 0
      let stored (p : Nat) (v : Word) : State :=
        ({ s with rime := { s.rime with stores := sinsert p (v, c.toNat) s.rime.stores } }.after c.toNat x f ((s.cur c.toNat).popN 2)).close
      let fault (s : State) : State := (s.refused c.toNat f 8).close
      let refused : State := fault (s.bump Reg.IMG_OWNERR_COUNT)
      exec (.stim c x) s = .next (
        if 131072 ≤ p then fault s
        else if s.owner p = some c.toNat then stored p (normWord (decide (s.outType p = 3)) w)
        else refused) ∧
      exec (.bst c x) s = .next (
        if 131072 ≤ p / 16 ∨ 8 < p % 16 then fault s
        else if s.owner (p / 16) = some c.toNat then
          stored (p / 16) (normWord (decide (s.outType (p / 16) = 3))
            (nineLanes (fun j => if j = p % 16 then w.toNat % 16 else digit (s.readPending (p / 16)) j)))
        else refused))

/-- R182: PREF does nothing but pop outside Throughput mode; FENCE, RSYNC and FLUSHI complete when nothing of the cell waits; FENCE
waits while an earlier load is outstanding. -/
def Obligations.Synchronisation : Prop :=
  ∀ (c : CellId) (x : Enc) (a : BitVec 2) (s : State),
    let f (cyc pops : Nat) : Form := { rep := false, cyc := cyc, pops := pops }
    (s.Ready c.toNat x (f 1 1) → s.Fits c.toNat (f 1 1) → s.throughput c.toNat = false →
      exec (.pref c x a) s = .next (s.after c.toNat x (f 1 1) ((s.cur c.toNat).popN 1))) ∧
    (s.Ready c.toNat x { f 400 0 with fixed := true } → s.Fits c.toNat { f 400 0 with fixed := true } →
      exec (.rsync c x) s = .next (s.after c.toNat x { f 400 0 with fixed := true } (s.cur c.toNat))) ∧
    (s.Ready c.toNat x (f 8 0) → s.Fits c.toNat (f 8 0) → (s.cell c.toNat).sb = [] →
      exec (.flushi c x) s = .next (s.after c.toNat x (f 8 0) (s.cur c.toNat)).close) ∧
    (s.Ready c.toNat x (f 2 0) → s.Fits c.toNat (f 2 0) → (s.cell c.toNat).sb = [] →
      s.fab.txs.any (fun t => decide (t.cell = c.toNat ∧ t.purpose = .write)) = false →
      exec (.fence c x) s = .next (if (s.cell c.toNat).loads = [] then (s.after c.toNat x (f 2 0) (s.cur c.toNat)).close else s.close))

/-- R183, R184: LOADM of any mask without its own pointer and its own capability, from words of the cell's store, and SAVEM of
one item of one or two words. FLAGS.MP is 0 at the end. -/
def Obligations.MultipleMoves : Prop :=
  ∀ (c : CellId) (x : Enc) (a : BitVec 2) (s : State) (ph : Nat → Phys),
    let f : Form := { rep := false, cyc := 2, fixed := true, pops := 1 }
    let k := s.cur c.toNat
    let m := (s.top c.toNat 1).getD 0 0
    let size (i : Nat) : Nat := if i ≤ 3 then 2 else if i ≤ 10 then 1 else 3
    let at_ (i : Nat) : Nat := ((List.range i).map (fun j => if m.getLsbD j then size j else 0)).sum
    let total := at_ 13
    let w (i o : Nat) : Word := s.word (s.key (ph (at_ i + o)).pa)
    let tag (i : Nat) : Bool := s.tagOf (s.key (ph (at_ i)).pa)
    s.Ready c.toNat x f → s.Fits c.toNat f → s.Quiet c.toNat → k.mp = 0 → s.eventDue c.toNat = false → m.toNat < 2 ^ 13 → (m.toNat % 16 = 0 ∨ (k.ptr a).toNat % 2 = 0) →
    (∀ o < total, s.Near c.toNat (((k.ptr a).toNat + o) % 2 ^ 32) (ph o) ∧ s.reach c.toNat (ph o).pa = .own) →
    (m.getLsbD 3 = false → m.getLsbD (4 + a.toNat) = false → m.getLsbD a.toNat = false →
      (k.cap a).tag = true → (k.cap a).lock = 0 → (k.cap a).r = true →
      (∀ i < 13, m.getLsbD i → (k.cap a).base ≤ ((k.ptr a).toNat + at_ i) % 2 ^ 32 ∧ ((k.ptr a).toNat + at_ i) % 2 ^ 32 + size i ≤ (k.cap a).top) →
      (∀ i < 3, m.getLsbD i → s.tagA.contains (s.key (ph (at_ i)).pa - s.key (ph (at_ i)).pa % 2) =
        s.tagB.contains (s.key (ph (at_ i)).pa - s.key (ph (at_ i)).pa % 2)) →
      Gives (.loadm c x a) s (fun t =>
        (∀ i < 3, (t.cur c.toNat).cap (BitVec.ofNat 2 i) = if m.getLsbD i then ⟨w i 0, w i 1, tag i⟩ else k.cap (BitVec.ofNat 2 i)) ∧
        (t.cur c.toNat).cap 3 = k.cap 3 ∧
        (∀ j < 4, (t.cur c.toNat).ptr (BitVec.ofNat 2 j) = if m.getLsbD (4 + j) then (w (4 + j) 0).setWidth 32 else k.ptr (BitVec.ofNat 2 j)) ∧
        (t.cur c.toNat).rc = (if m.getLsbD 8 then w 8 0 else k.rc) ∧
        (t.cur c.toNat).flags = (if m.getLsbD 9 then w 9 0 &&& 0xF else k.flags &&& 0xFFFFFFC3F) ∧
        (t.cur c.toNat).p = (if m.getLsbD 10 then (w 10 0).setWidth 8 ||| 1 else k.p) ∧
        (t.cur c.toNat).acc0 = (if m.getLsbD 11 then (w 11 2).setWidth 8 ++ (w 11 1 ++ w 11 0) else k.acc0) ∧
        (t.cur c.toNat).acc1 = (if m.getLsbD 12 then (w 12 2).setWidth 8 ++ (w 12 1 ++ w 12 0) else k.acc1) ∧
        (t.cur c.toNat).dsp = k.dsp + 1 ∧ (∀ key, t.word key = s.word key))) ∧
    (∀ i ≤ 10, m.toNat = 2 ^ i →
      (k.cap a).check ((k.cap a).w && (!(decide (i ≤ 3) && (k.cap (BitVec.ofNat 2 i)).tag) || (k.cap a).m)) (k.ptr a).toNat (size i) = none →
      (∀ o < size i, (ph o).pa = (ph 0).pa + o) →
      Gives (.savem c x a) s (fun t =>
        (t.cell c.toNat).sb = [s.stored c.toNat (ph 0)
          (if i ≤ 3 then [((k.cap (BitVec.ofNat 2 i)).lo, 0xF), ((k.cap (BitVec.ofNat 2 i)).hi, 0xF)]
           else if i ≤ 7 then [(BitVec.ofNat 36 (k.ptr (BitVec.ofNat 2 (i - 4))).toNat, 0xF)]
           else if i = 8 then [(k.rc, 0xF)] else if i = 9 then [(k.flags &&& 0xFFFFFFC3F, 0xF)]
           else [(BitVec.ofNat 36 (k.p.toNat ||| 1), 0xF)])
          (decide (i ≤ 3) && (k.cap (BitVec.ofNat 2 i)).tag) (decide (i ≤ 3))] ∧
        t.cur c.toNat = (s.after c.toNat x f ({ k with flags := k.flags &&& 0xFFFFFFC3F }.popN 1)).cur c.toNat))

/-- R151, R152, R155: TON, TOF and CTU on an instance in the cell's own store. The frame count is bits [35:0] of the frame
number. -/
def Obligations.TimersAndCounters : Prop :=
  let worst2 (a b : Nat) : Nat := ([0, 3, 1] : List Nat).getD (max (rank a) (rank b)) 0
  let iv (w : Word) : Nat := worst2 0 (w.toNat / 2 % 4)
  let tst (w : Word) : Nat := w.toNat / 8 % 2
  let v (w : Word) : Bool := w.getLsbD 0
  let w0 (rval rtst : Nat) (q run done : Bool) : Word :=
    BitVec.ofNat 36 (rval * 2 ^ 34 + rtst * 2 ^ 33 + b2n q * 4 + b2n run * 2 + b2n done)
  let out (rval rtst : Nat) (q : Bool) : Word := BitVec.ofNat 36 (b2n q + 2 * rval + 8 * rtst)
  ∀ (c : CellId) (x : Enc) (a : BitVec 2) (s : State) (p0 p1 : Phys) (n : Nat) (mk : CellId → Enc → BitVec 2 → Instr) (f : Form),
    (mk = .ton ∧ n = 2 ∧ f = { op := 2, cyc := 12, fixed := true, pops := 2, pushes := 2 } ∨ mk = .tof ∧ n = 2 ∧ f = { op := 2, cyc := 12, fixed := true, pops := 2, pushes := 2 } ∨
      mk = .ctu ∧ n = 3 ∧ f = { op := 2, cyc := 10, fixed := true, pops := 3, pushes := 2 }) →
    let k := s.cur c.toNat
    let ea := (k.ptr a).toNat
    let ops := s.top c.toNat 3
    let old := s.word (s.key p0.pa)
    let w1 := s.word (s.key p1.pa)
    let fc := s.reg Reg.FRM_COUNT0_LO.off
    let rval := old.toNat / 2 ^ 34
    let rtst := old.toNat / 2 ^ 33 % 2
    let ends (e0 e1 q r : Word) : Prop := Gives (mk c x a) s (fun t =>
      t.word (s.key p0.pa) = e0 ∧ t.word (s.key p1.pa) = e1 ∧ t.cur c.toNat = (s.after c.toNat x f ((k.popN n).pushAll [q, r])).cur c.toNat)
    s.Ready c.toNat x f → s.Fits c.toNat f → s.Quiet c.toNat → s.Near c.toNat ea p0 → s.Near c.toNat ((ea + 1) % 2 ^ 32) p1 →
    s.reach c.toNat p0.pa = .own → s.reach c.toNat p1.pa = .own → s.key p0.pa ≠ s.key p1.pa →
    s.mirrorOf (s.key p0.pa) = none → s.mirrorOf (s.key p1.pa) = none →
    (∀ o < 2, (k.cap a).check ((k.cap a).r && (k.cap a).w) ((ea + o) % 2 ^ 32) 1 = none) →
    (mk = .ton →
      let i := ops.getD 1 0
      let pt := ops.getD 0 0
      let start := if old.getLsbD 1 then w1 else fc
      let done := old.getLsbD 1 && old.getLsbD 0
      let r1 := worst2 rval (iv i)
      let t1 := max rtst (tst i)
      if v i = false then ends (w0 (iv i) (tst i) false false false) w1 (out (iv i) (tst i) false) 0
      else if done ∨ pt ≤ fc - start then ends (w0 r1 t1 true true true) start (out r1 t1 true) pt
      else ends (w0 r1 t1 false true false) start (out r1 t1 false) (fc - start)) ∧
    (mk = .tof →
      let i := ops.getD 1 0
      let pt := ops.getD 0 0
      let q := old.getLsbD 2
      let run := old.getLsbD 1 || q
      let start := if q ∧ old.getLsbD 1 = false then fc else w1
      let r1 := worst2 rval (iv i)
      let t1 := max rtst (tst i)
      if v i then ends (w0 (iv i) (tst i) true false false) w1 (out (iv i) (tst i) true) 0
      else if run = false then ends (w0 r1 t1 q false (old.getLsbD 0)) w1 (out r1 t1 q) (if old.getLsbD 0 then pt else 0)
      else if pt ≤ fc - start then ends (w0 r1 t1 false false true) start (out r1 t1 false) pt
      else ends (w0 r1 t1 q true (old.getLsbD 0)) start (out r1 t1 q) (fc - start)) ∧
    (mk = .ctu →
      let cu := ops.getD 2 0
      let r := ops.getD 1 0
      let pv := (ops.getD 0 0).toInt
      let count := if v cu ∧ old.getLsbD 0 = false ∧ w1.toInt < 2 ^ 35 - 1 then w1 + 1 else w1
      let r1 := worst2 (worst2 rval (iv cu)) (iv r)
      let t1 := max rtst (max (tst cu) (tst r))
      if v r then ends (w0 (iv r) (tst r) false false (v cu)) 0 (out (iv r) (tst r) (decide (pv ≤ 0))) 0
      else ends (w0 r1 t1 false false (v cu)) count (out r1 t1 (decide (pv ≤ count.toInt))) count)

/-- R153 to R155: SDFT on an instance in the cell's own store: the sums, the counts, the ring and the run quality. -/
def Obligations.SlidingTransform : Prop :=
  ∀ (c : CellId) (x : Enc) (a : BitVec 2) (s : State) (ph : Nat → Phys),
    let f : Form := { op := 2, cyc := 24, fixed := true, pops := 1, pushes := 1 }
    let k := s.cur c.toNat
    let ea := (k.ptr a).toNat
    let w (o : Nat) : Word := s.word (s.key (ph o).pa)
    let v := (s.top c.toNat 1).getD 0 0
    let n := (w 0).toNat % 256 + 1
    let i := if n ≤ (w 0).toNat / 256 % 256 then 0 else (w 0).toNat / 256 % 256
    let slot := 6 + 2 * n + i
    let old := w slot
    let d := valueS v - valueS old
    let re : DWord := BitVec.ofInt 72 ((w 3 ++ w 2 : BitVec 72).toInt + d * (w (6 + 2 * i)).toInt)
    let im : DWord := BitVec.ofInt 72 ((w 5 ++ w 4 : BitVec 72).toInt + d * (w (7 + 2 * i)).toInt)
    let count (lo : Nat) (has : Word → Bool) : Nat := ((w 1).toNat / 2 ^ lo + 512 - b2n (has old) + b2n (has v)) % 512
    let ninv := count 27 (fun q => q.getLsbD 34 != q.getLsbD 35)
    let nqst := count 18 (fun q => q.getLsbD 34 && q.getLsbD 35)
    let ntst := count 9 (fun q => q.getLsbD 33)
    let nsub := count 0 (fun q => q.getLsbD 32)
    let touched : List Nat := [0, 1, 2, 3, 4, 5, slot]
    let read : List Nat := touched ++ [6 + 2 * i, 7 + 2 * i]
    s.Ready c.toNat x f → s.Fits c.toNat f → s.Quiet c.toNat →
    (∀ o ∈ read, s.Near c.toNat ((ea + o) % 2 ^ 32) (ph o) ∧ s.reach c.toNat (ph o).pa = .own ∧ s.mirrorOf (s.key (ph o).pa) = none ∧
      (k.cap a).check ((k.cap a).r && (k.cap a).w) ((ea + o) % 2 ^ 32) 1 = none) →
    (∀ o ∈ touched, ∀ o' ∈ touched, o ≠ o' → s.key (ph o).pa ≠ s.key (ph o').pa) →
    Gives (.sdft c x a) s (fun t =>
      let word (o : Nat) : Word := t.word (s.key (ph o).pa)
      word 0 = BitVec.ofNat 36 ((i + 1) % n * 256 + (n - 1)) ∧
      word 1 = BitVec.ofNat 36 (ninv * 2 ^ 27 + nqst * 2 ^ 18 + ntst * 2 ^ 9 + nsub) ∧
      word 3 ++ word 2 = re ∧ word 5 ++ word 4 = im ∧ word slot = v ∧
      t.cur c.toNat = (s.after c.toNat x f (({ k with acc0 := re.signExtend 80, acc1 := im.signExtend 80 }.popN 1).push
        (BitVec.ofNat 36 ((if 0 < ninv then 2 ^ 34 else if 0 < nqst then 3 * 2 ^ 34 else 0) + (if 0 < ntst then 2 ^ 33 else 0) +
          (if 0 < nsub then 2 ^ 32 else 0))))).cur c.toNat)

/-- R115, R176, R177, R194: branches, calls and returns. A guarded BR or CALL that is taken moves its history counter toward taken,
in Throughput mode. -/
def Obligations.Branches : Prop :=
  ∀ (c : CellId) (x : Enc) (s : State),
    let k := s.cur c.toNat
    let next := k.pc + BitVec.ofNat 34 (encLen x 1)
    let target : SylAddr := BitVec.ofInt 34 (next.toNat + encImm x)
    let top := (s.top c.toNat 1).getD 0 0
    let far (rpushes : Nat) : Form :=
      { exts := [1, 2, 3, 4, 5, 6], rep := false, cyc := 6, fixed := true, rpushes := rpushes, branch := true }
    let near (pops rpops rpushes : Nat) : Form := { rep := false, cyc := 6, fixed := true, pops := pops, rpops := rpops, rpushes := rpushes }
    let noted : State := if x.guard = .always then s else s.noteBranch c.toNat k.pc.toNat true
    (s.Ready c.toNat x (far 0) → s.Fits c.toNat (far 0) →
      exec (.br c x) s = .next (noted.jumped c.toNat x (s.listedForm c.toNat x (far 0)) { k with pc := target })) ∧
    (s.Ready c.toNat x (near 1 0 0) → s.Fits c.toNat (near 1 0 0) →
      exec (.bri c x) s = .next (s.jumped c.toNat x (near 1 0 0) { k.popN 1 with pc := top.setWidth 34 })) ∧
    (s.Ready c.toNat x (far 1) → s.Fits c.toNat (far 1) →
      exec (.call c x) s = .next (noted.jumped c.toNat x (s.listedForm c.toNat x (far 1)) { k.rpush (next.setWidth 36) with pc := target })) ∧
    (s.Ready c.toNat x (near 1 0 1) → s.Fits c.toNat (near 1 0 1) →
      exec (.calli c x) s = .next (s.jumped c.toNat x (near 1 0 1) { (k.popN 1).rpush (next.setWidth 36) with pc := top.setWidth 34 })) ∧
    (s.Ready c.toNat x (near 0 1 0) → s.Fits c.toNat (near 0 1 0) →
      exec (.ret c x) s = .next (s.jumped c.toNat x (near 0 1 0) { k.rpop with pc := k.rtop.setWidth 34 }))

/-- R266 to R268: SYS and RETS. The checks in their order; a call that passes them moves C2, C3, the stack pointers and the PC
through LINK and sets BUSY, and RETS moves them back, clearing LINK.OCC alone. `s0` is the state after the reads of the
entry's two tags, whose copies may disagree (R245); `s1` and `s2` are the state after the arguments' forced fills and after
the spills of R114. -/
def Obligations.SystemCalls : Prop :=
  ∀ (c : CellId) (x : Enc) (n : BitVec 3) (s s1 s2 : State) (ws : List Word),
    let f : Form := { rep := false, cyc := 6, fixed := true }
    let k := s.cur c.toNat
    let s0 := s.entryReads c.toNat n.toNat
    let cc := s.entryCap c.toNat n.toNat 4
    let sc := s.entryCap c.toNat n.toNat 6
    let a := s.get (Reg.CELL_ENTRY1_ARGS c.toNat n.toNat)
    let r := k.link.res.toNat
    let back : Int := (k.link.dsp.toNat + k.link.args.toNat : Nat) - (r : Int)
    let fault (s : State) (info : Nat) : Host.Outcome State Fault Refusal := .next (s.faulted c.toNat f { code := 10, info := info })
    let bad := cc.tag = false ∨ sc.tag = false ∨ cc.lock = 0 ∨ cc.lock = 255 ∨ cc.lock ≠ sc.lock ∨ cc.x = false ∨ sc.r = false ∨ sc.w = false
    let small := k.depth < a ∨ sc.len < a ∨ 2 ^ 32 < sc.base + sc.len
    s.Ready c.toNat x f → s.Fits c.toNat f →
    (k.link.occ = true → exec (.sys c x n) s = fault s 1) ∧
    (k.link.occ = false → s.on (Reg.CELL_ENTRY1_BUSY c.toNat n.toNat) = true → exec (.sys c x n) s = fault s0 3) ∧
    (k.link.occ = false → s.on (Reg.CELL_ENTRY1_BUSY c.toNat n.toNat) = false → bad → exec (.sys c x n) s = fault s0 2) ∧
    (k.link.occ = false → s.on (Reg.CELL_ENTRY1_BUSY c.toNat n.toNat) = false → ¬ bad → small → exec (.sys c x n) s = fault s0 4) ∧
    (k.link.occ = false → s.on (Reg.CELL_ENTRY1_BUSY c.toNat n.toNat) = false → ¬ bad → ¬ small →
      s0.topEntries c.toNat a = .ok ws s1 → s1.spillBelow c.toNat 0 = .ok () s2 → s2.running c.toNat = s.running c.toNat →
      Gives (.sys c x n) s (fun t =>
        let u := t.cur c.toNat
        let b := s2.cur c.toNat
        u.link = ⟨true, n, BitVec.ofNat 3 a, BitVec.ofNat 3 (s.get (Reg.CELL_ENTRY1_RES c.toNat n.toNat)),
          b.pc + BitVec.ofNat 34 (encLen x 1), b.dsp, b.rsp, b.c[2], b.c[3]⟩ ∧
        u.pc.toNat = s.get (Reg.CELL_ENTRY0_TARGET c.toNat n.toNat) ∧ u.c[2] = cc.withLock 0 ∧ u.c[3] = sc.withLock 0 ∧
        u.dsp = BitVec.ofNat 32 (sc.base + sc.len) - BitVec.ofNat 32 a ∧ u.rsp = BitVec.ofNat 32 sc.base ∧ u.dw = a ∧ u.rw = 0 ∧
        (∀ i < a, u.dget (u.slot i) = ws.getD i 0) ∧ u.a = b.a ∧ u.p = b.p ∧ u.flags = b.flags ∧ u.c[0] = b.c[0] ∧ u.c[1] = b.c[1] ∧
        t.on (Reg.CELL_ENTRY1_BUSY c.toNat n.toNat) = true)) ∧
    (k.link.occ = false → exec (.rets c x) s = fault s 5) ∧
    (k.link.occ = true → (k.depth < r ∨ back < k.link.rsp.toNat) → exec (.rets c x) s = fault s 6) ∧
    (k.link.occ = true → r ≤ k.depth → k.link.rsp.toNat ≤ back →
      s.topEntries c.toNat r = .ok ws s1 → s1.spillBelow c.toNat 0 = .ok () s2 → s2.running c.toNat = s.running c.toNat → (s2.cur c.toNat).link = k.link →
      k.link.dsp.toNat + k.link.args.toNat ≤ k.link.c3.top → k.link.c3.top ≤ 2 ^ 32 →
      Gives (.rets c x) s (fun t =>
        let u := t.cur c.toNat
        let l := k.link
        u.pc = l.pc ∧ u.link = { l with occ := false } ∧ u.c[2] = l.c2 ∧ u.c[3] = l.c3 ∧ u.rsp = l.rsp ∧
        u.dsp = BitVec.ofNat 32 (l.dsp.toNat + l.args.toNat) - BitVec.ofNat 32 r ∧ u.dw = r ∧ u.rw = 0 ∧
        (∀ i < r, u.dget (u.slot i) = ws.getD i 0) ∧ u.acc0 = (s2.cur c.toNat).acc0 ∧ u.a = (s2.cur c.toNat).a ∧
        t.on (Reg.CELL_ENTRY1_BUSY c.toNat l.n.toNat) = false))

/-- R178, R263: IRET, FRET and DRET resume the bank that the table names, at its PC, and raise fault 1 outside their banks. The bank
resumed is a handler's or idle, or one whose level is still ACTIVE with its task to resume and no fault held. -/
def Obligations.HandlerReturns : Prop :=
  ∀ (c : CellId) (x : Enc) (s : State),
    let f : Form := { rep := false, cyc := 8, fixed := true }
    let resumable (b : Nat) : Prop := b = 15 ∨ b = 8 ∨ b = 10 ∨
      b < 8 ∧ (s.cell c.toNat).held = [] ∧ s.lvState c.toNat b = 2 ∧ s.task c.toNat b (s.curTask c.toNat b) = 2
    let wrong : Host.Outcome State Fault Refusal := .next (s.faulted c.toNat f { code := 1, info := 6 })
    let from_ := s.get (Reg.CELL_FCAUSE_BANK c.toNat)
    s.Ready c.toNat x f → s.Fits c.toNat f →
    (s.running c.toNat ≠ 8 → exec (.iret c x) s = wrong) ∧
    (s.running c.toNat ≠ 9 → exec (.fret c x) s = wrong) ∧
    (s.running c.toNat ≠ 10 → exec (.dret c x) s = wrong) ∧
    (s.running c.toNat = 8 → resumable (s.cell c.toNat).iFrom →
      Gives (.iret c x) s (fun t => t.running c.toNat = (s.cell c.toNat).iFrom ∧ t.on (Reg.CELL_ISRV_V c.toNat) = false ∧
        ∀ b ≠ 8, t.bank c.toNat b = s.bank c.toNat b)) ∧
    (s.running c.toNat = 9 → s.get (Reg.CELL_FCAUSE_CODE c.toNat) ∈ [1, 2, 3, 4, 5, 6, 10, 11] → from_ ≠ 15 → resumable from_ →
      Gives (.fret c x) s (fun t => t.running c.toNat = from_ ∧
        t.bank c.toNat from_ = { s.bank c.toNat from_ with pc := BitVec.ofNat 34 (s.get (Reg.CELL_FRPC_PC c.toNat)) })) ∧
    (s.running c.toNat = 10 → resumable (s.cell c.toNat).dFrom → (s.cell c.toNat).dFrom ≠ 10 →
      Gives (.dret c x) s (fun t => t.running c.toNat = (s.cell c.toNat).dFrom ∧
        (t.cell c.toNat).step = s.on (Reg.CELL_DCTL_STEP c.toNat) ∧
        ∀ b ≠ 10, t.bank c.toNat b = s.bank c.toNat b))

/-- R180, R283 to R285: FEND, WAIT, YIELD and POST on a level with one task while no other level is ACTIVE. FEND ends the
level's work; WAIT takes a pending event, or leaves the task WAITING; YIELD goes on; POST sends its event. -/
def Obligations.SchedulingInstructions : Prop :=
  ∀ (c : CellId) (x : Enc) (s : State),
    let f (cyc pops pushes : Nat) : Form := { rep := false, cyc := cyc, pops := pops, pushes := pushes }
    let k := s.cur c.toNat
    let n := s.running c.toNat
    let alone : Prop := s.lastTask c.toNat n = 0 ∧ s.curTask c.toNat n = 0 ∧ s.paired c.toNat = false ∧
      ∀ m < 8, m ≠ n → s.lvState c.toNat m ≠ 2
    let post : Word := (s.top c.toNat 1).getD 0 0
    (s.Ready c.toNat x (f 8 0 0) → s.Fits c.toNat (f 8 0 0) → (8 ≤ n →
        exec (.fend c x) s = .next (s.faulted c.toNat (f 8 0 0) { code := 1, info := 6 }).close ∧
        exec (.yield c x) s = .next (s.faulted c.toNat (f 8 0 0) { code := 1, info := 6 })) ∧
      (n < 8 → k.link.occ = true →
        exec (.fend c x) s = .next (s.faulted c.toNat (f 8 0 0) { code := 1, info := 9 }).close ∧
        exec (.yield c x) s = .next (s.faulted c.toNat (f 8 0 0) { code := 1, info := 9 })) ∧
      (n < 8 → k.link.occ = false → alone → s.rpr.migs = [] →
        s.on (Reg.CELL_LCFG_TICK c.toNat n) = true → s.on (Reg.CELL_LSTAT_TPEND c.toNat n) = false →
        Gives (.fend c x) s (fun t => t.running c.toNat = 15 ∧ t.lvState c.toNat n = 1 ∧ t.task c.toNat n 0 = 0 ∧
          (t.cell c.toNat).fended.getLsbD n = true ∧ (t.cell c.toNat).fend = ((s.cell c.toNat).fend || decide (n = 0)) ∧
          t.bank c.toNat n = { k with pc := nextPc k x 1 })) ∧
      (n < 8 → k.link.occ = false → s.nextTask c.toNat n = none →
        exec (.yield c x) s = .next (s.after c.toNat x (f 8 0 0) k))) ∧
    (s.Ready c.toNat x (f 8 0 1) → s.Fits c.toNat (f 8 0 1) → n < 8 → k.link.occ = false →
      (s.pendingEvent c.toNat n = true →
        exec (.wait c x) s = .next ((s.setReg (Reg.CELL_LEV_SAT c.toNat n).off 0).after c.toNat x (f 8 0 1)
          (k.push (s.reg (Reg.CELL_LEV_SAT c.toNat n).off)))) ∧
      (s.pendingEvent c.toNat n = false → alone →
        Gives (.wait c x) s (fun t => t.running c.toNat = 15 ∧ t.lvState c.toNat n = s.lvState c.toNat n ∧ t.task c.toNat n 0 = 3 ∧
          t.bank c.toNat n = { k with pc := nextPc k x 1 }))) ∧
    (s.Ready c.toNat x (f 2 1 0) → s.Fits c.toNat (f 2 1 0) →
      exec (.post c x) s = .next (((if s.runState (post.toNat % 256 / 16) = 4 then s.bump (Reg.CELL_POSTX_COUNT c.toNat)
        else { s with posts := s.posts ++ [(c.toNat, post.toNat % 256, post.toNat / 256 % 8)] })).after c.toNat x (f 2 1 0) (k.popN 1)))

/-- R173 to R175, R402 to R404: ENQ copies an entry of the cell's store into a ring of the cell's store and publishes it, DEQ
takes a one-word entry and releases it; a full queue, an empty one and a refused access are answered as the tables say. -/
def Obligations.QueueInstructions : Prop :=
  ∀ (c : CellId) (x : Enc) (a : BitVec 2) (s : State) (ph : Nat → Phys) (key : Nat),
    let f : Form := { rep := false, cyc := 20, fixed := true, pops := 1, pushes := 1 }
    let k := s.cur c.toNat
    let q := ((s.top c.toNat 1).getD 0 0).toNat
    let ea := (k.ptr a).toNat
    let e := s.qEsz q
    let ended (st : Nat) (t : State) : State := (t.after c.toNat x f ((k.popN 1).push (BitVec.ofNat 36 st))).close
    let refused : State := (s.refused c.toNat f 9).close
    let usable (deq : Bool) : Prop := q < 65536 ∧ s.qBroken q = false ∧ s.descBad q = none ∧ s.cellRefused c.toNat q deq = false ∧
      s.granted q deq (.cell c.toNat) = none ∧ s.mustWait q deq = false ∧
      s.qm.waiting.any (fun w => decide (w.queue = q ∧ w.deq = deq ∧ w.agent = .cell c.toNat)) = false
    s.Ready c.toNat x f → s.Fits c.toNat f → s.Quiet c.toNat →
    (65536 ≤ q → exec (.enq c x a) s = .next refused ∧ exec (.deq c x a) s = .next refused) ∧
    (q < 65536 → s.qBroken q = false → s.descBad q = none → (∀ deq, s.granted q deq (.cell c.toNat) = none) →
      (s.cellRefused c.toNat q false = true → exec (.enq c x a) s = .next refused) ∧
      (s.cellRefused c.toNat q true = true → exec (.deq c x a) s = .next refused)) ∧
    (usable false → (∀ i < e, s.Near c.toNat ((ea + i) % 2 ^ 32) (ph i) ∧ s.reach c.toNat (ph i).pa = .own) →
      (k.cap a).check (k.cap a).r ea e = none →
      (s.qCount q = s.qSize q → s.qPol q = 2 → exec (.enq c x a) s = .next (ended 2 (s.bump Reg.QM_BPREF_COUNT))) ∧
      (s.qCount q = s.qSize q → s.qPol q = 0 → exec (.enq c x a) s = .next (ended 3 (s.countDrop q))) ∧
      (s.qCount q < s.qSize q → s.qLog2 q ≤ 24 → s.qDbe q = false →
        (∀ j < e, s.area (s.ringAddr q (s.enqSlot q) j) = .store (key + j) ∧ s.liveSlot c.toNat (s.ringAddr q (s.enqSlot q) j) 0 = none) →
        s.fab.txs = [] → (∀ j < e, s.reach c.toNat (s.ringAddr q (s.enqSlot q) j) = .own ∧ s.busBusy (s.ringAddr q (s.enqSlot q) j) = false ∧
          s.mirrorOf (key + j) = none) →
        Gives (.enq c x a) s (fun t => (∀ j < e, t.word (key + j) = s.word (s.key (ph j).pa)) ∧ t.qCount q = s.qCount q + 1 ∧
          t.qHead q = s.qHead q ∧ t.cur c.toNat = (s.after c.toNat x f ((k.popN 1).push 0)).cur c.toNat))) ∧
    (usable true → e = 1 → s.Near c.toNat ea (ph 0) → s.reach c.toNat (ph 0).pa = .own → (k.cap a).check (k.cap a).w ea 1 = none →
      (s.qCount q = 0 → exec (.deq c x a) s = .next (ended 1 s)) ∧
      (0 < s.qCount q → s.area (s.ringAddr q (s.qHead q) 0) = .store key → s.reach c.toNat (s.ringAddr q (s.qHead q) 0) = .own →
        s.busBusy (s.ringAddr q (s.qHead q) 0) = false → s.eccAt key = none →
        s.liveSlot c.toNat (s.ringAddr q (s.qHead q) 0) 0 = none →
        Gives (.deq c x a) s (fun t => (t.cell c.toNat).sb = [s.stored c.toNat (ph 0) [(s.word key, 0xF)] false false] ∧
          t.qCount q = s.qCount q - 1 ∧ t.qHead q = (s.qHead q + 1) % s.qSize q ∧
          t.cur c.toNat = (s.after c.toNat x f ((k.popN 1).push 0)).cur c.toNat)))

/-! ## The shared path of every instruction of a cell -/

/-- R102, R103, R105, R127, R193, R194: a guarded-off instruction, and a repetition with RC = 0, takes one cycle, a BR or CALL
predicted to transfer six in Throughput mode, and has no effect but the move of the PC; a REPN beyond 64 raises fault 1.
`runInstr` is the path that every instruction of a cell takes. R105: a REPN whose iterations all complete runs them one after
the other, RC counting down and the cycles counting, in one command; `u i` is the state before iteration `i`, `v i` the state
that its effect leaves. -/
def Obligations.GuardsAndRepeats : Prop :=
  (
    ∀ (s : State) (c : Nat) (x : Enc) (f : Form) (iter : Bool → State → Ex Bool),
      let k := s.cur c
      let counter := sget 1 (k.pc.toNat % 256) (s.cell c).bht
      let skips (s : State) (n : Nat) : State :=
        s.complete c (s.running c) (s.levelOf c) { f with load := false } (nextPc k x f.op) n true false
      s.canIssue c = true → s.breaks c = false → s.fetch c (fetchLen x f.op) = .ok () s → f.fault1 x = none →
      findMark (k.dmark ++ k.rmark) missSlot = none → (s.cell c).hold = false → (s.cell c).micro = none →
      (guardPasses x.guard k = false →
        (f.branch = false → s.runInstr c x f iter = skips s 1) ∧
        (f.branch = true → s.runInstr c x f iter = if s.throughput c = true ∧ 2 ≤ counter
          then (skips (s.noteBranch c k.pc.toNat false) 6).modCell c (fun y => { y with pq := [] })
          else skips (s.noteBranch c k.pc.toNat false) 1)) ∧
      (guardPasses x.guard k = true → f.branch = false → s.asListed c = true →
        (x.rept ≠ .once → k.rc = 0 → s.runInstr c x f iter = skips s 1) ∧
        (x.rept = .repn → 64 < k.rc.toNat → s.runInstr c x f iter = s.faulted c f { code := 1, info := 5 }))) ∧
  (
    ∀ (s : State) (c : Nat) (x : Enc) (f : Form) (iter : Bool → State → Ex Bool) (n : Nat) (u v : Nat → State),
      s.canIssue c = true → s.breaks c = false → s.fetch c (fetchLen x f.op) = .ok () s → s.asListed c = true → f.fault1 x = none →
      findMark ((s.cur c).dmark ++ (s.cur c).rmark) missSlot = none → guardPasses x.guard (s.cur c) = true →
      (s.cell c).micro = none → f.branch = false → x.rept = .repn → (s.cur c).rc.toNat = n → 0 < n → n ≤ 64 → u 0 = s →
      (∀ i < n, ∃ j, (u i).iterate c f iter (decide (i + 1 = n)) = .ok j (v i)) →
      (∀ i < n, u (i + 1) = (((v i).modCell c Cell.settled).modCur c (fun k => { k with rc := BitVec.ofNat 36 (n - 1 - i) })).spend c (s.levelOf c) f.cyc f.fixed) →
      (∀ i, i + 1 < n → ((u (i + 1)).cell c).stall = none) →
      s.runInstr c x f iter =
        ((u n).complete c (s.running c) (s.levelOf c) { f with fixed := true } (nextPc (s.cur c) x f.op) 0 true false).modCell c
          (fun y => { y with hold := y.stall.isSome }))

/-- R89, R97, R529, and the model's own choice (log entry 5): a cell that cannot issue executes nothing, a breakpoint comes
before the fetch, and a fetch fault before everything else. An instruction whose code words come from elsewhere than the
cell's own store (R210) is executed by the state that the fetch leaves, or waits for the words. R95, R96, R105, R106, R109,
R254: fault 1 for a prefix, form or count that is not admitted and for a repeat prefix on an instruction that writes RC or its
guard's predicate, unless a seventh extension syllable ends the decode first, before the guard is read; then the checks of C3
and of the depths. -/
def Obligations.BeforeTheEffect : Prop :=
  (
    ∀ (s : State) (c : Nat) (x : Enc) (f : Form) (iter : Bool → State → Ex Bool),
      (s.canIssue c = false → s.runInstr c x f iter = s) ∧
      (s.canIssue c = true → (s.cell c).hold = false → (s.cell c).micro = none → s.breaks c = true →
        s.runInstr c x f iter = s.modCell c (fun y => { y with dreq := some 1 })) ∧
      (s.canIssue c = true → (s.cell c).hold = false → (s.cell c).micro = none → s.breaks c = false → ∀ t,
        (∀ e, s.fetch c (fetchLen x f.op) = .flt e t → s.runInstr c x f iter = (t.wait c).faultOut c e) ∧
        (s.fetch c (fetchLen x f.op) = .stall t → s.runInstr c x f iter = t.wait c) ∧
        (s.fetch c (fetchLen x f.op) = .ok () t → t.Ready c x f → s.runInstr c x f iter = t.runInstr c x f iter)) ∧
      (∀ va : Nat,
        let k := s.cur c
        ((k.c[2]).usable = false ∨ (k.c[2]).x = false ∨ va < (k.c[2]).base ∨ (k.c[2]).top ≤ va →
          State.fetchWord c va s = .flt { code := 2, info := 6, va := va } s) ∧
        ((k.c[2]).usable = true → (k.c[2]).x = true → (k.c[2]).base ≤ va → va < (k.c[2]).top →
          (s.cell c).xlat = [] → s.translate c k.dom.toNat va = none → State.fetchWord c va s = .flt { code := 6, info := 2, va := va } (s.refill c va)))) ∧
  (
    ∀ (s : State) (c : Nat) (x : Enc) (f : Form) (iter : Bool → State → Ex Bool),
      let k := s.cur c
      let named : Bool := match x.guard with
        | .always => false
        | .ifSet p => decide (p ≠ 0 ∧ f.pred = some p.toNat)
        | .ifClear p => decide (p ≠ 0 ∧ f.pred = some p.toNat)
      let conflict : Prop := x.rept ≠ .once ∧ (f.rc = true ∨ named = true)
      let inadmissible : Prop := x.rept ≠ .once ∧ f.rep = false ∨ x.wide = true ∧ f.wide = false ∨ x.sat = true ∧ f.sat = false ∨
        x.ext.length ∉ f.exts ∨ f.bad = true
      let g := s.listedForm c x f
      (s.canIssue c = true → (s.cell c).hold = false → (s.cell c).micro = none → s.breaks c = false →
          s.fetch c (fetchLen x f.op) = .ok () s →
        (7 ≤ x.ext.length → s.runInstr c x f iter = s.faulted c f { code := 1, info := 3 }) ∧
        (x.ext.length < 7 → conflict → s.runInstr c x f iter = s.faulted c f { code := 1, info := 4 }) ∧
        (x.ext.length < 7 → ¬ conflict → inadmissible → s.runInstr c x f iter = s.faulted c f { code := 1, info := 3 })) ∧
      (s.Ready c x f → 0 < f.pops + f.pushes + f.rpops + f.rpushes →
        ((k.c[3]).usable = false ∨ (k.c[3]).r = false ∨ (k.c[3]).w = false →
          s.runInstr c x f iter = s.refused c g 11) ∧
        ((k.c[3]).usable = true → (k.c[3]).r = true → (k.c[3]).w = true →
          (k.depth < f.pops → s.runInstr c x f iter = s.faulted c g { code := 5, info := 1 }) ∧
          (f.pops ≤ k.depth → k.rdepth < f.rpops → s.runInstr c x f iter = s.faulted c g { code := 5, info := 2 }) ∧
          (f.pops ≤ k.depth → f.rpops ≤ k.rdepth →
            (k.dsp.toNat : Int) + f.pops - f.pushes < (k.rsp.toNat : Int) - f.rpops + f.rpushes →
            s.runInstr c x f iter = s.faulted c g { code := 5, info := 3 }))))

/-- R112, R120, R121, R191: what an instruction reads in a data slot: under the load shadow the old value, in a marked slot
its fault, in a slot that waits for its data nothing yet; and a popped slot that a load has written keeps its old value, the
loaded one being discarded. R110, R115, R116: pushing and popping moves DSP and the occupancy alone, and the entries below
keep their values. -/
def Obligations.Operands : Prop :=
  (
    ∀ (s : State) (c i : Nat),
      let k := s.cur c
      (∀ q, k.shadow.find? (fun q => decide (q.1 = k.slot i)) = some q → s.operand c i = .ok q.2 s) ∧
      (k.shadow.find? (fun q => decide (q.1 = k.slot i)) = none →
        (∀ m, k.dmark.find? (fun m => decide (m.slot = k.slot i)) = some m →
          s.operand c i = .flt { code := m.code.toNat, info := m.info.toNat, va := m.va.toNat, pa := m.pa } s) ∧
        (k.dmark.find? (fun m => decide (m.slot = k.slot i)) = none →
          ((∃ q ∈ k.pend, q.1 = k.slot i) → s.operand c i = .stall s) ∧
          ((∀ q ∈ k.pend, q.1 ≠ k.slot i) → s.operand c i = .ok (k.dget (k.slot i)) s))) ∧
      (∀ slot q, slot < 16 → k.shadow.find? (fun q => decide (q.1 = slot)) = some q → (k.release slot).dget slot = q.2) ∧
      (∀ slot, (k.release slot).shadow.find? (fun q => decide (q.1 = slot)) = none ∧
        ∀ j ≠ slot, (k.release slot).dget j = k.dget j)) ∧
  (
    ∀ (k : Bank) (w : Word), k.shadow = [] → k.dsp.toNat ≤ k.c[3].top → k.c[3].top - k.dsp.toNat < 2 ^ 28 → 0 < k.dsp.toNat →
      (k.push w).dsp = k.dsp - 1 ∧ (k.push w).dw = k.dw + 1 ∧ (k.push w).dget ((k.push w).slot 0) = w ∧
      (∀ i, i + 1 < 16 → i < k.depth → (k.push w).dget ((k.push w).slot (i + 1)) = k.dget (k.slot i)) ∧
      (k.push w).popN 1 = { k with
        dwin := (k.push w).dwin, pend := k.pend.filter (fun q => decide (q.1 ≠ (k.push w).slot 0)),
        dmark := k.dmark.filter (fun m => decide (m.slot ≠ (k.push w).slot 0)) } ∧
      (k.push w).rwin = k.rwin ∧ (k.push w).pc = k.pc ∧ (k.push w).c = k.c ∧ (k.push w).a = k.a ∧ (k.push w).flags = k.flags)

/-- R127, R186: completion of an instruction. The running bank's PC moves on, a load shadow that was pending ends, and the
cycles count to the level; no other bank, no other cell and no memory word changes, and no register but that count. -/
def Obligations.Completion : Prop :=
  ∀ (s : State) (c : Nat) (x : Enc) (f : Form) (k : Bank), c < 256 → x.rept = .once → s.running c < 8 → s.throughput c = false →
    let t := s.after c x f k
    let used := Reg.CELL_LUSED_CYC c (s.running c)
    t.cur c = { k with pc := nextPc (s.cur c) x f.op, shadow := if f.load then k.shadow else [] } ∧
    t.get used = min (s.get used + f.cyc) (2 ^ used.len - 1) ∧ (∀ off ≠ used.off, t.reg off = s.reg off) ∧
    (∀ b ≠ s.running c, t.bank c b = s.bank c b) ∧ (∀ d ≠ c, t.cell d = s.cell d) ∧ t.mem = s.mem ∧ t.msgs = s.msgs ∧
    (t.cell c).sb = (s.cell c).sb ∧ (t.cell c).held = (s.cell c).held ∧ t.rime = s.rime ∧ t.pending = s.pending

/-- R255 to R257, R260, R261: taking a fault outside the F-bank. The record is written, the F-bank entered at syllable address
32 x code with its stacks empty over its C3, as code 9 where the bank's mask escalates the fault; the bank that is left keeps
its registers. R264, R265: a fault in the F-bank locks the cell up: the slot's bit of CLU_LOCKUP, the first lockup in
CELL_DFAULT, a class F message, and no bank runs. LKMIG = 0: no migration follows. -/
def Obligations.TakingAFault : Prop :=
  (
    ∀ (s : State) (c : Nat) (e : CellFault), c < 256 → s.running c ≠ 9 → s.running c < 16 → e.code < 16 → e.info < 256 → e.va < 2 ^ 32 → e.pa < 2 ^ 50 →
      let b := s.running c
      let k := s.cur c
      let h := s.bank c 9
      let up : Prop := 2 ≤ k.mask.toNat ∧ (e.code = 3 ∨ e.code = 4) ∨ k.mask.toNat = 3 ∧ (e.code = 8 ∨ e.code = 11)
      let t := s.takeFault c e
      t.running c = 9 ∧
      ((up ∧ t.get (Reg.CELL_FCAUSE_CODE c) = 9 ∧ t.get (Reg.CELL_FCAUSE_ORIG c) = e.code ∨
        ¬ up ∧ t.get (Reg.CELL_FCAUSE_CODE c) = e.code ∧ t.get (Reg.CELL_FCAUSE_ORIG c) = 0)) ∧
      t.get (Reg.CELL_FCAUSE_BANK c) = b ∧ t.get (Reg.CELL_FCAUSE_INFO c) = e.info ∧
      t.get (Reg.CELL_FPC_PC c) = k.pc.toNat ∧ t.get (Reg.CELL_FRPC_PC c) = k.pc.toNat ∧
      t.get (Reg.CELL_FADDR_VA c) = (if e.code = 2 ∨ e.code = 6 ∨ e.code = 7 then e.va else 0) ∧
      t.get (Reg.CELL_FPADDR0_LO c) = (if e.code = 7 then e.pa % 2 ^ 36 else 0) ∧
      (t.bank c 9).pc.toNat = 32 * t.get (Reg.CELL_FCAUSE_CODE c) ∧
      (t.bank c 9).dsp = BitVec.ofNat 32 h.c[3].top ∧ (t.bank c 9).rsp = BitVec.ofNat 32 h.c[3].base ∧
      (t.bank c 9).dw = 0 ∧ (t.bank c 9).rw = 0 ∧ (t.bank c 9).link = Link.empty ∧ (t.bank c 9).mp = 0 ∧
      (t.bank c 9).c = h.c ∧ (t.bank c 9).a = h.a ∧ (t.bank c 9).mask = h.mask ∧
      (∀ d ≠ 9, t.bank c d = s.bank c d) ∧ (∀ d ≠ c, t.cell d = s.cell d) ∧ t.mem = s.mem) ∧
  (
    ∀ (s : State) (c : Nat) (e : CellFault), c < 256 → s.running c = 9 → e.code < 16 → s.slotOf c ≤ 16 → s.on Reg.RPR_CTRL_LKMIG = false →
      (s.msgs.filter (fun m => decide (m.src = s.physOf c))).length < 4 →
      let t := s.takeFault c e
      t.running c = 15 ∧ t.locked c = true ∧ t.on (Reg.CELL_DFAULT_VALID c) = true ∧
      (s.on (Reg.CELL_DFAULT_VALID c) = false → t.get (Reg.CELL_DFAULT_SECOND c) = e.code ∧
        t.get (Reg.CELL_DFAULT_FIRST c) = s.get (Reg.CELL_FCAUSE_CODE c) ∧ t.get (Reg.CELL_DFAULT_BANK c) = s.get (Reg.CELL_FCAUSE_BANK c)) ∧
      (s.on (Reg.CELL_DFAULT_VALID c) = true → t.reg (Reg.CELL_DFAULT_VALID c).off = s.reg (Reg.CELL_DFAULT_VALID c).off) ∧
      t.msgs = s.msgs ++ [{ src := s.physOf c, kind := 0x23, cls := 3, av := false, pers := true, info := c }] ∧
      (∀ b, t.bank c b = s.bank c b) ∧ (∀ d ≠ c, t.cell d = s.cell d) ∧ t.mem = s.mem)

/-! ## Events of the cells -/

/-- R191, R192: the data of a load reach its slot, or mark it. R201, R206: the head entry of a store buffer drains to memory,
is sent to the fabric, or is refused. R110 to R113: a background spill or fill of either window, where nothing of the cell
waits in its store buffer; a miss marks the entry. -/
def Obligations.PipelineEvents : Prop :=
  ∀ (c : CellId) (s : State), s.Calm →
    let y := s.cell c.toNat
    (∀ (l : PendLoad) (slot va pa : Nat) (got : Option Word),
      let k := s.bank c.toNat l.bank
      let waits : List (Nat × Nat) := k.pend.filter (fun q => decide (q ≠ (slot, l.id)))
      y.loads.find? (fun q => q.words.all (fun w => w.got.isSome)) = some l → y.stall = none → l.slots = [(slot, 0)] →
      l.nonet = none → l.fwd = [] → l.words = [⟨va, pa, some got, false⟩] → (slot, l.id) ∈ k.pend →
      exec (.loadDataReturn c) s = .next (((s.modCell c.toNat (fun y => { y with loads := y.loads.filter (fun q => decide (q.id ≠ l.id)) })).setBank
        c.toNat l.bank (match got with
          | some w => { k with pend := waits }.dset slot w
          | none => { k with pend := waits, dmark := ⟨slot, 7, 3, BitVec.ofNat 32 va, pa⟩ :: k.dmark })).close)) ∧
    (∀ (e : SbEntry) (rest : List SbEntry) (w : Word) (en : BitVec 4) (key : Nat), y.sb = e :: rest → y.resetDue = false → e.words = [(w, en)] →
      (s.area e.pa = .store key → s.busBusy e.pa = false → s.mirrorOf key = none → e.ret = false → en = 0xF →
        Gives (.storeBufferDrain c) s (fun t => t.word key = w ∧ t.tagOf key = e.tag ∧ t.eccAt key = none ∧
          (∀ j ≠ key, t.word j = s.word j) ∧ t.cell c.toNat = { y with sb := rest } ∧ (s.memoryOf t).Frame t [] [c.toNat])) ∧
      (s.area e.pa = .hole →
        exec (.storeBufferDrain c) s = .next (((s.sendAddr (s.physOf c.toNat) 0x10 2 e.pa).setSb c.toNat rest).close)) ∧
      (∀ tag, s.area e.pa = .fabric → e.issued = false → e.dev = false → s.freeTag c.toNat = some tag →
        Gives (.storeBufferDrain c) s (fun t => (t.cell c.toNat).sb = { e with issued := true } :: rest ∧
          ∃ x ∈ t.fab.txs, x.port = c.toNat / 64 ∧ x.tag = tag ∧ x.cell = c.toNat ∧ x.wr = true ∧ x.addr = e.pa - e.pa % 2 ∧ x.beats = 1 ∧
            x.data = (if e.pa % 2 = 0 then [(w, en)] else [(0, 0), (w, en)]) ∧ x.purpose = .drain))) ∧
    (∀ (r : Bool) (p : Phys) (key : Nat),
      let k := s.cur c.toNat
      let n := k.occ r
      let last := k.slotI r (n - 1)
      let next := k.slotI r n
      let own (va : Nat) : Prop := s.translate c.toNat k.dom.toNat va = some p ∧ p.dev = false ∧ s.area p.pa = .store key ∧ s.reach c.toNat p.pa = .own ∧
        s.busBusy p.pa = false
      s.live c.toNat = true → s.dead c.toNat = false → s.running c.toNat ≤ 10 → y.sb = [] → y.xlat = [] → s.setHeld c.toNat = true →
      ((if r then 6 else 12) < n → findMark (k.marks r) last = none → (r = false → k.isPend last = false) →
        (own (k.homeI r (n - 1)) → s.retained p.via = false → s.mirrorOf key = none →
          Gives (.backgroundSpillFill c r) s (fun t => t.word key = k.getI r last ∧ t.tagOf key = false ∧ t.eccAt key = none ∧
            (∀ j ≠ key, t.word j = s.word j) ∧ t.cur c.toNat = k.setOcc r (n - 1) ∧ s.onlyBank t c.toNat (s.running c.toNat) ∧
            (s.memoryOf t).Frame t [] [c.toNat])) ∧
        (s.translate c.toNat k.dom.toNat (k.homeI r (n - 1)) = none →
          exec (.backgroundSpillFill c r) s = .next ((s.setCur c.toNat ((k.unmark r 16).setMarks r
            (⟨16, 6, 3, BitVec.ofNat 32 (k.homeI r (n - 1)), 0⟩ :: (k.unmark r 16).marks r))).close))) ∧
      (n < (if r then 2 else 4) → n < k.deep r →
        (own (k.homeI r n) → s.eccAt key = none →
          exec (.backgroundSpillFill c r) s = .next ((s.setCur c.toNat ((k.setI r next (s.word key)).setOcc r (n + 1))).close)) ∧
        (s.translate c.toNat k.dom.toNat (k.homeI r n) = none →
          exec (.backgroundSpillFill c r) s = .next ((s.setCur c.toNat ((k.setMarks r
            (⟨next, 6, 3, BitVec.ofNat 32 (k.homeI r n), 0⟩ :: k.marks r)).setOcc r (n + 1))).close))))

/-- R231, R256 to R258: FAULT_ENTRY takes a fault of the fetched code or of its microwords, or the oldest held one as an
asynchronous fault. R388 to R391: INTERRUPT_ENTRY takes the presented source, or delivers vector 0 where it has been
withdrawn, as it also does where a withdrawal met the acceptance, which a free value says (R393). R286 to R290:
SCHEDULER_SWITCH dispatches the most urgent level, whose task starts at entry or resumes, or leaves the cell idle. R529:
DEBUG_ENTRY. -/
def Obligations.HandlerEntries : Prop :=
  ∀ (c : CellId) (s : State), s.Calm →
    let n := s.running c.toNat
    let y := s.cell c.toNat
    let entered (t : State) (b : Nat) (pc : Nat) : Prop :=
      t.running c.toNat = b ∧ (t.bank c.toNat b).pc.toNat = pc ∧ (t.bank c.toNat b).dsp = BitVec.ofNat 32 ((s.bank c.toNat b).c[3]).top ∧
      (t.bank c.toNat b).rsp = BitVec.ofNat 32 ((s.bank c.toNat b).c[3]).base ∧ (t.bank c.toNat b).dw = 0 ∧ (t.bank c.toNat b).rw = 0 ∧
      (t.bank c.toNat b).c = (s.bank c.toNat b).c ∧ ∀ d ≠ b, t.bank c.toNat d = s.bank c.toNat d
    (s.canIssue c.toNat = true → s.breaks c.toNat = false →
      y.hold = false → y.micro = none → ∀ t : State,
      (∀ (info : BitVec 8) (va : VAddr), s.fetch c.toNat 1 = .ok () t → info ∈ ([1, 2, 3] : List (BitVec 8)) →
        exec (.faultEntry c (.sync 1 info va)) s = .next (t.faultOut c.toNat { code := 1, info := info.toNat })) ∧
      (∀ (code : BitVec 4) (info : BitVec 8) (va : VAddr) (pa : Nat), (code, info) ∈ ([(2, 6), (6, 2)] : List (BitVec 4 × BitVec 8)) →
        s.fetch c.toNat 16 = .flt ⟨code.toNat, info.toNat, va.toNat, pa⟩ t →
        exec (.faultEntry c (.sync code info va)) s = .next (t.faultOut c.toNat ⟨code.toNat, info.toNat, va.toNat, pa⟩)) ∧
      (∀ va : VAddr, s.fetch c.toNat 1 = .ok () s →
        exec (.faultEntry c (.sync 7 5 va)) s = .next (((((s.spoilMicro c.toNat 5 va.toNat).sendInfo (s.physOf c.toNat) 0x02 2 va.toNat).candidate
          (hiddenKey 2 (s.physOf c.toNat) va.toNat) (hiddenKey 2 (s.physOf c.toNat) va.toNat)).faultOut c.toNat
          { code := 7, info := 5, va := va.toNat })))) ∧
    (∀ (e : HeldFault) (rest : List HeldFault), s.acceptsHeld c.toNat = true → y.held = e :: rest → e.code ≠ 7 → (s.cur c.toNat).mask = 0 →
      Gives (.faultEntry c .held) s (fun t => entered t 9 (32 * e.code.toNat) ∧ (t.cell c.toNat).held = rest ∧
        t.get (Reg.CELL_FCAUSE_CODE c.toNat) = e.code.toNat ∧ t.get (Reg.CELL_FCAUSE_INFO c.toNat) = e.info.toNat ∧
        t.on (Reg.CELL_FCAUSE_ASYNC c.toNat) = true ∧ t.get (Reg.CELL_FCAUSE_BANK c.toNat) = n ∧
        t.get (Reg.CELL_FRPC_PC c.toNat) = (s.cur c.toNat).pc.toNat)) ∧
    (∀ src, slookup c.toNat s.presented = some src → s.acceptsIrq c.toNat = true → 16 ≤ src → src < 4096 →
      let met := c.toNat ∈ s.withdrawn ∧ Config.withdrawalMeets s.fresh = true
      (s.eligible src = true → s.irqTarget src = c.toNat → ¬ met →
        Gives (.interruptEntry c) s (fun t =>
          entered t 8 (4 * ((s.get (Reg.CELL_IVBASE_VA c.toNat) + 4 * s.irqLvec src) % 2 ^ 32)) ∧ (t.cell c.toNat).iFrom = n ∧
          t.irqPend src = false ∧ t.irqInsv src = true ∧ t.on (Reg.CELL_ISRV_V c.toNat) = true ∧
          t.get (Reg.CELL_ISRV_SRC c.toNat) = src ∧ t.get (Reg.CELL_ISRV_LVEC c.toNat) = s.irqLvec src)) ∧
      (s.eligible src = false ∨ met →
        Gives (.interruptEntry c) s (fun t => entered t 8 (4 * s.get (Reg.CELL_IVBASE_VA c.toNat)) ∧ (t.cell c.toNat).iFrom = n ∧
          t.on (Reg.CELL_ISRV_V c.toNat) = true ∧ t.get (Reg.CELL_ISRV_SRC c.toNat) = 0 ∧ t.get (Reg.CELL_ISRV_LVEC c.toNat) = 0 ∧
          s.counted t Reg.IRQ_SPUR_COUNT ∧ t.reg (Reg.IRQ_ST_PEND src).off = s.reg (Reg.IRQ_ST_PEND src).off))) ∧
    (s.switchFree c.toNat = true →
      (∀ m < 8, s.urgent c.toNat = some m → (n = 15 ∨ m < n) → s.runnable c.toNat m (s.curTask c.toNat m) = true →
        let k := s.bank c.toNat m
        (s.task c.toNat m (s.curTask c.toNat m) = 1 →
          s.eccAt (s.storeWordKey c.toNat (s.tcwBase c.toNat m (s.curTask c.toNat m) + 13)) = none →
          Gives (.schedulerSwitch c) s (fun t => t.running c.toNat = m ∧ t.task c.toNat m (s.curTask c.toNat m) = 2 ∧
            t.bank c.toNat m = { k with
              pc := (s.word (s.storeWordKey c.toNat (s.tcwBase c.toNat m (s.curTask c.toNat m) + 13))).setWidth 34,
              dsp := BitVec.ofNat 32 (k.c[3]).top, rsp := BitVec.ofNat 32 (k.c[3]).base, dwin := Vector.replicate 16 0, dw := 0,
              rwin := Vector.replicate 8 0, rw := 0, shadow := [], pend := [], dmark := [], rmark := [], link := Link.empty,
              flags := k.flags &&& 0xFFFFFFC3F } ∧
            (∀ d ≠ m, t.bank c.toNat d = s.bank c.toNat d))) ∧
        (s.task c.toNat m (s.curTask c.toNat m) = 2 →
          Gives (.schedulerSwitch c) s (fun t => t.running c.toNat = m ∧ (∀ d, t.bank c.toNat d = s.bank c.toNat d) ∧
            t.get (Reg.CELL_LUSED_CYC c.toNat m) = min (s.get (Reg.CELL_LUSED_CYC c.toNat m) + 8) (2 ^ (Reg.CELL_LUSED_CYC c.toNat m).len - 1)))) ∧
      (s.urgent c.toNat = none → n < 8 →
        Gives (.schedulerSwitch c) s (fun t => t.running c.toNat = 15 ∧ ∀ d, t.bank c.toNat d = s.bank c.toNat d))) ∧
    (s.acceptsDebug c.toNat = true → n < 9 →
      let info : Nat := match y.dreq with
        | some i => i.toNat
        | none => 4
      Gives (.debugEntry c) s (fun t => entered t 10 0x1C0 ∧ (t.cell c.toNat).dFrom = n ∧ (t.cell c.toNat).dreq = none ∧
        t.on (Reg.CELL_DCAUSE_V c.toNat) = true ∧ t.get (Reg.CELL_DCAUSE_BANK c.toNat) = n ∧ t.get (Reg.CELL_DCAUSE_INFO c.toNat) = info ∧
        t.get (Reg.CELL_DPC_PC c.toNat) = (s.cur c.toNat).pc.toNat ∧
        t.on (Reg.CELL_DCTL_HALT c.toNat) = (s.on (Reg.CELL_DCTL_HALT c.toNat) && decide (info ≠ 4))))
/-! ## The frame clock and Rime -/

/-- R18, R37, R43, R325, R329: a tick places its count and ideal instant, latches the inputs and commits the outputs, and then
goes on in the order of R18. R49 to R53: the deadline of level 0 and the cycle budget abandon a level's work, count, report
and raise fault 8. R278: the tick at a level. -/
def Obligations.Ticks : Prop :=
  (∀ s : State, s.dueTick = none → exec .tick s = .next s) ∧
  (∀ (s : State) (n : Nat) (first : Bool), s.dueTick = some (n, first) →
    let r := (s.deadline.egressPublish.placeTick n first).judgeStream
    exec .tick s = .next (((r.2.edges n first r.1.missed).tickFrame (decide (s.deadline.egressPublish.stbyState = 1)) r.1).settle)) ∧
  (∀ (s : State) (n : Nat) (missed : Option (Nat × Nat)), s.rime.differs = [] →
    let t := s.edges n false missed
    let u := (({ s.countOut with rime := { s.countOut.rime with frames := s.get Reg.IMG_DEBOUNCE_FRAMES } }).latchEdge missed).commitEdge
    s.on Reg.IMG_CTRL_JEN = false → s.rime.hand = [] → s.rime.unusable = [] →
    let half := (s.frm.line.map (fun l => l.period / 65536)).getD 0 / 2
    t = { u with rime := { u.rime with first := false, phase := s.get Reg.IMG_EGRESS_PHASE_NS, egress := some ⟨n - s.depth, s.frm.tickAt,
      s.on Reg.IMG_CTRL_EGEN && !decide (2 ≤ s.stbyState), max 1000 (min (s.get Reg.IMG_EGRESS_PHASE_NS) half), decide (s.depth = 2)⟩ } }) ∧
  (∀ (s : State) (line : Timeline) (n : Nat) (first : Bool), s.frm.line = some line → n < 2 ^ 72 →
    let t := s.placeTick n first
    t.frame.toNat = n ∧ t.frm.now = max (line.instant n) s.frm.now ∧ t.frm.tickAt = line.instant n ∧ t.frm.next = some (n + 1) ∧
    t.get Reg.FRM_TICKT0_LO = line.instant n / 65536 % 2 ^ 36 ∧ t.get Reg.FRM_TICKT1_HI = line.instant n / 65536 / 2 ^ 36 % 2 ^ 28 ∧
    (first = true → t.on Reg.FRM_STAT_RUN = true ∧ t.on Reg.FRM_STAT_WAITLOCK = false)) ∧
  (∀ (s : State) (missed : Option (Nat × Nat)),
    let t := s.latchEdge missed
    t.rime.lat.words = s.rime.fill.words ∧ t.rime.prev = s.rime.lat ∧ t.rime.fill = s.rime.fill ∧
    t.get Reg.IMG_PLANES_LAT = s.get Reg.IMG_PLANES_FILL ∧ t.get Reg.IMG_PLANES_PREV = s.get Reg.IMG_PLANES_LAT ∧
    t.get Reg.IMG_PLANES_FILL = s.get Reg.IMG_PLANES_PREV ∧ t.mem = s.mem ∧ t.rime.comm = s.rime.comm) ∧
  (∀ s : State, (s.rime.stores.map Prod.fst).Nodup →
    let t := s.commitEdge
    (∀ w bits, t.rime.ebase.get bits w = (match slookup w s.rime.stores with
      | some (v, c) => if (slookup c s.rime.excl).isSome then s.rime.ebase.get bits w else v
      | none => s.rime.ebase.get bits w)) ∧
    t.rime.comm.words = (if s.depth = 2 then s.rime.ebase.words else t.rime.ebase.words) ∧ t.rime.prevComm = s.rime.comm ∧
    t.rime.stores = [] ∧ t.rime.excl = [] ∧ t.rime.lat = s.rime.lat ∧ t.mem = s.mem) ∧
  (∀ (s : State) (c : CellId) (n : LevelId), s.lvEn c.toNat n.toNat = true → s.on (Reg.CELL_LCFG_TICK c.toNat n.toNat) = true →
    let t := s.levelTick c.toNat n.toNat
    let st := s.lvState c.toNat n.toNat
    (st = 1 → t.lvState c.toNat n.toNat = 2 ∧ ∀ j ≤ s.lastTask c.toNat n.toNat, t.task c.toNat n.toNat j = 1) ∧
    (st ≠ 1 → s.on (Reg.CELL_LSTAT_TPEND c.toNat n.toNat) = true → s.counted t (Reg.CELL_LSTAT_TMISS c.toNat n.toNat)) ∧
    (st ≠ 1 → s.on (Reg.CELL_LSTAT_TPEND c.toNat n.toNat) = false → st = 3 ∨ n ≠ 0 → t = s.raise (Reg.CELL_LSTAT_TPEND c.toNat n.toNat)) ∧
    (st = 2 → s.on (Reg.CELL_LSTAT_TPEND c.toNat n.toNat) = false → n = 0 → t = s)) ∧
  (∀ s : State, s.rimeRun = true → s.frm.dlSeen = false → s.Calm → (∀ k < 16, s.mode k ≠ 2) →
    Gives .level0Deadline s (fun t => t.frm.dlSeen = true ∧ ∀ c < 256, s.live c = true → (s.cell c).late = false →
      ((s.cell c).fend = false → s.dead c = true ∨ s.lvEn c 0 = true →
        (t.cell c).late = true ∧ s.counted t (Reg.CELL_OVR_CONS c) ∧ s.counted t (Reg.CELL_OVR_TOTAL c) ∧
        (s.lvState c 0 = 2 → s.on (Reg.CELL_LCFG_TICK c 0) = true → t.lvState c 0 = 1) ∧
        (s.dead c = false → s.running c < 9 → (t.cell c).held = (s.cell c).held ++ [⟨8, 1, 0, 0, 0⟩])) ∧
      ((s.cell c).fend = true → t.get (Reg.CELL_OVR_CONS c) = 0 ∧ t.get (Reg.CELL_OVR_TOTAL c) = s.get (Reg.CELL_OVR_TOTAL c)))) ∧
  (∀ (s : State) (c : CellId) (n : LevelId), s.live c.toNat = true → s.get (Reg.CELL_LBUD_CYC c.toNat n.toNat) ≠ 0 →
    s.get (Reg.CELL_LBUD_CYC c.toNat n.toNat) ≤ s.get (Reg.CELL_LUSED_CYC c.toNat n.toNat) →
    s.lvState c.toNat n.toNat = 2 → s.dead c.toNat = false → s.running c.toNat < 9 → s.room (s.physOf c.toNat) → s.Calm →
    (n ≠ 0 → Gives (.cycleBudgetExceeded c n) s (fun t => t.lvState c.toNat n.toNat = 1 ∧ (t.cell c.toNat).noStart.getLsbD n.toNat = true ∧
      (t.cell c.toNat).held = (s.cell c.toNat).held ++ [⟨8, 2, n.toNat, 0, 0⟩] ∧
      t.msgs = s.msgs ++ [infoMsg (s.physOf c.toNat) 0x21 2 (n.toNat * 256 + c.toNat)])) ∧
    (n = 0 → s.paired c.toNat = false → (s.cell c.toNat).late = false → s.on (Reg.CELL_LCFG_TICK c.toNat 0) = true →
      Gives (.cycleBudgetExceeded c n) s (fun t => t.lvState c.toNat 0 = 1 ∧ (t.cell c.toNat).late = true ∧
        s.counted t (Reg.CELL_OVR_CONS c.toNat) ∧ (t.cell c.toNat).held = (s.cell c.toNat).held ++ [⟨8, 2, 0, 0, 0⟩] ∧
        t.msgs = s.msgs ++ [infoMsg (s.physOf c.toNat) 0x20 2 c.toNat]))) ∧
  (∀ (c : CellId) (n : LevelId) (s : State), s.Calm → s.get (Reg.CELL_LBUD_CYC c.toNat n.toNat) = 0 ∨
      s.get (Reg.CELL_LUSED_CYC c.toNat n.toNat) < s.get (Reg.CELL_LBUD_CYC c.toNat n.toNat) →
    exec (.cycleBudgetExceeded c n) s = .next s.close)

/-- R30 to R33, R39 to R42, R540: frame time, holdover, an update of the time port, the lock, and the start and stop of the frame
clock. Instants are in 2^-16 ns, and `time x` is frame time `x` fabric cycles of 81,920 such units after its base. -/
def Obligations.TimeEvents : Prop :=
  ∀ s : State,
    let time (x : Nat) : Nat := max s.frm.now (((s.frm.base + x * s.frm.pace.1 / s.frm.pace.2 : Nat) : Int) +
      s.frm.absorb * (min x s.frm.span : Nat) / s.frm.span).toNat
    (s.thawOver = true → s.on Reg.FRM_STAT_HOLD = false → s.room 0x400 →
      let x := max s.frm.cyc 1600
      let left := s.frm.span - min x s.frm.span
      Gives .holdover s (fun t => t.on Reg.FRM_STAT_HOLD = true ∧ t.msgs = s.msgs ++ [infoMsg 0x400 0x32 2 0] ∧ t.mem = s.mem ∧
        t.cells = s.cells ∧ t.frm = { s.frm with
          now := time x, base := time x, cyc := 0, pace := (81920, 1), absorb := s.frm.absorb * left / s.frm.span, span := max 1 left })) ∧
    (∀ (tai : BitVec 80) (cycles : BitVec 36), s.thawOver = true → s.room 0x400 →
      let x := max s.frm.cyc cycles.toNat
      let now := time x
      let nominal := x * s.frm.pace.1 / s.frm.pace.2
      let f : FrameClock := { s.frm with
        port := tai.toNat, now := now, base := now, cyc := 0, absorb := 0, span := 12800,
        pace := if 0 < x ∧ s.frm.port < tai.toNat ∧ tai.toNat ≤ s.frm.port + nominal + 1000 * 65536 then (tai.toNat - s.frm.port, x)
          else s.frm.pace }
      let goal : Nat := match s.frm.keep with
        | some o => ((tai.toNat : Int) + o).toNat
        | none => tai.toNat
      let off : Int := (goal : Int) - now
      let gap : Int := (tai.toNat : Int) - now
      let becomes (f : FrameClock) (slewing timeerr : Bool) (msgs : List Msg) : Prop :=
        Gives (.timeUpdate tai cycles) s (fun t => t.frm = f ∧ t.on Reg.FRM_STAT_HOLD = false ∧ t.on Reg.FRM_STAT_SLEWING = slewing ∧
          t.on Reg.FRM_STAT_TIMEERR = timeerr ∧ t.msgs = s.msgs ++ msgs ∧ t.mem = s.mem ∧ t.cells = s.cells)
      let err := s.on Reg.FRM_STAT_TIMEERR
      (s.on Reg.FRM_STAT_RUN = false →
        (|gap| ≤ 1000 * 65536 → becomes { f with slew := 0, absorb := gap } false err []) ∧
        (1000 * 65536 < |gap| → becomes { f with
          now := tai.toNat, base := tai.toNat, since := s.frm.since.map (fun x => x + tai.toNat - now) }
          (s.on Reg.FRM_STAT_SLEWING) err [])) ∧
      (s.on Reg.FRM_STAT_RUN = true →
        (|off| ≤ 1000 * 65536 → becomes { f with slew := 0, absorb := off } false err []) ∧
        (1000 * 65536 < |off| → |off| ≤ 1000000000 * 65536 → s.get Reg.FRM_CTRL_SLEW ≠ 0 → s.frm.keep = none →
          becomes { f with slew := off } true err []) ∧
        (1000 * 65536 < |off| → 1000000000 * 65536 < |off| ∨ s.get Reg.FRM_CTRL_SLEW = 0 ∨ s.frm.keep ≠ none →
          becomes { f with slew := 0, keep := some ((now : Int) - tai.toNat) } false true [infoMsg 0x400 0x31 2 0]))) ∧
    (s.thawOver = true → s.blockUp = true → s.room 0x400 →
      let follows (i : Instr) (pin pps : Bool) : Prop := Gives i s (fun t =>
        let lock := pin && pps
        t.on Reg.FRM_STAT_LOCK = lock ∧ t.frm.lockPin = pin ∧ t.frm.ppsOk = pps ∧ t.frm.now = s.frm.now ∧
        t.msgs = s.msgs ++ (if s.on Reg.FRM_STAT_LOCK = lock then [] else [infoMsg 0x400 0x30 1 (b2n lock)]) ∧
        t.frm.since = (if s.on Reg.FRM_STAT_LOCK ≠ lock ∧ s.on Reg.FRM_STAT_WAITLOCK = true then (if lock then some s.frm.now else none)
          else s.frm.since))
      (∀ off : BitVec 32, follows (.ppsEdge off) s.frm.lockPin (decide (off.toNat ≤ 2))) ∧
      (∀ pin, follows (.timeLockChange pin) pin s.frm.ppsOk)) ∧
    (s.blockUp = false →
      (∀ off : BitVec 32, Gives (.ppsEdge off) s (fun t => t.frm = s.frm ∧ t.on Reg.FRM_STAT_LOCK = s.on Reg.FRM_STAT_LOCK ∧ t.msgs = s.msgs)) ∧
      (∀ pin, Gives (.timeLockChange pin) s (fun t =>
        t.frm = { s.frm with lockPin := pin } ∧ t.on Reg.FRM_STAT_LOCK = s.on Reg.FRM_STAT_LOCK ∧ t.msgs = s.msgs))) ∧
    (∀ slew : BitVec 2, s.shuts 0x1000 = false → s.Calm →
      (s.on Reg.FRM_CTRL_EN = false → s.allStopped = true → s.thawOver = true →
        (s.settings.sound = true → Gives (.frameClockStart slew) s (fun t => t.on Reg.FRM_CTRL_EN = true ∧ t.get Reg.FRM_CTRL_SLEW = slew.toNat ∧
          t.on Reg.FRM_STAT_WAITLOCK = true ∧ t.on Reg.FRM_STAT_CFGERR = s.on Reg.FRM_STAT_CFGERR ∧
          t.frm = { s.frm with line := some s.settings, next := none, since := if s.on Reg.FRM_STAT_LOCK then some s.frm.now else none })) ∧
        (s.settings.sound = false → Gives (.frameClockStart slew) s (fun t => t.on Reg.FRM_CTRL_EN = true ∧
          t.on Reg.FRM_STAT_CFGERR = true ∧ t.frm = { s.frm with line := none, next := none, since := none }))) ∧
      (s.on Reg.FRM_CTRL_EN = false → s.allStopped = false ∨ s.thawOver = false →
        Gives (.frameClockStart slew) s (fun t => t.on Reg.FRM_CTRL_EN = false ∧ t.on Reg.FRM_STAT_WERR = true ∧ t.frm = s.frm)) ∧
      (s.on Reg.FRM_CTRL_EN = true → s.allStopped = true →
        Gives (.frameClockStop slew) s (fun t => t.on Reg.FRM_CTRL_EN = false ∧ t.get Reg.FRM_CTRL_SLEW = slew.toNat ∧
          t.on Reg.FRM_STAT_RUN = false ∧ t.on Reg.FRM_STAT_CFGERR = false ∧ t.on Reg.FRM_STAT_WAITLOCK = false ∧
          t.on Reg.FRM_STAT_SLEWING = false ∧ t.frm.next = none ∧ t.frm.keep = none)) ∧
      (s.on Reg.FRM_CTRL_EN = true → s.allStopped = false →
        Gives (.frameClockStop slew) s (fun t => t.on Reg.FRM_CTRL_EN = true ∧ t.on Reg.FRM_STAT_WERR = true ∧ t.frm = s.frm)))
/-- R46, R332 to R335, R376: Rime takes the head entry of a source whose queue holds four-word entries: the word enters the
filling plane, is held, or is discarded, by the stamp; R344, R345, R347: a debounced input; R348 to R350: a pass publishes a
record into a queue. -/
def Obligations.RimeEvents : Prop :=
  (∀ (src : BitVec 6) (s : State) (line : Timeline) (f : Nat), s.Calm →
    let q := s.get (Reg.IMG_INSRC_QUEUE src.toNat)
    let v (j : Nat) : Word := s.word (s.key (s.ringAddr q (s.qHead q) j))
    let w := (v 0).toNat / 16 % 2 ^ 17
    let kind := (v 0).toNat / 2 ^ 32
    let stamp := ((v 1).toNat + (v 2).toNat % 2 ^ 28 * 2 ^ 36) * 65536 + (v 2).toNat / 2 ^ 28 * 256
    let bits := decide (s.inType w = 3)
    let new : Word := if kind = 2 then setLane (s.readFilling w) ((v 0).toNat % 16)
        ((v 3).toNat % 2 + 2 * (if (v 3).toNat / 2 % 4 = 2 then 1 else (v 3).toNat / 2 % 4) + 8 * ((v 3).toNat / 8 % 2))
      else normWord bits (v 3)
    let taken (t : State) : Prop := t.qCount q = s.qCount q - 1 ∧ t.qHead q = (s.qHead q + 1) % s.qSize q
    let written (t : State) : Prop := t.readFilling w = new ∧ (∀ j ≠ w, t.readFilling j = s.readFilling j)
    let kept (t : State) : Prop := t.rime.fill = s.rime.fill
    src ≠ 63 → s.rimeRun = true → s.on (Reg.IMG_INSRC_EN src.toNat) = true → src.toNat ∉ s.rime.failed → src.toNat ∉ s.rime.unusable →
    s.Readable q → s.rimeRefused q = false → 0 < s.qCount q → s.qEsz q = 4 → s.mustWait q true = false →
    (∀ j < 4, s.eccAt (s.key (s.ringAddr q (s.qHead q) j)) = none) → s.frm.line = some line → s.frm.next = some f →
    ((s.following && s.inRange w) = false →
      (s.entryOk src.toNat (v 0) = false →
        Gives (.ingressEntry src) s (fun t => taken t ∧ kept t ∧ s.counted t Reg.IMG_INDISC_COUNT ∧ t.msgs = s.msgs)) ∧
      (s.entryOk src.toNat (v 0) = true →
        (stamp + line.guard * 65536 < line.instant (f - 1) → stamp + line.guard * 65536 < line.instant f →
          stamp + line.guard * 65536 < line.instant (f + 1) →
          Gives (.ingressEntry src) s (fun t => taken t ∧ written t ∧ s.counted t Reg.FRM_LATE_COUNT ∧ t.msgs = s.msgs)) ∧
        (line.instant (f - 1) ≤ stamp + line.guard * 65536 → stamp + line.guard * 65536 < line.instant f →
          stamp + line.guard * 65536 < line.instant (f + 1) →
          Gives (.ingressEntry src) s (fun t => taken t ∧ written t ∧ src.toNat ∈ t.rime.wrote ∧
            t.get Reg.FRM_LATE_COUNT = s.get Reg.FRM_LATE_COUNT ∧ t.msgs = s.msgs)) ∧
        (line.instant f ≤ stamp + line.guard * 65536 → stamp + line.guard * 65536 < line.instant (f + 1) →
          exec (.ingressEntry src) s = .next s.close) ∧
        (line.instant (f + 1) ≤ stamp + line.guard * 65536 → s.room 0x401 →
          Gives (.ingressEntry src) s (fun t => taken t ∧ kept t ∧ s.counted t Reg.FRM_EARLY_COUNT ∧
            t.msgs = s.msgs ++ [infoMsg 0x401 0x33 1 w]))))) ∧
  (∀ (inp : BitVec 6) (sample : Bool) (stamp : BitVec 80) (s : State) (line : Timeline) (f : Nat), s.blockUp = true → s.rimeRun = true → inp < 36 →
    s.frm.line = some line → s.frm.next = some f →
    let h := inp.toNat
    let i := Instr.debounceChange inp sample stamp
    let w := s.get (Reg.IMG_HANDMAP_INDEX h)
    let ln := s.get (Reg.IMG_HANDMAP_LANE h)
    let reached := stamp.toNat + line.guard * 65536
    let same (t : State) : Prop := ∀ j < 36, t.on (inputFld j) = s.on (inputFld j)
    let flipped (t : State) : Prop := ∀ j < 36, t.on (inputFld j) = (s.on (inputFld j) != decide (j = h))
    let written (t : State) : Prop :=
      t.readFilling w = setLane (s.readFilling w) ln (if sample then 1 else 0) ∧ ∀ j ≠ w, t.readFilling j = s.readFilling j
    (sample = s.on (inputFld h) → Gives i s (fun t => same t ∧
      t.rime = { s.rime with differs := setErase h s.rime.differs, counts := serase h s.rime.counts })) ∧
    (sample ≠ s.on (inputFld h) → s.rime.frames ≠ 0 → Gives i s (fun t => same t ∧
      t.rime = { s.rime with differs := setInsert h s.rime.differs })) ∧
    (sample ≠ s.on (inputFld h) → s.rime.frames = 0 →
      (32 ≤ h ∨ s.on (Reg.IMG_HANDMAP_EN h) = false → Gives i s (fun t => flipped t ∧
        t.rime = { s.rime with differs := setErase h s.rime.differs, counts := serase h s.rime.counts })) ∧
      (h < 32 → s.on (Reg.IMG_HANDMAP_EN h) = true →
        ¬ (mapEn (s.inMap w) = true ∧ mapType (s.inMap w) = 3 ∧ mapSrc (s.inMap w) = 63 ∧ ln ≤ 8) →
        Gives i s (fun t => flipped t ∧ t.rime.fill = s.rime.fill ∧ t.rime.hand = s.rime.hand ∧ s.counted t Reg.IMG_INDISC_COUNT ∧
          t.get Reg.FRM_LATE_COUNT = s.get Reg.FRM_LATE_COUNT ∧ t.get Reg.FRM_EARLY_COUNT = s.get Reg.FRM_EARLY_COUNT ∧ t.msgs = s.msgs)) ∧
      (h < 32 → s.on (Reg.IMG_HANDMAP_EN h) = true → (s.following && s.inRange w) = false → mapEn (s.inMap w) = true →
        mapType (s.inMap w) = 3 → mapSrc (s.inMap w) = 63 → ln ≤ 8 → line.instant (f - 1) ≤ line.instant f →
        line.instant f ≤ line.instant (f + 1) →
        (reached < line.instant (f - 1) → Gives i s (fun t => flipped t ∧ written t ∧ s.counted t Reg.FRM_LATE_COUNT)) ∧
        (line.instant (f - 1) ≤ reached → reached < line.instant f → Gives i s (fun t => flipped t ∧ written t ∧
          t.get Reg.FRM_LATE_COUNT = s.get Reg.FRM_LATE_COUNT)) ∧
        (line.instant f ≤ reached → reached < line.instant (f + 1) → Gives i s (fun t => flipped t ∧ t.rime.fill = s.rime.fill ∧
          t.rime.hand = s.rime.hand ++ [(h, sample)])) ∧
        (line.instant (f + 1) ≤ reached → s.room 0x401 → Gives i s (fun t => flipped t ∧ t.rime.fill = s.rime.fill ∧
          t.rime.hand = s.rime.hand ∧ s.counted t Reg.FRM_EARLY_COUNT ∧ t.msgs = s.msgs ++ [infoMsg 0x401 0x33 1 w]))))) ∧
  (∀ s : State, s.rime.differs.Nodup → ∀ h ∈ s.rime.differs, h < 36 →
    let t := s.debounceTick
    let count := sget 0 h s.rime.counts + 1
    (s.get Reg.IMG_DEBOUNCE_FRAMES ≤ count → t.on (inputFld h) = !s.on (inputFld h) ∧ h ∉ t.rime.differs) ∧
    (count < s.get Reg.IMG_DEBOUNCE_FRAMES → t.on (inputFld h) = s.on (inputFld h) ∧ sget 0 h t.rime.counts = count)) ∧
  (∀ s : State, s.rime.egress = none → exec .egressPublication s = .next s.close) ∧
  (∀ (s : State) (p : EgressPass) (r : Nat), s.Calm → s.rime.egress = some p → s.records = [r] → r < 16384 → s.recordOk r = true →
    s.withheld p r = none → p.late r = false → s.recordPath r = 1 → s.mirrorOf (imageBase + recOff r 3) = none →
    let q := (s.img (recOff r 1)).toNat % 65536
    s.Readable q → s.rimeRefused q = false → s.mustWait q false = false → s.qCount q < s.qSize q →
    s.qEsz q = 4 → s.qDbe q = false →
    Gives .egressPublication s (fun t => t.rime.egress = none ∧ t.qCount q = s.qCount q + 1 ∧ t.qHead q = s.qHead q ∧
      (∀ j < 4, t.word (s.key (s.ringAddr q (s.enqSlot q) j)) = (s.egressEntry p (s.recordIndex r)).getD j 0) ∧
      t.img (recOff r 3) = BitVec.ofNat 36 p.frame))

/-- R382 to R385: what a write of the distributor's command registers does to a source, and R387: the source presented to a
cell is its lowest-numbered eligible one, and to a cell of a cluster in Retain none before one with WAKE = 1 wakes it (R394).
-/
def Obligations.InterruptSources : Prop :=
  (∀ (src : BitVec 12) (s : State), s.Calm → s.Settled → s.shuts 0x12000 = false → src ≠ 0 →
    let n := src.toNat
    let level := s.irqLevel n
    let arrived (line : Bool) (t : State) : Prop :=
      t.irqLine n = line ∧ t.irqInsv n = s.irqInsv n ∧ (∀ j < 4096, j ≠ n → t.reg (Reg.IRQ_ST_PEND j).off = s.reg (Reg.IRQ_ST_PEND j).off) ∧
      (if level = true ∨ s.irqPend n = false ∧ s.irqInsv n = false then t.irqPend n = true ∧ t.get (Reg.IRQ_ST_CNT n) = s.get (Reg.IRQ_ST_CNT n)
       else t.irqPend n = s.irqPend n ∧
         (if s.get (Reg.IRQ_ST_CNT n) < 15 then t.get (Reg.IRQ_ST_CNT n) = s.get (Reg.IRQ_ST_CNT n) + 1
          else t.get (Reg.IRQ_ST_CNT n) = 15 ∧ t.on (Reg.IRQ_ST_SAT n) = true ∧ s.counted t Reg.IRQ_LOST_COUNT))
    let quiet (line : Bool) (t : State) : Prop := t.irqLine n = line ∧ t.irqPend n = s.irqPend n ∧ t.irqInsv n = s.irqInsv n ∧
      t.get (Reg.IRQ_ST_CNT n) = s.get (Reg.IRQ_ST_CNT n)
    (16 ≤ n →
      Gives (.irqAssert src) s (if s.irqLine n then quiet true else arrived true) ∧
      Gives (.irqDeassert src) s (quiet false) ∧
      Gives (.irqPulse src) s (if s.irqLine n then quiet false else arrived false)) ∧
    (n < 16 → ∀ i ∈ [Instr.irqAssert src, .irqDeassert src, .irqPulse src], exec i s = .next (s.raise Reg.IRQ_STAT_BADSRC).close) ∧
    Gives (.irqPendset src) s (arrived (s.irqLine n)) ∧
    Gives (.irqPendclr src) s (fun t => t.irqPend n = false ∧ t.irqLine n = s.irqLine n ∧ t.irqInsv n = s.irqInsv n ∧
      t.get (Reg.IRQ_ST_CNT n) = if level then s.get (Reg.IRQ_ST_CNT n) else 0)) ∧
  (∀ (s : State) (c : CellId) (src : Nat), s.Inv → s.choose c.toNat = some src →
    s.eligible src = true ∧ s.irqTarget src = c.toNat ∧ (∀ j, 1 ≤ j → j < src → s.eligible j = true → s.irqTarget j ≠ c.toNat) ∧
    (s.inService c.toNat = false → s.runState (clusterOf c.toNat) ≠ 4 →
      (s.power (clusterOf c.toNat) ≤ 1 ∨ s.power (clusterOf c.toNat) = 2 ∧ s.wakes (clusterOf c.toNat) = true →
        slookup c.toNat (s.present c.toNat).presented = some src) ∧
      (s.power (clusterOf c.toNat) = 2 → s.wakes (clusterOf c.toNat) = false → s.present c.toNat = s)))
/-- R275 to R285, R291: events and their counts, the configuration of a level, the load of its TCW, and the staging set. -/
def Obligations.SchedulerEvents : Prop :=
  ∀ (c : CellId) (n : LevelId) (s : State), s.Calm →
    let count (kind : Nat) : Fld := ([Reg.CELL_LEV_POST, Reg.CELL_LEV_DB, Reg.CELL_LEV_TIM].getD kind Reg.CELL_LEV_POST) c.toNat n.toNat
    let enabled (kind : Nat) : Bool := s.on (([Reg.CELL_LCFG_POSTE, Reg.CELL_LCFG_DBE, Reg.CELL_LCFG_TIME].getD kind Reg.CELL_LCFG_POSTE) c.toNat n.toNat)
    let accepts (kind : Nat) : Bool := s.lvEn c.toNat n.toNat && enabled kind && !s.dead c.toNat && decide (s.runState (clusterOf c.toNat) = 0)
    let dropped : State → Prop := fun t => s.counted t (Reg.CELL_LDROP_COUNT c.toNat n.toNat)
    let counts (kind : Nat) (t : State) : Prop :=
      if accepts kind then
        (if s.get (count kind) < 255 then t.get (count kind) = s.get (count kind) + 1
         else t.get (count kind) = 255 ∧ t.on (Reg.CELL_LEV_SAT c.toNat n.toNat) = true ∧ dropped t) ∧
        t.lvState c.toNat n.toNat = (if s.lvState c.toNat n.toNat = 1 ∧ s.on (Reg.CELL_LCFG_TICK c.toNat n.toNat) = false ∧
          (s.cell c.toNat).noStart.getLsbD n.toNat = false then 2 else s.lvState c.toNat n.toNat)
      else dropped t ∧ t.get (count kind) = s.get (count kind) ∧ t.lvState c.toNat n.toNat = s.lvState c.toNat n.toNat
    let cfg := Reg.CELL_LCFG_EN c.toNat n.toNat
    let word (j o : Nat) : Nat := s.storeWordKey c.toNat (s.tcwBase c.toNat n.toNat j + o)
    let sound (j : Nat) : Prop := (∀ o < 25, s.eccAt (word j o) = none) ∧
      ∀ o < 8, s.tagA.contains (word j o - word j o % 2) = s.tagB.contains (word j o - word j o % 2)
    let w (j o : Nat) : Word := s.word (word j o)
    let cap (j i : Nat) : Cap := ⟨w j (2 * i), w j (2 * i + 1), s.tagOf (word j (2 * i))⟩
    let restored (j : Nat) (k : Bank) : Bank := { k with
      c := #v[cap j 0, cap j 1, cap j 2, cap j 3], a := #v[(w j 8).setWidth 32, (w j 9).setWidth 32, (w j 10).setWidth 32, (w j 11).setWidth 32],
      flags := w j 16 &&& 0x3CF, rc := w j 17, p := (w j 18).setWidth 8 &&& 0xFE ||| 1, mask := (w j 18).extractLsb' 8 2,
      dom := (w j 18).extractLsb' 16 6, acc0 := (w j 21).setWidth 8 ++ (w j 20 ++ w j 19), acc1 := (w j 24).setWidth 8 ++ (w j 23 ++ w j 22),
      dwin := Vector.replicate 16 0, dw := 0, rwin := Vector.replicate 8 0, rw := 0, shadow := [], pend := [], dmark := [], rmark := [],
      link := Link.empty }
    (∀ sender : CellId, (sender.toNat, c.toNat, n.toNat) ∈ s.posts → Gives (.postArrival sender c n) s (fun t =>
      counts 0 t ∧ t.posts = s.posts.erase (sender.toNat, c.toNat, n.toNat))) ∧
    ((c.toNat, n.toNat) ∈ s.bells → Gives (.doorbell c n) s (fun t => counts 1 t ∧ t.bells = s.bells.erase (c.toNat, n.toNat))) ∧
    (s.on (Reg.CELL_TIM_EN c.toNat n.toNat) = true → s.power (clusterOf c.toNat) ≤ 1 → s.runState (clusterOf c.toNat) ≠ 2 →
      s.runState (clusterOf c.toNat) ≠ 4 → Gives (.timerExpiry c n) s (fun t => counts 2 t ∧
        t.get (Reg.CELL_TIM_COUNT c.toNat n.toNat) = s.get (Reg.CELL_TREL_RELOAD c.toNat n.toNat) ∧
        t.on (Reg.CELL_TIM_EN c.toNat n.toNat) = decide (s.get (Reg.CELL_TREL_RELOAD c.toNat n.toNat) ≠ 0))) ∧
    (∀ v : Word, s.shuts (cellBase c.toNat + 0x120) = false → s.runState (clusterOf c.toNat) = 4 ∨
      s.power (clusterOf c.toNat) = 3 ∧ (s.get Reg.DBG_STAT_EMUL).testBit (clusterOf c.toNat) = false →
      exec (.levelEnable c n v) s = .next s.close ∧ exec (.levelDisable c n v) s = .next s.close) ∧
    (∀ v : Word, s.shuts (cellBase c.toNat + 0x120) = false → s.runState (clusterOf c.toNat) ≠ 4 →
      (s.power (clusterOf c.toNat) = 3 → (s.get Reg.DBG_STAT_EMUL).testBit (clusterOf c.toNat) = true) →
      let fits := v.toNat / 2 ^ 14 % 2 ^ 9 * 32 + 32 * (v.toNat / 2 ^ 27 % 16 + 1) ≤ 16384
      (s.on cfg = false →
        (fits → Gives (.levelEnable c n v) s (fun t => t.on cfg = true ∧ t.lvState c.toNat n.toNat = 3 ∧ t.curTask c.toNat n.toNat = 0 ∧
          t.on (Reg.CELL_LCFG_TICK c.toNat n.toNat) = (decide (n = 0) || v.getLsbD 34) ∧
          t.get (Reg.CELL_LCFG_NTASK c.toNat n.toNat) = v.toNat / 2 ^ 27 % 16 ∧ t.get (Reg.CELL_LCFG_TCWB c.toNat n.toNat) = v.toNat / 2 ^ 14 % 2 ^ 9 ∧
          (∀ j < 16, t.task c.toNat n.toNat j = 0))) ∧
        (¬ fits → Gives (.levelEnable c n v) s (fun t => t.on cfg = false ∧ t.on (Reg.CELL_STATE_CFGERR c.toNat) = true ∧
          t.lvState c.toNat n.toNat = s.lvState c.toNat n.toNat))) ∧
      (s.on cfg = true → Gives (.levelDisable c n v) s (fun t => t.on cfg = false ∧ t.lvState c.toNat n.toNat = 0 ∧
        t.reg (Reg.CELL_LEV_SAT c.toNat n.toNat).off = 0 ∧ t.on (Reg.CELL_LSTAT_TPEND c.toNat n.toNat) = false ∧
        t.running c.toNat = (if s.running c.toNat = n.toNat then 15 else s.running c.toNat)))) ∧
    (s.lvState c.toNat n.toNat = 3 → s.power (clusterOf c.toNat) ≤ 1 → s.runState (clusterOf c.toNat) ≠ 4 → sound 0 →
      (s.cell c.toNat).noStart.getLsbD n.toNat = false →
      Gives (.loadingEnd c n) s (fun t => t.bank c.toNat n.toNat = restored 0 (s.bank c.toNat n.toNat) ∧ t.curTask c.toNat n.toNat = 0 ∧
        t.on (Reg.CELL_LSTAT_TPEND c.toNat n.toNat) = (s.on (Reg.CELL_LSTAT_TPEND c.toNat n.toNat) && !s.on (Reg.CELL_LCFG_TICK c.toNat n.toNat)) ∧
        t.lvState c.toNat n.toNat = (if s.on (Reg.CELL_LCFG_TICK c.toNat n.toNat) then
            (if s.on (Reg.CELL_LSTAT_TPEND c.toNat n.toNat) then 2 else 1)
          else if s.lvEn c.toNat n.toNat && s.pendingEvent c.toNat n.toNat then 2 else 1))) ∧
    (∀ j, s.running c.toNat = n.toNat → s.throughput c.toNat = true → s.live c.toNat = true → s.dead c.toNat = false →
      0 < s.lastTask c.toNat n.toNat → s.lvState c.toNat n.toNat = 2 → s.nextTask c.toNat n.toNat = some j → (s.cell c.toNat).staging = none → sound j →
      Gives (.stagingReady c) s (fun t => (t.cell c.toNat).staging = some ⟨n.toNat, j, restored j
        (if s.task c.toNat n.toNat j = 1 then Bank.reset else { Bank.reset with
          pc := (w j 12).setWidth 34, dsp := (w j 14).setWidth 32, rsp := (w j 15).setWidth 32 })⟩ ∧ t.running c.toNat = n.toNat))
/-! ## Block units -/

/-- R399 to R404, R408, R409: what the command channels, a grant and a write of a descriptor do. A ring of the channel lies in
a cell store or a cluster memory (R402). -/
def Obligations.QueueManagerEvents : Prop :=
  (∀ (ch : BitVec 5) (q : BitVec 16) (s : State), s.Calm → s.shuts 0x5000 = false →
    let busy := Reg.QM_CHST_BUSY ch.toNat
    let status := Reg.QM_CHST_ST ch.toNat
    let starts (i : Instr) (deq : Bool) : Prop :=
      (s.on busy = true → exec i s = .next s.close) ∧
      (s.on busy = false → s.Readable q.toNat →
        Gives i s (fun t => t.on busy = true ∧ t.get status = s.get status ∧ t.mem = s.mem ∧ t.msgs = s.msgs ∧
          t.qm = (if s.channelRefused q.toNat deq then { s.qm with held := s.qm.held ++ [⟨q.toNat, deq, .channel ch.toNat, .status 5⟩] }
            else if s.mustWait q.toNat deq then { s.qm with waiting := s.qm.waiting ++ [⟨q.toNat, deq, .channel ch.toNat, s.qPlan q.toNat deq⟩] }
            else { s.qm with held := s.qm.held ++ [⟨q.toNat, deq, .channel ch.toNat, s.qPlan q.toNat deq⟩] })))
    starts (.channelEnqueue ch q) false ∧ starts (.channelDequeue ch q) true ∧
    (∀ op11, s.on busy = false → Gives (.channelIllegalOp ch op11 q) s (fun t => t.get status = 5 ∧ t.on busy = false ∧ t.qm = s.qm ∧ t.mem = s.mem)) ∧
    (∀ r, s.qm.held.find? (fun r => decide (r.agent = .channel ch.toNat)) = some r → s.Readable r.queue →
      let e := s.qEsz r.queue
      let buf (j : Nat) : Word := s.reg (Reg.QM_BUF_DATA ch.toNat j).off
      let ring (i j : Nat) : Word := s.word (s.key (s.ringAddr r.queue i j))
      let ended (st : Nat) (t : State) : Prop := t.on busy = false ∧ t.get status = st ∧ ∀ x ∈ t.qm.held, ¬ (x.queue = r.queue ∧ x.deq = r.deq ∧ x.agent = .channel ch.toNat)
      (r.plan = .go → r.deq = true → s.blockRing r.queue = true → (∀ j < e, s.eccAt (s.key (s.ringAddr r.queue (s.qHead r.queue) j)) = none) →
        Gives (.channelCompletion ch) s (fun t => ended 0 t ∧ t.qHead r.queue = (s.qHead r.queue + 1) % s.qSize r.queue ∧
          t.qCount r.queue = s.qCount r.queue - 1 ∧ ∀ j < e, t.reg (Reg.QM_BUF_DATA ch.toNat j).off = ring (s.qHead r.queue) j)) ∧
      (r.plan = .go → r.deq = false → s.blockRing r.queue = true → s.qCount r.queue < s.qSize r.queue → s.qDbe r.queue = false →
        Gives (.channelCompletion ch) s (fun t => ended 0 t ∧ t.qHead r.queue = s.qHead r.queue ∧ t.qCount r.queue = s.qCount r.queue + 1 ∧
          ∀ j < e, t.word (s.key (s.ringAddr r.queue (s.enqSlot r.queue) j)) = buf j)) ∧
      (∀ st < 8, r.plan = .status st → Gives (.channelCompletion ch) s (fun t => ended st t ∧ t.qCount r.queue = s.qCount r.queue ∧
        (r.deq = false → st = 2 → s.counted t Reg.QM_BPREF_COUNT) ∧
        (r.deq = false → st = 3 → (t.desc r.queue 3).toNat = min ((s.desc r.queue 3).toNat + 1) (2 ^ 36 - 1)))))) ∧
  (∀ (q : BitVec 16) (deq : Bool) (s : State) (r : QReq) (ch : Nat), s.Calm → s.Readable q.toNat →
    s.qm.waiting.find? (fun r => decide (r.queue = q.toNat) && decide (r.deq = deq)) = some r → s.reserved q.toNat deq = false →
    let granted (l : List QReq) : Prop := exec (.reservationGrant q deq) s =
      .next ({ s with qm := { s.qm with waiting := s.qm.waiting.erase r, held := s.qm.held ++ l } }).close
    (r.agent = .channel ch → granted [{ r with plan := if s.channelRefused q.toNat deq then .status 5 else s.qPlan q.toNat deq }]) ∧
    (r.agent = .cell ch → granted (if s.cellRefused ch q.toNat deq then [] else [{ r with plan := s.qPlan q.toNat deq }]))) ∧
  (∀ (m : Master) (q : BitVec 16) (w : BitVec 2) (v : Word) (s : State), s.Calm → s.shuts 0x3100000 = false → s.Readable q.toNat →
    (m = .slave → 2 ≤ s.slave.credits) →
    let old := s.desc q.toNat w.toNat
    let written (t : State) : Prop := ∀ p j : Nat, p < 65536 → j < 4 →
      t.desc p j = if p = q.toNat ∧ j = w.toNat then v else s.desc p j
    (s.qValid q.toNat = false → (w ≠ 1 ∨ v.getLsbD 1 = false) → Gives (.descriptorWrite m q w v) s written) ∧
    (s.qValid q.toNat = true → (w = 2 → v.toNat % 2 ^ 25 = old.toNat % 2 ^ 25) → (w = 0 → v = old) →
      (w = 1 → v.toNat / 2 ^ 13 = old.toNat / 2 ^ 13 ∧ v.getLsbD 0 = old.getLsbD 0 ∧ v.toNat / 8 % 4 ≠ 3) →
      Gives (.descriptorWrite m q w v) s written) ∧
    (s.qValid q.toNat = true → (w = 2 ∧ v.toNat % 2 ^ 25 ≠ old.toNat % 2 ^ 25 ∨ w = 0 ∧ v ≠ old ∨ w = 1 ∧ v.toNat / 2 ^ 13 ≠ old.toNat / 2 ^ 13) →
      Gives (.descriptorWrite m q w v) s (fun t => (∀ p j : Nat, p < 65536 → j < 4 → t.desc p j = s.desc p j) ∧ t.on Reg.QM_STAT_WERR = true ∧
        s.counted t Reg.QM_WERR_COUNT)) ∧
    (s.qValid q.toNat = false → w = 1 → v.getLsbD 1 = true →
      let log := v.toNat / 2 ^ 17 % 32
      let size := 2 ^ log
      let pos := (s.desc q.toNat 0).toNat + v.toNat / 2 ^ 22 * 2 ^ 36
      let cause : Option Nat := if log < 4 ∨ 24 < log ∨ v.toNat / 8 % 4 = 3 ∨ v.getLsbD 0 = true then some 1
        else if size < (s.desc q.toNat 2).toNat % 2 ^ 25 then some 2
        else if targetArea (pos - pos % size) (size * (v.toNat / 2 ^ 13 % 16 + 1)) = none then some 3
        else if v.getLsbD 2 = true ∧ s.runState (clusterOf ((s.desc q.toNat 2).toNat / 2 ^ 28)) = 4 then some 4 else none
      Gives (.descriptorWrite m q w v) s (fun t => t.qValid q.toNat = cause.isNone ∧
        (∀ x, cause = some x → t.on Reg.QM_STAT_DERR = true ∧ t.get Reg.QM_DERRQ_QUEUE = q.toNat ∧ t.get Reg.QM_DERRQ_CAUSE = x))))
/-- R413, R414, R419 to R424, R435, R438: a port starts, stops and integrates; a received frame goes to its buffer's shadow
and its words to a queue, and from the shadow into the buffer unless the port's lock is on it; the lock; bus-off recovery. -/
def Obligations.PortReception : Prop :=
  ∀ (n : BitVec 3) (s : State), s.Calm →
    let ram (b w : Nat) : Nat := bpRam n.toNat + 32 * b + w
    let frameBits (b : Nat) (x : CanFrame) (filt : Nat) (late : Bool) (s t : State) : Prop :=
      t.reg (ram b 1) = BitVec.ofNat 36 (b2n x.ide * 2 ^ 35 + b2n x.fdf * 2 ^ 34 + b2n x.brs * 2 ^ 33 + b2n x.rtr * 2 ^ 32 +
        (if x.ide then x.id.toNat else x.id.toNat % 2 ^ 11 * 2 ^ 18)) ∧
      (∀ w < 23, w = 1 ∨ w = 5 ∨ w = 6 ∨ 7 ≤ w ∧ w < 7 + canWords x → t.eccAt (ram b w) = none) ∧
      t.bufOn n.toNat b 3 35 = true ∧ t.bufOn n.toNat b 3 34 = late ∧
      t.bufOn n.toNat b 3 33 = (s.bufOn n.toNat b 3 33 || s.bufOn n.toNat b 3 35) ∧ t.bufOn n.toNat b 3 32 = x.esi ∧
      t.get (bufFld n.toNat b 3 28 4) = x.dlc.toNat ∧ t.get (bufFld n.toNat b 3 18 7) = filt ∧
      t.reg (ram b 5) = BitVec.ofNat 36 (x.stamp.toNat / 2 ^ 8) ∧
      t.reg (ram b 6) = BitVec.ofNat 36 (x.stamp.toNat % 2 ^ 8 * 2 ^ 28 + x.stamp.toNat / 2 ^ 44) ∧
      (∀ j < 16, t.reg (ram b (7 + j)) = if j < canWords x then
          BitVec.ofNat 36 (((List.range 4).map (fun i => canByte x (4 * j + i) * 512 ^ i)).sum) else s.reg (ram b (7 + j))) ∧
      (t.get (Reg.BP_IRQ_EV n.toNat)).testBit 0 = true
    let stopped (t : State) : Prop := (t.port n.toNat).tx = none ∧ (t.port n.toNat).leaving = false ∧
      t.on (Reg.BP_STAT_SYNC n.toNat) = false ∧ t.get (Reg.BP_ERR_STATE n.toNat) = 3
    (s.shuts (bpBase n.toNat) = false → ∀ v : Word,
      (s.on (Reg.BP_CTRL_EN n.toNat) = false → s.thawOver = true →
        (s.timingOk n.toNat (v.getLsbD 3) = true → Gives (.portEnable n v) s (fun t => t.on (Reg.BP_CTRL_EN n.toNat) = true ∧
          t.on (Reg.BP_CTRL_FDOE n.toNat) = v.getLsbD 3 ∧ t.on (Reg.BP_STAT_CFGERR n.toNat) = false ∧ t.on (Reg.BP_STAT_SYNC n.toNat) = false ∧
          t.get (Reg.BP_ERR_STATE n.toNat) = 3 ∧ t.get (Reg.BP_ERR_TEC n.toNat) = 0 ∧ t.get (Reg.BP_ERR_REC n.toNat) = 0)) ∧
        (s.timingOk n.toNat (v.getLsbD 3) = false → Gives (.portEnable n v) s (fun t => t.on (Reg.BP_CTRL_EN n.toNat) = false ∧
          t.on (Reg.BP_STAT_CFGERR n.toNat) = true))) ∧
      (s.on (Reg.BP_CTRL_EN n.toNat) = true → Gives (.portDisable n v) s (fun t => t.on (Reg.BP_CTRL_EN n.toNat) = false ∧
        (if s.onBus n.toNat = true ∧ ((s.port n.toNat).tx ≠ none ∨ Config.busIdle s.fresh = false) then
          t.port n.toNat = { s.port n.toNat with leaving := true, statusDue := false } ∧
          t.on (Reg.BP_STAT_SYNC n.toNat) = true ∧ t.get (Reg.BP_ERR_STATE n.toNat) = s.get (Reg.BP_ERR_STATE n.toNat)
        else stopped t) ∧
        ∀ b < 64, s.bufOn n.toNat b 0 34 = true → t.on (reqFld n.toNat b) = false ∧
          (s.on (reqFld n.toNat b) = true → t.get (txstFld n.toNat b) = 0)))) ∧
    (s.on (Reg.BP_CTRL_EN n.toNat) = true → s.get (Reg.BP_ERR_STATE n.toNat) = 3 →
      exec (.busIntegration n) s = .next (((s.raise (Reg.BP_STAT_SYNC n.toNat)).put (Reg.BP_ERR_STATE n.toNat) 0).settle)) ∧
    (∀ (x : CanFrame) (after : BitVec 16), s.onBus n.toNat = true → (s.port n.toNat).leaving = true →
      Gives (.frameReception n x after) s stopped) ∧
    (∀ (x : CanFrame) (after : BitVec 16), s.onBus n.toNat = true → (s.port n.toNat).leaving = false → x.fdf = true →
      s.on (Reg.BP_CTRL_FDOE n.toNat) = false →
      Gives (.frameReception n x after) s (fun t => t.mem = s.mem ∧ t.get (Reg.BP_ERR_LEC n.toNat) = 2 ∧
        (s.rxOnly n.toNat = true → t.get (Reg.BP_ERR_REC n.toNat) = s.get (Reg.BP_ERR_REC n.toNat) ∧
          t.port n.toNat = { s.port n.toNat with undo := [] }) ∧
        (s.rxOnly n.toNat = false → s.get (Reg.BP_ERR_TEC n.toNat) ≤ 255 → s.counted t (Reg.BP_EFCNT_COUNT n.toNat) ∧
          t.get (Reg.BP_ERR_REC n.toNat) = min 255 (s.get (Reg.BP_ERR_REC n.toNat) + 1) ∧
          t.port n.toNat = { s.port n.toNat with undo := [], tx := (s.port n.toNat).tx.map (fun y => { y with failed := true }) }))) ∧
    (∀ (x : CanFrame) (after : BitVec 16), s.onBus n.toNat = true → (s.port n.toNat).leaving = false →
      (x.fdf = true → s.on (Reg.BP_CTRL_FDOE n.toNat) = true) →
      let rec_ := s.get (Reg.BP_ERR_REC n.toNat)
      let old := ((s.port n.toNat).undo.take after.toNat).foldl (fun s u => s.setReg (bpBase n.toNat + u.1) u.2) s
      let i := Instr.frameReception n x after
      Gives i s (fun t =>
        (s.rxOnly n.toNat = true → t.get (Reg.BP_ERR_REC n.toNat) = rec_ ∧ t.get (Reg.BP_ERR_STATE n.toNat) = s.get (Reg.BP_ERR_STATE n.toNat)) ∧
        (s.rxOnly n.toNat = false → (rec_ ≤ 127 → t.get (Reg.BP_ERR_REC n.toNat) = rec_ - 1) ∧
          (127 < rec_ → 119 ≤ t.get (Reg.BP_ERR_REC n.toNat) ∧ t.get (Reg.BP_ERR_REC n.toNat) ≤ 127) ∧
          t.get (Reg.BP_ERR_STATE n.toNat) = (if s.get (Reg.BP_ERR_TEC n.toNat) < 128 then 0 else s.get (Reg.BP_ERR_STATE n.toNat)))) ∧
      (∀ k, old.filterFor n.toNat x = some (k, 63) → old.on (filterFld n.toNat k 0 31 1) = true → s.isRx n.toNat 63 = true →
        s.irqLine (8 + n.toNat) = false → s.irqPend (8 + n.toNat) = false → s.irqInsv (8 + n.toNat) = false →
        Gives i s (fun t => t.irqPend (8 + n.toNat) = true ∧ t.irqLine (8 + n.toNat) = false)) ∧
      (∀ k b, old.filterFor n.toNat x = some (k, b) → s.isRx n.toNat b = true → b < 64 → slookup b (s.port n.toNat).shadows = none →
        let late := s.frameLate n.toNat b (x.stamp.toNat * 256)
        let q := s.get (bufFld n.toNat b 4 0 16)
        (s.bufOn n.toNat b 4 35 = false ∨ x.rtr = true → Gives i s (fun t =>
          slookup b (t.port n.toNat).shadows = some ⟨x, k, late⟩ ∧ (∀ c w, c < 64 → w < 32 → t.reg (ram c w) = s.reg (ram c w)) ∧ t.mem = s.mem ∧
          (late = true → s.counted t (Reg.BP_LATE_COUNT n.toNat)) ∧
          t.get (Reg.BP_RXDROP_COUNT n.toNat) = s.get (Reg.BP_RXDROP_COUNT n.toNat))) ∧
        (s.bufOn n.toNat b 4 35 = true → x.rtr = false → canWords x = 1 → s.Readable q → s.rimeRefused q = false →
          s.mustWait q false = false → s.qCount q < s.qSize q → s.qEsz q = 4 → s.qDbe q = false →
          Gives i s (fun t => slookup b (t.port n.toNat).shadows = some ⟨x, k, late⟩ ∧ t.qCount q = s.qCount q + 1 ∧
            ∀ j < 4, t.word (s.key (s.ringAddr q (s.enqSlot q) j)) = ([BitVec.ofNat 36 (s.get (bufFld n.toNat b 4 18 17) * 16),
              BitVec.ofNat 36 (x.stamp.toNat / 2 ^ 8), BitVec.ofNat 36 (x.stamp.toNat % 2 ^ 8 * 2 ^ 28 + x.stamp.toNat / 2 ^ 44),
              BitVec.ofNat 36 ((if late then 3 * 2 ^ 34 else 0) + canByte x 0 * 2 ^ 24 + canByte x 1 * 2 ^ 16 + canByte x 2 * 2 ^ 8 + canByte x 3)] :
                List Word).getD j 0))) ∧
      (old.filterFor n.toNat x = none → Gives i s (fun t => s.counted t (Reg.BP_RXDROP_COUNT n.toNat) ∧
        (t.get (Reg.BP_IRQ_EV n.toNat)).testBit 4 = true ∧ t.port n.toNat = { s.port n.toNat with undo := [] } ∧ t.mem = s.mem))) ∧
    (∀ (b : BitVec 6) (sh : Shadow), slookup b.toNat (s.port n.toNat).shadows = some sh → sh.filt < 128 → (s.port n.toNat).lock ≠ some b.toNat →
      Gives (.shadowTransfer n b) s (fun t => frameBits b.toNat sh.frame sh.filt sh.late s t ∧
        slookup b.toNat (t.port n.toNat).shadows = none ∧ (t.port n.toNat).lock = (s.port n.toNat).lock)) ∧
    (∀ b : BitVec 6, (s.port n.toNat).lock = some b.toNat → exec (.shadowTransfer n b) s = .next s.close) ∧
    (∀ b : BitVec 6, s.shuts (0x30000 + 0x800 * n.toNat) = false →
      (s.isRx n.toNat b.toNat = true → (s.port n.toNat).lock = none →
        exec (.bufferLock n b) s = .next ((s.modPort n.toNat (fun p => { p with lock := some b.toNat })).close)) ∧
      ((s.port n.toNat).lock = some b.toNat →
        (slookup b.toNat (s.port n.toNat).shadows = none →
          exec (.lockRelease n b) s = .next ((s.modPort n.toNat (fun p => { p with lock := none })).close)) ∧
        (∀ sh, slookup b.toNat (s.port n.toNat).shadows = some sh → sh.filt < 128 →
          Gives (.lockRelease n b) s (fun t => frameBits b.toNat sh.frame sh.filt sh.late s t ∧ (t.port n.toNat).lock = none)))) ∧
    (∀ b, (s.port n.toNat).lock = some b → slookup b (s.port n.toNat).shadows = none →
      exec (.lockTimeout n) s = .next (((s.raise (Reg.BP_STAT_LOCKTO n.toNat)).modPort n.toNat (fun p => { p with lock := none })).close)) ∧
    (s.get (Reg.BP_ERR_STATE n.toNat) = 2 →
      (s.shuts (bpBase n.toNat) = false →
        exec (.recover n) s = .next ((s.modPort n.toNat (fun p => { p with recovering := true })).close)) ∧
      ((s.port n.toNat).recovering = true → Gives (.busOffRecoveryEnd n) s (fun t => t.get (Reg.BP_ERR_STATE n.toNat) = 0 ∧
        t.get (Reg.BP_ERR_TEC n.toNat) = 0 ∧ t.get (Reg.BP_ERR_REC n.toNat) = 0 ∧ (t.port n.toNat).recovering = false)))

/-- R425 to R428, R430, R434 to R436: requests, the choice of the frame to send, how a frame and a window end, the error
counters, and the Hold status frame. -/
def Obligations.PortTransmission : Prop :=
  ∀ (n : BitVec 3) (b : BitVec 6) (s : State), s.Calm →
    let req := reqFld n.toNat b.toNat
    let txst := txstFld n.toNat b.toNat
    let sent (req' : Bool) (code : Nat) (t : State) : Prop := t.on req = req' ∧ t.get txst = code ∧ t.mem = s.mem
    let stopped (t : State) : Prop := (t.port n.toNat).tx = none ∧ (t.port n.toNat).leaving = false ∧
      t.on (Reg.BP_STAT_SYNC n.toNat) = false ∧ t.get (Reg.BP_ERR_STATE n.toNat) = 3
    let leaving := (s.port n.toNat).leaving
    (s.bufOn n.toNat b.toNat 0 34 = true → s.shuts (0x30000 + 0x800 * n.toNat) = false →
      ((s.port n.toNat).tx.map (fun t => t.buf) ≠ some b.toNat →
        Gives (.transmitRequest n b) s (fun t => t.ports = s.ports ∧
          if s.heldBuf n.toNat b.toNat = true ∧ s.wlen n.toNat b.toNat = 0 then sent false 5 t else sent true 1 t) ∧
        (s.on req = true → Gives (.transmitWithdraw n b) s (sent false 0))) ∧
      (∀ x, (s.port n.toNat).tx = some x → x.buf = b.toNat →
        Gives (.transmitRequest n b) s (fun t => if s.heldBuf n.toNat b.toNat = true ∧ s.wlen n.toNat b.toNat = 0
          then sent false 5 t ∧ t.ports = s.ports else sent true 1 t ∧ (t.port n.toNat).tx = some { x with again := true }) ∧
        (s.on req = true → Gives (.transmitWithdraw n b) s (fun t => (t.port n.toNat).tx = some { x with again := false } ∧ t.on req = true)))) ∧
    (∀ at_ : BitVec 80, s.onBus n.toNat = true → s.rxOnly n.toNat = false → (s.port n.toNat).tx = none → leaving = false →
      (s.port n.toNat).statusDue = false →
      let wants (j : Nat) : Prop := s.isTx n.toNat j = true ∧ s.on (reqFld n.toNat j) = true ∧ s.heldBuf n.toNat j = false ∧
        s.windowOpen n.toNat j at_.toNat = true
      wants b.toNat → s.notSendable n.toNat b.toNat = false →
      (∀ j < 64, wants j → j ≠ b.toNat → s.arbKey n.toNat b.toNat < s.arbKey n.toNat j ∨
        s.arbKey n.toNat b.toNat = s.arbKey n.toNat j ∧ b.toNat < j) →
      Gives (.frameStart n at_) s (fun t => (t.port n.toNat).tx = some ⟨b.toNat, s.frameOf n.toNat b.toNat, false, false, false, false⟩ ∧ t.on req = true)) ∧
    (∀ at_ : BitVec 80, leaving = true → Gives (.frameStart n at_) s stopped) ∧
    (∀ (x : TxNow) (tdcv : Option (BitVec 16)), (s.port n.toNat).tx = some x → x.buf = b.toNat →
      let measured (paired : Bool) (t : State) : Prop := t.get (Reg.BP_TDC_TDCV n.toNat) =
        match tdcv with
        | some d => if paired = true ∧ x.frame.fdf = true ∧ x.frame.brs = true ∧ s.on (Reg.BP_TDC_TDCE n.toNat) = true then min d.toNat 127
          else s.get (Reg.BP_TDC_TDCV n.toNat)
        | none => s.get (Reg.BP_TDC_TDCV n.toNat)
      let missed (t : State) : Prop := if x.again then sent true 1 t else sent false (if s.heldBuf n.toNat b.toNat then 5 else 3) t
      Gives (.frameEnd n .sent tdcv) s (fun t => (t.port n.toNat).tx = none ∧ measured true t ∧
        t.get (Reg.BP_ERR_TEC n.toNat) = s.get (Reg.BP_ERR_TEC n.toNat) - 1 ∧ (leaving = true → stopped t) ∧
        (leaving = false → (t.get (Reg.BP_IRQ_EV n.toNat)).testBit 1 = true ∧
          (x.missed = false → sent x.again (if x.again then 1 else 2) t) ∧ (x.missed = true → missed t ∧
            (s.heldBuf n.toNat b.toNat = false → s.counted t (Reg.BP_TXMISS_COUNT n.toNat))))) ∧
      ∀ e ∈ [TxEnd.lostArbitration, TxEnd.error], Gives (.frameEnd n e tdcv) s (fun t => (t.port n.toNat).tx = none ∧
        measured (decide (e = .error)) t ∧ t.get (Reg.BP_ERR_TEC n.toNat) = s.get (Reg.BP_ERR_TEC n.toNat) ∧
        (leaving = true → if x.failed then stopped t else (t.port n.toNat).leaving = true ∧
          t.get (Reg.BP_ERR_STATE n.toNat) = s.get (Reg.BP_ERR_STATE n.toNat)) ∧
        (leaving = false → x.closed = false → if s.heldBuf n.toNat b.toNat = true ∧ s.wlen n.toNat b.toNat = 0 then sent false 5 t
          else t.on req = s.on req ∧ t.get txst = s.get txst) ∧
        (leaving = false → x.closed = true → missed t))) ∧
    (s.isTx n.toNat b.toNat = true → s.on req = true → s.wlen n.toNat b.toNat ≠ 0 → (s.port n.toNat).tx.map (fun t => t.buf) ≠ some b.toNat →
      (s.heldBuf n.toNat b.toNat = false → Gives (.windowClose n b) s (fun t => sent false 3 t ∧ s.counted t (Reg.BP_TXMISS_COUNT n.toNat) ∧
        (t.get (Reg.BP_IRQ_EV n.toNat)).testBit 2 = true)) ∧
      (s.heldBuf n.toNat b.toNat = true → Gives (.windowClose n b) s (sent false 5))) ∧
    (∀ x, s.isTx n.toNat b.toNat = true → s.on req = true → s.wlen n.toNat b.toNat ≠ 0 → (s.port n.toNat).tx = some x → x.buf = b.toNat →
      exec (.windowClose n b) s = .next ((s.modPort n.toNat (fun p => { p with tx := some { x with
        closed := true, missed := x.missed || x.again, again := false } })).settle)) ∧
    (∀ (lec : BitVec 3) (tecInc recInc : BitVec 4), s.onBus n.toNat = true → leaving = true → (s.port n.toNat).tx = none →
      Gives (.errorFrame n lec tecInc recInc) s stopped) ∧
    (∀ (lec : BitVec 3) (tecInc recInc : BitVec 4), s.onBus n.toNat = true → leaving = false → s.room (0x404 + n.toNat) →
      let tec := s.get (Reg.BP_ERR_TEC n.toNat) + tecInc.toNat
      let rec_ := min 255 (s.get (Reg.BP_ERR_REC n.toNat) + recInc.toNat)
      let state := s.get (Reg.BP_ERR_STATE n.toNat)
      let now (st te re : Nat) (msgs : List Msg) (t : State) : Prop := s.counted t (Reg.BP_EFCNT_COUNT n.toNat) ∧
        t.get (Reg.BP_ERR_LEC n.toNat) = lec.toNat ∧ t.get (Reg.BP_ERR_STATE n.toNat) = st ∧ t.get (Reg.BP_ERR_TEC n.toNat) = te ∧
        t.get (Reg.BP_ERR_REC n.toNat) = re ∧ t.msgs = s.msgs ++ msgs
      let met (t : State) : Prop := (t.port n.toNat).tx = (s.port n.toNat).tx.map (fun y => { y with failed := true })
      (s.rxOnly n.toNat = true → Gives (.errorFrame n lec tecInc recInc) s
        (now state (s.get (Reg.BP_ERR_TEC n.toNat)) (s.get (Reg.BP_ERR_REC n.toNat)) [])) ∧
      (s.rxOnly n.toNat = false →
        (255 < tec → Gives (.errorFrame n lec tecInc recInc) s (fun t => now 2 255 rec_ [infoMsg (0x404 + n.toNat) 0x51 2 0] t ∧
          (t.port n.toNat).tx = none ∧ (s.bufOn n.toNat b.toNat 0 34 = true → s.on req = true → sent false 4 t) ∧
          (s.on (Reg.BP_CTRL_ABO n.toNat) = true → (t.port n.toNat).recovering = true))) ∧
        (tec ≤ 255 → state = 0 → 128 ≤ tec ∨ 128 ≤ rec_ → Gives (.errorFrame n lec tecInc recInc) s (fun t =>
          now 1 tec rec_ [infoMsg (0x404 + n.toNat) 0x50 1 0] t ∧ met t)) ∧
        (tec ≤ 255 → state ≠ 0 ∨ tec < 128 ∧ rec_ < 128 →
          Gives (.errorFrame n lec tecInc recInc) s (fun t => now state tec rec_ [] t ∧ met t)))) ∧
    (s.on Reg.THAW_STATUS_HOLD = true → s.on (Reg.BP_HOLDID_EN n.toNat) = true →
      let w := (s.reg Reg.THAW_STATUS_PHASE.off).toNat
      let k := (s.port n.toNat).status
      let frame : TxFrame := {
        ide := s.on (Reg.BP_HOLDID_IDE n.toNat), fdf := false, brs := false, rtr := false,
        esi := decide (s.get (Reg.BP_ERR_STATE n.toNat) = 1), id := s.get (Reg.BP_HOLDID_ID n.toNat), dlc := 8,
        data := [w / 2 ^ 32 % 16, w / 2 ^ 24 % 256, w / 2 ^ 16 % 256, w / 2 ^ 8 % 256, w % 256, n.toNat, k / 256, k % 256] }
      (s.onBus n.toNat = true → (s.port n.toNat).tx = none → Gives (.holdStatusFrame n) s (fun t => t.port n.toNat = { s.port n.toNat with
        tx := some ⟨64, frame, false, false, false, false⟩, last := some frame, statusDue := false })) ∧
      (s.onBus n.toNat = false ∨ (s.port n.toNat).tx ≠ none →
        Gives (.holdStatusFrame n) s (fun t => t.port n.toNat = { s.port n.toNat with statusDue := true }))) ∧
    (∀ (x : TxNow) (tdcv : Option (BitVec 16)) (e : TxEnd), (s.port n.toNat).tx = some x → x.buf = 64 → leaving = false →
      Gives (.frameEnd n e tdcv) s (fun t => t.port n.toNat =
        if e = .sent then { s.port n.toNat with tx := none, status := ((s.port n.toNat).status + 1) % 65536 }
        else { s.port n.toNat with tx := none, statusDue := true }))

/-- R439, R442, R443, R445, R446, R448, R449, R452 to R456: every command of KEEP_CMD with its status or its wait for
background work, the start of a commit with the words of its records, and the enable and readiness of the store. -/
def Obligations.FirnCommands : Prop :=
  ∀ s : State, s.Calm → s.shuts 0x6000 = false → s.shuts 0x6002 = false →
    let busy := s.on Reg.KEEP_CSTAT_BUSY
    let ended (st : Nat) (t : State) : Prop := t.on Reg.KEEP_CSTAT_BUSY = false ∧ t.get Reg.KEEP_CSTAT_ST = st ∧
      t.on Reg.KEEP_IRQ_CDONE = true ∧ t.on Reg.KEEP_IRQ_ERR = (s.on Reg.KEEP_IRQ_ERR || decide (st = 2 ∨ st = 10))
    let only (st : Nat) (t : State) : Prop := ended st t ∧ s.Frame t [0x6003, 0x6008] []
    let ready := s.on Reg.KEEP_STAT_READY
    let shut := s.password true ≠ 0 ∧ s.on Reg.KEEP_STAT_WUNL = false
    let record (typ key : Nat) (seq : Word) (data : List Word) : List Word :=
      let w0 := BitVec.ofNat 36 (typ * 2 ^ 32 + key * 2 ^ 12 + data.length)
      [w0, seq, BitVec.ofNat 36 (crc32c (w0 :: seq :: data)), BitVec.ofNat 36 (crc32c [w0, seq])] ++ data ++
        (if data.length % 2 = 1 then [0] else [])
    let begins (i : Instr) (es : List (Nat × List Word)) : Prop := (s.firn.dev = none → Gives i s (only 10)) ∧ ∀ d, s.firn.dev = some d →
      let pages (len : Nat) : Nat := (9 * ((4 + len + 1) / 2) + 255) / 256
      let p := (es.map (fun e => pages e.2.length)).sum + pages 1
      let q := s.reg Reg.KEEP_SEQ_SEQ.off
      let write (h : Bool) (typ key : Nat) (seq : Word) (data : List Word) : FlashWrite := ⟨h, record typ key seq data, pages data.length, none⟩
      let recs (h : Bool) : List FlashWrite := es.zipIdx.map (fun e => write h 1 e.1.1 (q + BitVec.ofNat 36 e.2) e.1.2)
      let last (h : Bool) : FlashWrite := write h 2 0 (q + BitVec.ofNat 36 es.length) [q]
      let space := p + 512 ≤ s.freePages false ∧ p + 512 ≤ s.freePages true
      let supply := s.firn.pfOk = true ∧ s.firn.pfWarn = false ∧
        2 * p * (s.pageRead d + s.pageProgram d) + s.hotTime d * 2000 ≤ s.get Reg.KEEP_HOLDUP_US * 2000
      (¬ space → Gives i s (only 4)) ∧
      (space → ¬ supply → Gives i s (fun t => ended 3 t ∧ s.counted t Reg.KEEP_REFUSE_COUNT ∧ s.Frame t [0x6003, 0x6008, 0x600E] [])) ∧
      (space → supply → Gives i s (fun t => t.on Reg.KEEP_CSTAT_BUSY = true ∧
        t.reg Reg.KEEP_SEQ_SEQ.off = q + BitVec.ofNat 36 (es.length + 1) ∧
        t.firn = { s.firn with job := some (.commit (recs false ++ recs true ++ [last false, last true])) } ∧
        ({ s with firn := t.firn }).Frame t [0x6003, 0x600A] []))
    (∀ i ∈ (([.unlockr, .unlockw, .lock, .setpwr, .setpww, .hotsave, .format] : List Instr)),
      (busy = true → exec i s = .next (s.raise Reg.KEEP_STAT_WERR).close) ∧
      (busy = false → s.on Reg.KEEP_STAT_DEVERR = true → Gives i s (only 10))) ∧
    (∀ (key : BitVec 13) (op : BitVec 4) (badA badB : Bool),
      (busy = true → exec (.read key badA badB) s = .next (s.raise Reg.KEEP_STAT_WERR).close ∧
        exec (.commit key) s = .next (s.raise Reg.KEEP_STAT_WERR).close ∧
        exec (.keepIllegalOp op key) s = .next (s.raise Reg.KEEP_STAT_WERR).close) ∧
      (busy = false → s.on Reg.KEEP_STAT_DEVERR = true → Gives (.read key badA badB) s (only 10) ∧ Gives (.commit key) s (only 10) ∧
        Gives (.keepIllegalOp op key) s (only 10)) ∧
      (busy = false → s.on Reg.KEEP_STAT_DEVERR = false → s.mustYield = true →
        let waits (i : Instr) (c : FirnHeld) : Prop := Gives i s (fun t => t.on Reg.KEEP_CSTAT_BUSY = true ∧
          t.firn = { s.firn with held := some c } ∧ ({ s with firn := t.firn }).Frame t [0x6003] [])
        waits (.read key badA badB) ⟨1, key.toNat, badA, badB⟩ ∧ waits (.commit key) ⟨2, key.toNat, false, false⟩ ∧
        waits .setpwr ⟨6, 0, false, false⟩ ∧ waits .setpww ⟨7, 0, false, false⟩ ∧ waits .format ⟨9, 0, false, false⟩)) ∧
    (busy = false → s.on Reg.KEEP_STAT_DEVERR = false →
      (∀ (op : BitVec 4) (arg : BitVec 13), op = 0 ∨ 10 ≤ op → Gives (.keepIllegalOp op arg) s (only 11)) ∧
      (∀ (key : BitVec 13) (badA badB : Bool), s.mustYield = false →
        let read : Instr := .read key badA badB
        let closed := s.password false ≠ 0 ∧ s.on Reg.KEEP_STAT_RUNL = false
        (ready = false → Gives read s (only 7)) ∧
        (ready = true → key = 1023 → Gives read s (only 11)) ∧
        (ready = true → key ≠ 1023 → closed → Gives read s (only 5)) ∧
        (ready = true → key ≠ 1023 → ¬ closed →
          (s.liveSeq key.toNat = none → Gives read s (only 1)) ∧
          (∀ q, s.liveSeq key.toNat = some q →
            let a := if badA then none else s.copyIn false key.toNat q
            let b := if badB then none else s.copyIn true key.toNat q
            (∀ r : List Word, a = some r ∨ a = none ∧ b = some r →
              let d := recBody r
              (d ≠ [] → d.length < 4093 → key.toNat < 1024 → s.room 0x40C →
                Gives read s (fun t => ended 0 t ∧ t.gather 0 = BitVec.ofNat 36 (key.toNat * 4096 + d.length) ∧ t.gather 1 = recSeq r ∧
                  (∀ j < d.length, t.gather (2 + j) = d.getD j 0) ∧ (∀ j, 2 + d.length ≤ j → t.gather j = s.gather j) ∧
                  t.firn = s.firn ∧ if a = none then s.counted t Reg.KEEP_TWINF_COUNT ∧ t.msgs = s.msgs ++ [infoMsg 0x40C 0x61 1 key.toNat]
                    else t.get Reg.KEEP_TWINF_COUNT = s.get Reg.KEEP_TWINF_COUNT ∧ t.msgs = s.msgs)) ∧
              (d = [] → Gives read s (fun t => ended 1 t ∧ t.mem = s.mem ∧ t.firn = s.firn))) ∧
            (a = none → b = none → s.room 0x40C → Gives read s (fun t => ended 2 t ∧ t.mem = s.mem ∧
              t.msgs = s.msgs ++ [infoMsg 0x40C 0x62 2 key.toNat]))))) ∧
      (∀ glen : BitVec 13, s.mustYield = false →
        let laid (es : List (Nat × List Word)) : Prop := 1 ≤ glen.toNat ∧ glen.toNat ≤ 4096 ∧ (∀ e ∈ es, e.1 < 1023 ∧ e.2.length ≤ 4092) ∧
          es.flatMap (fun e => BitVec.ofNat 36 (e.1 * 4096 + e.2.length) :: e.2) = (List.range glen.toNat).map s.gather
        (ready = false → Gives (.commit glen) s (only 7)) ∧ (ready = true → shut → Gives (.commit glen) s (only 5)) ∧
        (ready = true → ¬ shut → ((∀ es, ¬ laid es) → Gives (.commit glen) s (only 6)) ∧ ∀ es, laid es → begins (.commit glen) es)) ∧
      (∀ w : Bool,
        let unlock : Instr := if w then .unlockw else .unlockr
        let set : Instr := if w then .setpww else .setpwr
        let match_ := s.keyValue.toNat = s.password w
        let r := if w then BitVec.ofNat 72 (s.password false) else s.keyValue
        let v := if w then s.keyValue else BitVec.ofNat 72 (s.password true)
        (s.on Reg.KEEP_STAT_LOCKOUT = true → Gives unlock s (only 9)) ∧
        (s.on Reg.KEEP_STAT_LOCKOUT = false → ready = false → Gives unlock s (only 7)) ∧
        (s.on Reg.KEEP_STAT_LOCKOUT = false → ready = true →
          (match_ → Gives unlock s (fun t => ended 0 t ∧ t.on (if w then Reg.KEEP_STAT_WUNL else Reg.KEEP_STAT_RUNL) = true ∧
            t.on (if w then Reg.KEEP_STAT_RUNL else Reg.KEEP_STAT_WUNL) = s.on (if w then Reg.KEEP_STAT_RUNL else Reg.KEEP_STAT_WUNL) ∧
            t.get Reg.KEEP_STAT_FAIL = 0 ∧ s.Frame t [0x6001, 0x6003, 0x6008] [])) ∧
          (¬ match_ → s.get Reg.KEEP_STAT_FAIL < 3 → Gives unlock s (fun t => ended 8 t ∧ t.get Reg.KEEP_STAT_FAIL = s.get Reg.KEEP_STAT_FAIL + 1 ∧
            (if s.get Reg.KEEP_STAT_FAIL = 2 then t.on Reg.KEEP_STAT_LOCKOUT = true ∧ t.on Reg.KEEP_STAT_RUNL = false ∧ t.on Reg.KEEP_STAT_WUNL = false
             else t.on Reg.KEEP_STAT_LOCKOUT = false ∧ t.on Reg.KEEP_STAT_RUNL = s.on Reg.KEEP_STAT_RUNL ∧
               t.on Reg.KEEP_STAT_WUNL = s.on Reg.KEEP_STAT_WUNL) ∧ s.Frame t [0x6001, 0x6003, 0x6008] []))) ∧
        (s.mustYield = false → (ready = false → Gives set s (only 7)) ∧ (ready = true → shut → Gives set s (only 5)) ∧
          (ready = true → ¬ shut → begins set [(1023, [dlo r, dhi r, dlo v, dhi v])]))) ∧
      Gives .lock s (fun t => ended 0 t ∧ t.on Reg.KEEP_STAT_RUNL = false ∧ t.on Reg.KEEP_STAT_WUNL = false ∧ s.Frame t [0x6001, 0x6003, 0x6008] []) ∧
      (s.on Reg.KEEP_STAT_PH1 = false → Gives .hotsave s (only 7)) ∧
      (s.on Reg.KEEP_STAT_PH1 = true → s.firn.dev ≠ none → Gives .hotsave s (fun t => t.on Reg.KEEP_CSTAT_BUSY = true ∧
        t.firn = { s.firn with saveDue := true, saveReady := s.firn.saveReady || !s.flashBusy, saveCmd := true } ∧ ({ s with firn := t.firn }).Frame t [0x6003] [])) ∧
      (s.mustYield = false → (ready = false → Gives .format s (only 7)) ∧ (ready = true → shut → Gives .format s (only 5)) ∧
        (ready = true → ¬ shut → Gives .format s (fun t => t.on Reg.KEEP_CSTAT_BUSY = true ∧
          t.firn = { s.firn with job := some (.format 4), task := none } ∧ ({ s with firn := t.firn }).Frame t [0x6003] [])))) ∧
    (∀ v : Word,
      (s.on Reg.KEEP_CFG_EN = true → exec (.keepEnable v) s = .next s.close) ∧
      (∀ d, s.on Reg.KEEP_CFG_EN = false → s.firn.dev = some d → Gives (.keepEnable v) s (fun t => t.on Reg.KEEP_CFG_EN = true ∧
        t.get Reg.KEEP_CFG_DIV = v.toNat / 2 % 16 ∧ t.get Reg.KEEP_CFG_MODE = v.toNat / 32 % 4 ∧ t.firn = { s.firn with scan := true } ∧
        t.get Reg.KEEP_HOTT_US = min (t.hotTime d) (2 ^ 20 - 1) ∧ t.on Reg.KEEP_STAT_HOTSLOW = decide (t.hotTime d > 2000) ∧
        ({ s with firn := t.firn }).Frame t [0x6000, 0x6001, 0x6005] []))) ∧
    (s.on Reg.KEEP_CFG_EN = true → s.firn.scan = true →
      let stored := s.firn.blocks.flatMap (fun b => b.header :: b.recs.map (fun r => r.words)) ++ s.firn.hot.map (fun h => h.words)
      let seqs := (stored.filter (fun ws => decide (flashWord ws 3 = BitVec.ofNat 36 (crc32c [flashWord ws 0, flashWord ws 1])))).map
        (fun ws => (flashWord ws 1).toNat)
      Gives .storeReady s (fun t => t.on Reg.KEEP_STAT_READY = true ∧ t.firn = { s.firn with scan := false, index := s.keyIndex } ∧
        (seqs = [] → t.reg Reg.KEEP_SEQ_SEQ.off = 0) ∧
        ∀ q ∈ seqs, (∀ p ∈ seqs, p ≤ q) → t.reg Reg.KEEP_SEQ_SEQ.off = BitVec.ofNat 36 (q + 1)))
/-- R440 to R444, R447, R449, R452 to R455, R492: the flash operations of a commit, of FORMAT, of hot saves and of background
work, the supply's events, and the records of the repair area. What a page that is not blank moves is the model's choice (log
entries 94, 95 and 96). -/
def Obligations.FirnEvents : Prop :=
  let erased (n erases : Nat) : FlashBlock := ⟨n, [], erases, 0, true, []⟩
  let done (t : State) : Prop := t.on Reg.KEEP_CSTAT_BUSY = false ∧ t.get Reg.KEEP_CSTAT_ST = 0 ∧ t.on Reg.KEEP_IRQ_CDONE = true
  let skipped (s t : State) (page : Nat) : Prop := s.counted t Reg.KEEP_SKIP_COUNT ∧ t.msgs = s.msgs ++ [infoMsg 0x40C 0x63 1 page]
  let wrote (s : State) (w : FlashWrite) (rest : List FlashWrite) (now : State → List FlashWrite → Prop) : Prop :=
    let n := (9 * ((4 + recLen w.words + 1) / 2) + 255) / 256
    let again := { w with left := n } :: rest
    let opens (f : FlashBlock) : Prop :=
      let next (t : State) (b : FlashBlock) : Prop := t.blockOf f.number = b ∧ (∀ m ≠ f.number, t.blockOf m = s.blockOf m) ∧ now t again
      (f.blank = false → ∀ b : Bool, Gives (.flashOpComplete b) s (fun t => next t (erased f.number (f.erases + 1)))) ∧
      (f.blank = true →
        Gives (.flashOpComplete true) s (fun t => next t { f with
            header := recWords 3 0 (s.reg Reg.KEEP_SEQ_SEQ.off) [BitVec.ofNat 36 f.erases], used := 1, blank := false, recs := [] } ∧
          t.reg Reg.KEEP_SEQ_SEQ.off = s.reg Reg.KEEP_SEQ_SEQ.off + 1) ∧
        (s.room 0x40C → Gives (.flashOpComplete false) s (fun t => next t { f with blank := false } ∧ skipped s t (256 * f.number))))
    (s.headBlock w.halfB = none → ∀ f, s.freeBlock w.halfB = some f → opens f) ∧
    (∀ h : FlashBlock, s.headBlock w.halfB = some h →
      let left := if w.place = some (h.number, h.used) then w.left else n
      let used (t : State) (recs : List FlashRec) : Prop := t.blockOf h.number = { h with used := h.used + 1, recs := recs } ∧
        ∀ m ≠ h.number, t.blockOf m = s.blockOf m
      (left = n → s.hasRoom w.halfB n = false → ∀ f, s.freeBlock w.halfB = some f → opens f) ∧
      (left ≠ n ∨ s.hasRoom w.halfB n = true →
        (s.room 0x40C → Gives (.flashOpComplete false) s (fun t => used t h.recs ∧ skipped s t (256 * h.number + h.used) ∧
          now t ({ w with left := n, place := none } :: rest))) ∧
        (1 < left → Gives (.flashOpComplete true) s (fun t => used t h.recs ∧
          now t ({ w with left := left - 1, place := some (h.number, h.used + 1) } :: rest))) ∧
        (left ≤ 1 → Gives (.flashOpComplete true) s (fun t => used t (h.recs ++ [⟨h.used + 1 - n, w.words⟩]) ∧ now t rest ∧
          t.firn.index = t.keyIndex))))
  let stale (hot : List HotSlot) : Nat := match newestHot hot with
    | some h => 1 - h.slot / 25
    | none => 0
  (∀ (s : State) (b : Bool), s.firn.save = none → s.firn.saveDue = true →
    (s.firn.saveReady = true → exec (.flashOpComplete b) s = .next s.settle) ∧
    (s.firn.saveReady = false →
      let u := s.flashOp b
      exec (.flashOpComplete b) s = .next ({ u with firn := { u.firn with saveReady := true } }).settle)) ∧
  (∀ (s : State) (w : HotWrite), s.firn.save = some w → s.room 0x40C →
    (∀ n, w.slot = some n →
      (1 < w.left → ∀ b : Bool, Gives (.flashOpComplete b) s (fun t => t.msgs = s.msgs ∧
        t.firn = { s.firn with save := some { w with left := w.left - 1 } } ∧ ({ s with firn := t.firn }).Frame t [] [])) ∧
      (w.left ≤ 1 →
        let hot := s.firn.hot.filter (fun h => decide (h.slot ≠ n)) ++ [(⟨n, w.words⟩ : HotSlot)]
        ∀ b : Bool, Gives (.flashOpComplete b) s (fun t => t.msgs = s.msgs ∧ t.on Reg.KEEP_IRQ_HOTDONE = true ∧
          t.firn = { s.firn with
            hot := hot, save := none,
            hotErase := if s.firn.prepared = [] ∧ s.firn.unread = [] then some (stale hot) else s.firn.hotErase } ∧
          (w.cmd = true → done t) ∧
          (w.cmd = false → t.reg 0x6003 = s.reg 0x6003 ∧ t.on Reg.KEEP_IRQ_CDONE = s.on Reg.KEEP_IRQ_CDONE)))) ∧
    (w.slot = none → s.firn.prepared = [] →
      (∀ (k : Nat) (b : Bool), s.firn.hotErase = some k → Gives (.flashOpComplete b) s (fun t => t.firn = { s.firn with
        hot := s.firn.hot.filter (fun h => decide (h.slot / 25 ≠ k)), hotErase := none, unread := List.range' (25 * k) 25 })) ∧
      (∀ (n : Nat) (rest : List Nat), s.firn.hotErase = none → s.firn.unread = n :: rest →
        Gives (.flashOpComplete true) s (fun t => t.firn = { s.firn with unread := rest, save := some { w with slot := some n } } ∧ t.msgs = s.msgs) ∧
        Gives (.flashOpComplete false) s (fun t => skipped s t (256 * (n / 25) + 10 * (n % 25)) ∧ t.firn = { s.firn with
          unread := rest, hotErase := if rest = [] then some (stale s.firn.hot) else none })))) ∧
  (∀ s : State, s.firn.save = none → s.firn.saveDue = false →
    (∀ (n : Nat) (blank : Bool), s.firn.job = some (.format n) → Gives (.flashOpComplete blank) s (fun t =>
      t.blockOf n = erased n ((s.blockOf n).erases + 1) ∧ (∀ m ≠ n, t.blockOf m = s.blockOf m) ∧ t.firn.index = t.keyIndex ∧
      if n + 1 < 4 + 2 * s.halfSize then t.firn.job = some (.format (n + 1)) ∧ t.on Reg.KEEP_CSTAT_BUSY = s.on Reg.KEEP_CSTAT_BUSY
      else t.firn.job = none ∧ done t)) ∧
    (∀ (w : FlashWrite) (rest : List FlashWrite), s.firn.job = some (.commit (w :: rest)) →
      wrote s w rest (fun t l => if l = [] then t.firn.job = none ∧ done t else t.firn.job = some (.commit l))) ∧
    (s.firn.job = none → s.hotWork = false → s.firn.held = none →
      (s.firn.task = none → ∀ b : Bool, exec (.flashOpComplete b) s = .next s.settle) ∧
      (∀ n : Nat, s.firn.task = some (.erase n) → ∀ b : Bool, Gives (.flashOpComplete b) s (fun t =>
        t.blockOf n = erased n ((s.blockOf n).erases + 1) ∧ (∀ m ≠ n, t.blockOf m = s.blockOf m) ∧ t.firn.task = none ∧
        t.firn.index = t.keyIndex)) ∧
      (∀ (w : FlashWrite) (rest : List FlashWrite) (block : Option Nat), s.firn.task = some (.copy (w :: rest) block) →
        wrote s w rest (fun t l => t.firn.task = if l = [] then block.map .erase else some (.copy l block)))) ∧
    (s.firn.job = none → s.firn.held = none →
      (∀ (k : Nat) (b : Bool), s.firn.hotErase = some k → Gives (.flashOpComplete b) s (fun t => t.firn = { s.firn with
        hot := s.firn.hot.filter (fun h => decide (h.slot / 25 ≠ k)), hotErase := none, unread := List.range' (25 * k) 25 })) ∧
      (∀ (n : Nat) (rest : List Nat), s.firn.hotErase = none → s.firn.unread = n :: rest →
        Gives (.flashOpComplete true) s (fun t => t.firn = { s.firn with unread := rest, prepared := s.firn.prepared ++ [n] }))) ∧
    (∀ (c : FirnHeld) (b : Bool), s.firn.job = none → s.firn.held = some c → s.hotWork = false → s.firn.task = none →
      exec (.flashOpComplete b) s = .next ((({ s with firn := { s.firn with held := none } }).put Reg.KEEP_CSTAT_BUSY 0).keepRun c).settle)) ∧
  (∀ s : State,
    exec .pfWarn s = .next (if s.firn.pfWarn = true then s else
      let asked := s.on Reg.KEEP_STAT_PH1 && s.firn.dev.isSome && s.firn.save.isNone
      { s with firn := { s.firn with
        pfWarn := true, saveDue := s.firn.saveDue || asked, saveReady := s.firn.saveReady || asked && !s.flashBusy } }).settle ∧
    exec .pfWarnFall s = .next { s with firn := { s.firn with pfWarn := false } } ∧
    exec .pfOkFall s = .next { s with firn := { s.firn with pfOk := false } } ∧
    exec .pfOkRise s = .next { s with firn := { s.firn with pfOk := true } } ∧
    (s.firn.saveDue = false ∨ s.firn.save ≠ none → exec .hotSave s = .next s.settle) ∧
    (let seq := s.reg Reg.KEEP_SEQ_SEQ.off
     let words := recWords 5 0 seq ((List.range 512).map (fun i => s.word (0x3200000 + i)))
     s.firn.saveDue = true → s.firn.save = none → Gives .hotSave s (fun t =>
      t.firn = { s.firn with
        saveDue := false, saveReady := false, saveCmd := false, prepared := s.firn.prepared.tail,
        save := some ⟨words, s.firn.prepared.head?, 10, s.firn.saveCmd⟩ } ∧
      t.reg Reg.KEEP_SEQ_SEQ.off = seq + 1 ∧ ({ s with firn := t.firn }).Frame t [0x600A] [])) ∧
    (∀ (w : Word) (rest : List Word), s.rpr.records = w :: rest → s.firnIdle = true →
      let entry : RepairEntry := ⟨w, BitVec.ofNat 36 (crc32c [w, 0])⟩
      let pads (l : List (Option RepairEntry)) : List (Option RepairEntry) := l ++ List.replicate (28 - l.length % 28) none
      (s.firn.half = false → s.firn.area2.length < 7168 →
        exec (.repairRecordAppend true) s =
          .next ({ s with firn := { s.firn with half := true, area2 := s.firn.area2 ++ [some entry] } }).settle ∧
        (s.room 0x40C → Gives (.repairRecordAppend false) s (fun t => t.rpr = s.rpr ∧
          t.firn = { s.firn with area2 := pads s.firn.area2 } ∧ skipped s t (512 + s.firn.area2.length / 28)))) ∧
      (s.firn.half = true → s.firn.area3.length < 7168 →
        exec (.repairRecordAppend true) s = .next ({ s with
          rpr := { s.rpr with records := rest }, firn := { s.firn with half := false, area3 := s.firn.area3 ++ [some entry] } }).settle ∧
        (s.room 0x40C → Gives (.repairRecordAppend false) s (fun t => t.rpr = s.rpr ∧
          t.firn = { s.firn with area3 := pads s.firn.area3 } ∧ skipped s t (768 + s.firn.area3.length / 28)))) ∧
      (s.room 0x40D → 7168 ≤ (if s.firn.half then s.firn.area3 else s.firn.area2).length → ∀ b : Bool,
        Gives (.repairRecordAppend b) s (fun t => t.rpr = { s.rpr with records := rest } ∧ t.firn = { s.firn with half := false } ∧
          t.on Reg.RPR_STAT_REPFULL = true ∧ t.msgs = s.msgs ++ [infoMsg 0x40D 0x86 2 w.toNat]))) ∧
    (∀ blank : Bool, s.rpr.records = [] ∨ s.firnIdle = false → exec (.repairRecordAppend blank) s = .next s.settle) ∧
    (∀ (h : Bool) (key : BitVec 10), s.firnIdle = false → exec (.reclaim h) s = .next s.settle ∧ exec (.twinRewrite key) s = .next s.settle)) ∧
  (∀ (s : State) (h : Bool), s.firnIdle = true →
    (4 ≤ s.freeCount h → exec (.reclaim h) s = .next s.settle) ∧
    (∀ b : FlashBlock, s.freeCount h < 4 → s.victim h = some b →
      let live := (b.recs.map (fun r => r.words)).filter (fun r => s.counts r && decide (s.liveSeq (recKey r) = some (recSeq r)))
      let copies := live.map (fun r => flashWrite h (recWords 4 (recKey r) (recSeq r) (recBody r)))
      exec (.reclaim h) s = .next ({ s with firn := { s.firn with
        task := some (if live = [] then .erase b.number else .copy copies (some b.number)) } }).settle)) ∧
  (∀ (s : State) (key : BitVec 10) (q : Word) (r : List Word) (h : Bool), s.firnIdle = true → s.liveSeq key.toNat = some q →
    (∀ r', s.copyIn false key.toNat q = some r → s.copyIn true key.toNat q = some r' → exec (.twinRewrite key) s = .next s.settle) ∧
    (let ws := recWords 4 (recKey r) (s.reg Reg.KEEP_SEQ_SEQ.off) (recBody r)
     s.copyIn h key.toNat q = some r → s.copyIn (!h) key.toNat q = none →
      Gives (.twinRewrite key) s (fun t => t.reg Reg.KEEP_SEQ_SEQ.off = s.reg Reg.KEEP_SEQ_SEQ.off + 1 ∧
        t.firn = { s.firn with task := some (.copy [flashWrite false ws, flashWrite true ws] none) })))
/-- R457, R460 to R468: Moraine takes the next source's oldest message and merges it with a recent unread entry, or records
it, escalated where its source has an unacknowledged record of the class; the acknowledgements, the log's consumption, and a
source's quiet exit. -/
def Obligations.FaultCollection : Prop :=
  (∀ (s : State) (m : Msg) (pre post : List Msg), s.Calm → s.msgs = pre ++ m :: post → (∀ x ∈ pre, x.src ≠ m.src) → m.src < 0x414 →
    (m.cls = 1 ∨ m.cls = 2 ∨ m.cls = 3) → 4 ≤ s.get Reg.THAW_STATUS_PHASE ∨ s.on Reg.THAW_STATUS_HOLD = true →
    let passed (x : Nat) : Prop := (∃ y ∈ s.msgs, y.src = x) ∧ 64 ≤ sget 0 x s.passed
    (passed m.src ∧ (∀ x, passed x → m.src ≤ x)) ∨ ((∀ x, ¬ passed x) ∧ ∀ y ∈ s.msgs, m.src ≤ y.src) →
    let entry (i j : Nat) : Word := s.reg (0x2400 + 4 * i + j)
    let word0 (cls : Nat) : Word := BitVec.ofNat 36 (m.src * 2 ^ 24 + m.kind.toNat * 2 ^ 16 + cls * 2 ^ 14 + m.info / 2 ^ 36 % 2 ^ 14)
    let word1 : Word := BitVec.ofNat 36 m.info
    let next := s.get Reg.MOR_LOGHEAD_NEXT
    let at_ (j : Nat) : Nat := (next + 255 - j) % 256
    let same (i : Nat) : Prop := entry i 0 &&& 0xFFFFF3FFF = word0 0 ∧ entry i 1 = word1 ∧ (entry i 3).getLsbD 19 = m.av
    let recent (j : Nat) : Prop := j < 16 ∧ j < s.get Reg.MOR_LOGCNT_COUNT
    let merged (j : Nat) : Prop := s.on Reg.MOR_CTRL_LOGEN = true ∧ recent j ∧ same (at_ j) ∧ ∀ i < j, ¬ same (at_ i)
    let count (cls : Nat) : Fld := if cls = 1 then Reg.MOR_CNTC_COUNT else if cls = 2 then Reg.MOR_CNTU_COUNT else Reg.MOR_CNTF_COUNT
    let faulty (t : State) : Prop := t.on (Reg.MOR_SRCST_FS m.src) = true ∧ t.get (Reg.MOR_SRCST_QUIET m.src) = 0
    (∀ j, merged j → let old := (entry (at_ j) 0).toNat / 2 ^ 14 % 4
      (old = 1 ∨ old = 2 ∨ old = 3) → Gives .messageTaken s (fun t => t.msgs = pre ++ post ∧ faulty t ∧ s.counted t (count old) ∧
        t.reg (0x2400 + 4 * at_ j + 3) = BitVec.ofNat 36 ((entry (at_ j) 3).toNat % 2 ^ 20 +
          min ((entry (at_ j) 3).toNat / 2 ^ 20 + 1) 65535 * 2 ^ 20) ∧
        ({ s with msgs := t.msgs, passed := t.passed }).Frame t [0x2400 + 4 * at_ j + 3, (count old).off, 0x2800 + m.src] [])) ∧
    ((∀ j, ¬ merged j) →
      let cls := if m.cls = 1 ∧ s.on (Reg.MOR_SRCST_UC m.src) = true ∧ s.on Reg.MOR_CTRL_ESCC = true ∨
          m.cls = 2 ∧ s.on (Reg.MOR_SRCST_UU m.src) = true ∧ s.on Reg.MOR_CTRL_ESCU = true then m.cls + 1 else m.cls
      let unack := if cls = 1 then Reg.MOR_SRCST_UC m.src else if cls = 2 then Reg.MOR_SRCST_UU m.src else Reg.MOR_SRCST_UF m.src
      let flags := 2 * b2n m.av + b2n m.pers
      cls ≠ 3 ∨ 0x110 ≤ m.src ∨ m.kind = 0x23 →
      Gives .messageTaken s (fun t => t.msgs = pre ++ post ∧ faulty t ∧ s.counted t (count cls) ∧ t.on unack = true ∧
        (t.get Reg.MOR_IRQ_EV).testBit (cls - 1) = true ∧ t.cells = s.cells ∧ t.rpr = s.rpr ∧
        (if s.on Reg.MOR_STAT_FVALID = true then
          t.on Reg.MOR_STAT_OVF = true ∧ t.reg 0x2002 = s.reg 0x2002 ∧ t.reg 0x2003 = s.reg 0x2003 ∧ t.reg 0x2004 = s.reg 0x2004
         else t.reg 0x2002 = word0 cls ∧ t.reg 0x2003 = word1 ∧ t.reg 0x2004 = s.reg Reg.FRM_COUNT0_LO.off ∧
          t.on Reg.MOR_STAT_FVALID = true ∧ t.on Reg.MOR_STAT_FREAD = false ∧ t.on Reg.MOR_STAT_TRANS = false ∧
          t.on Reg.MOR_STAT_OVF = s.on Reg.MOR_STAT_OVF ∧ t.get Reg.MOR_STAT_FFLAGS = flags ∧ t.get Reg.MOR_STAT_FOCLASS = m.cls) ∧
        (if s.on Reg.MOR_CTRL_LOGEN = true then
          t.reg (0x2400 + 4 * next) = word0 cls ∧ t.reg (0x2401 + 4 * next) = word1 ∧ t.reg (0x2402 + 4 * next) = s.reg Reg.FRM_COUNT0_LO.off ∧
          t.reg (0x2403 + 4 * next) = BitVec.ofNat 36 (flags * 2 ^ 18 + m.cls * 2 ^ 16) ∧ t.get Reg.MOR_LOGHEAD_NEXT = (next + 1) % 256 ∧
          (if s.get Reg.MOR_LOGCNT_COUNT = 256 then t.get Reg.MOR_LOGCNT_COUNT = 256 ∧ s.counted t Reg.MOR_LOGLOST_COUNT ∧
            t.get Reg.MOR_LOGTAIL_TAIL = (s.get Reg.MOR_LOGTAIL_TAIL + 1) % 256 ∧ (t.get Reg.MOR_IRQ_EV).testBit 3 = true
           else t.get Reg.MOR_LOGCNT_COUNT = (s.get Reg.MOR_LOGCNT_COUNT + 1) % 512 ∧ t.reg 0x200E = s.reg 0x200E ∧ t.reg 0x2011 = s.reg 0x2011)
         else ∀ o, 0x2400 ≤ o → o < 0x2800 → t.reg o = s.reg o)))) ∧
  (∀ s : State, s.Calm → s.shuts 0x2000 = false →
    let unit (x : Nat) : Prop := x < 0x110 ∨ 0x200 ≤ x ∧ x < 0x210 ∨ 0x400 ≤ x ∧ x < 0x414
    let cleared (t : State) (x : Nat) : Prop := t.on (Reg.MOR_SRCST_UC x) = false ∧ t.on (Reg.MOR_SRCST_UU x) = false ∧
      t.on (Reg.MOR_SRCST_UF x) = false ∧ t.get (Reg.MOR_SRCST_QUIET x) = s.get (Reg.MOR_SRCST_QUIET x) ∧
      t.on (Reg.MOR_SRCST_FS x) = s.on (Reg.MOR_SRCST_FS x)
    (s.msgs = [] → exec .messageTaken s = .next s.close) ∧
    (∀ src : BitVec 12, (unit src.toNat → Gives (.morAckSrcv src) s (fun t => cleared t src.toNat ∧ s.Frame t [0x2800 + src.toNat] [])) ∧
      (¬ unit src.toNat → exec (.morAckSrcv src) s = .next s.close) ∧
      (let due := unit src.toNat ∧ s.rimeRun = true ∧ s.on (Reg.MOR_SRCST_FS src.toNat) = true ∧ src.toNat ∉ s.pins ∧
         1 ≤ s.get (Reg.MOR_SRCST_QUIET src.toNat) ∧ s.get Reg.MOR_QUIET_FRAMES ≤ s.get (Reg.MOR_SRCST_QUIET src.toNat)
       (¬ due → exec (.quietExit src) s = .next s.settle) ∧
       (due → Gives (.quietExit src) s (fun t => t.on (Reg.MOR_SRCST_FS src.toNat) = false ∧ t.get (Reg.MOR_SRCST_QUIET src.toNat) = 0 ∧
         (∀ f ∈ [Reg.MOR_SRCST_UC, Reg.MOR_SRCST_UU, Reg.MOR_SRCST_UF], t.on (f src.toNat) = s.on (f src.toNat)) ∧
         s.counted t Reg.MOR_RECOV_COUNT ∧
         t.on Reg.MOR_STAT_TRANS = (s.on Reg.MOR_STAT_TRANS || (s.on Reg.MOR_STAT_FVALID && !s.on Reg.MOR_STAT_FREAD &&
           decide ((s.reg 0x2002).toNat / 2 ^ 24 = src.toNat))) ∧
         s.Frame t [0x2800 + src.toNat, 0x200A, 0x2001] [])))) ∧
    Gives .morAckAll s (fun t => (∀ x, unit x → cleared t x) ∧ ∀ o, o < 0x2800 → ¬ distributor o → t.reg o = s.reg o) ∧
    Gives .morAckFirst s (fun t => t.on Reg.MOR_STAT_FVALID = false ∧ t.on Reg.MOR_STAT_FREAD = false ∧ t.on Reg.MOR_STAT_TRANS = false ∧
      t.on Reg.MOR_STAT_OVF = s.on Reg.MOR_STAT_OVF ∧ s.Frame t [0x2001] []) ∧
    (∀ n : BitVec 9, Gives (.morLogpop n) s (fun t =>
      t.get Reg.MOR_LOGCNT_COUNT = s.get Reg.MOR_LOGCNT_COUNT - min n.toNat (s.get Reg.MOR_LOGCNT_COUNT) ∧
      t.get Reg.MOR_LOGTAIL_TAIL = (s.get Reg.MOR_LOGTAIL_TAIL + min n.toNat (s.get Reg.MOR_LOGCNT_COUNT)) % 256 ∧
      s.Frame t [0x200E, 0x200F] [])) ∧
    exec .morFirst0Read s = .next (s.raise Reg.MOR_STAT_FREAD).close)
/-- R471 to R481, R485, R486: the commands of RPR_CMD and their ends, the spare's arming, a cell's copy into the spare and its
migration. -/
def Obligations.RepairCommands : Prop :=
  (∀ (s : State) (c : CellId) (k : ClusterId) (slot : BitVec 5) (op : BitVec 4) (arg : BitVec 32), s.Calm → s.shuts 0x3000 = false →
    let busy := s.on Reg.RPR_CSTAT_BUSY
    let ended (st : Nat) (t : State) : Prop := t.on Reg.RPR_CSTAT_BUSY = false ∧ t.get Reg.RPR_CSTAT_ST = st
    let only (st : Nat) (t : State) : Prop := ended st t ∧ s.Frame t [0x3005] []
    let kc := clusterOf c.toNat
    let spare (j : Nat) : Nat := s.get (Reg.RPR_SP_SLOT j)
    let phys := 17 * k.toNat + slot.toNat
    let illegal := op = 0 ∨ 4 ≤ op
    (busy = true → (∀ i ∈ (([.migrate c, .test k slot, .restore k slot] : List Instr)), exec i s = .next (s.raise Reg.RPR_STAT_CMDERR).close) ∧
      (illegal → exec (.rprIllegalOp op arg) s = .next (s.raise Reg.RPR_STAT_CMDERR).close)) ∧
    (busy = false →
      (illegal → Gives (.rprIllegalOp op arg) s (only 2)) ∧
      (let unavailable := s.runState kc = 4 ∨ s.runReady = false ∨ s.failed c.toNat = true ∧ s.on Reg.RPR_CTRL_AUTO = true
       let free := spare kc ≤ 16 ∧ s.slotState kc (spare kc) = 1
       let armed := decide (s.get (Reg.RPR_SP_STATE kc) = 3) && decide (s.get (Reg.RPR_SP_ARMPOS kc) = c.toNat % 16) && (slookup kc s.rpr.snaps).isSome
       (unavailable → Gives (.migrate c) s (only 3)) ∧ (¬ unavailable → ¬ free → Gives (.migrate c) s (only 1)) ∧
       (¬ unavailable → free → s.rpr.test = none → s.rimeRun = true ∨ armed = false → Gives (.migrate c) s (fun t =>
         t.on Reg.RPR_CSTAT_BUSY = true ∧ t.get (Reg.RPR_SP_STATE kc) = (if armed then s.get (Reg.RPR_SP_STATE kc) else 4) ∧
         t.rpr = { s.rpr with migs := [⟨kc, c.toNat, s.slotOf c.toNat, spare kc, 7, armed, armed⟩] } ∧
         ({ s with rpr := t.rpr }).Frame t [0x3005, 0x3050 + kc] []))) ∧
      (let admitted := s.slotState k.toNat slot.toNat = 1 ∨ s.slotState k.toNat slot.toNat = 2
       (16 < slot.toNat → Gives (.test k slot) s (only 2)) ∧ (slot.toNat ≤ 16 → ¬ admitted → Gives (.test k slot) s (only 3)) ∧
       (slot.toNat ≤ 16 → admitted → Gives (.test k slot) s (fun t => t.on Reg.RPR_CSTAT_BUSY = true ∧
         t.get (Reg.RPR_SP_STATE k.toNat) = (if spare k.toNat = slot.toNat then 5 else s.get (Reg.RPR_SP_STATE k.toNat)) ∧
         t.rpr = { s.rpr with test := some (k.toNat, slot.toNat) } ∧ ({ s with rpr := t.rpr }).Frame t [0x3005, 0x3050 + k.toNat] []))) ∧
      (let sound := s.slotState k.toNat slot.toNat = 2 ∧ phys ∈ s.rpr.passed
       (16 < slot.toNat → Gives (.restore k slot) s (only 2)) ∧ (slot.toNat ≤ 16 → spare k.toNat ≠ 31 → Gives (.restore k slot) s (only 1)) ∧
       (slot.toNat ≤ 16 → spare k.toNat = 31 → ¬ sound → Gives (.restore k slot) s (only 3)) ∧
       (slot.toNat ≤ 16 → spare k.toNat = 31 → sound → s.rpr.records.length < 16 → s.firn.area2.length < 7168 →
         s.on Reg.KEEP_STAT_DEVERR = false → Gives (.restore k slot) s (fun t => ended 0 t ∧ t.slotState k.toNat slot.toNat = 1 ∧
           t.get (Reg.RPR_SP_SLOT k.toNat) = slot.toNat ∧ t.get (Reg.RPR_SP_STATE k.toNat) = (if s.on (Reg.RPR_SP_ARMEN k.toNat) then 2 else 1) ∧
           phys ∉ t.rpr.passed ∧ t.rpr.records = s.rpr.records ++ [BitVec.ofNat 36 (4 * 2 ^ 32 + phys * 2 ^ 18)] ∧
           t.on Reg.RPR_STAT_NOSPARE = (List.range 16).any (fun j => decide (s.runState j ≠ 4 ∧ j ≠ k.toNat ∧ spare j = 31)))))) ∧
    (∀ pass : Bool,
      (s.rpr.test = some (k.toNat, slot.toNat) → s.room 0x40D →
        Gives (.testEnd k slot pass) s (fun t => t.rpr.test = none ∧ ended (if pass then 0 else 4) t ∧
          (if pass then phys ∈ t.rpr.passed ∧ t.msgs = s.msgs else t.rpr.passed = s.rpr.passed ∧ t.msgs = s.msgs ++ [infoMsg 0x40D 0x8B 2 phys]) ∧
          (spare k.toNat = slot.toNat → slot.toNat ≤ 16 → t.get (Reg.RPR_SP_STATE k.toNat) = if s.on (Reg.RPR_SP_ARMEN k.toNat) then 2 else 1))) ∧
      (s.rpr.test = none → s.rpr.loc = [] → exec (.testEnd k slot pass) s = .next s.close) ∧
      (∀ l : Localise, s.rpr.test = none → s.rpr.loc = [l] → l.begun = true → clusterOf (2 * l.pair) = k.toNat →
        (pass = true → s.slotOf (2 * l.pair) = slot.toNat ∨ s.slotOf (2 * l.pair + 1) = slot.toNat →
          Gives (.testEnd k slot pass) s (fun t => t.rpr.loc = [{ l with results := sinsert slot.toNat true l.results }])) ∧
        (pass = false → s.cellAt k.toNat slot.toNat = some (2 * l.pair) → s.slotOf (2 * l.pair) = slot.toNat →
          s.slotState k.toNat slot.toNat = 0 → s.runState k.toNat ≠ 4 → s.runReady = true → s.on Reg.RPR_CTRL_AUTO = true →
          ¬ (spare k.toNat ≤ 16 ∧ s.slotState k.toNat (spare k.toNat) = 1) → Gives (.testEnd k slot pass) s (fun t => t.rpr.loc = [{ l with results := sinsert slot.toNat false l.results }] ∧
            t.slotState k.toNat slot.toNat = 3 ∧ phys ∈ t.pins ∧ k.toNat ∈ t.rpr.doomed)))) ∧
    (let spareNow := s.get (Reg.RPR_SP_SLOT k.toNat)
     let found : Msg := { infoMsg phys 0x80 2 0 with pers := true }
     (16 < slot.toNat ∨ s.runState k.toNat = 4 ∨ s.runReady = false → exec (.cellCheckError k slot) s = .next s.close) ∧
     (slot.toNat ≤ 16 → s.runState k.toNat ≠ 4 → s.runReady = true → s.room phys →
       (s.cellAt k.toNat slot.toNat = some c.toNat → kc = k.toNat → s.slotOf c.toNat = slot.toNat → s.slotState k.toNat slot.toNat = 0 →
         let free := spare kc ≤ 16 ∧ s.slotState kc (spare kc) = 1
         let armed := decide (s.get (Reg.RPR_SP_STATE kc) = 3) && decide (s.get (Reg.RPR_SP_ARMPOS kc) = c.toNat % 16) && (slookup kc s.rpr.snaps).isSome
         s.rpr.test = none → s.rimeRun = true ∨ armed = false →
         Gives (.cellCheckError k slot) s (fun t => t.slotState k.toNat slot.toNat = 3 ∧ phys ∈ t.pins ∧ t.msgs = s.msgs ++ [found] ∧
           (t.cell c.toNat).banks = (s.cell c.toNat).banks ∧ (t.cell c.toNat).sb = (s.cell c.toNat).sb ∧ (t.cell c.toNat).stall = none ∧
           t.failed c.toNat = true ∧
           t.rpr.migs = (if s.on Reg.RPR_CTRL_AUTO = true ∧ free then [⟨kc, c.toNat, slot.toNat, spare kc, 1, armed, armed⟩] else []) ∧
           t.rpr.doomed = if s.on Reg.RPR_CTRL_AUTO = true ∧ ¬ free then setInsert kc s.rpr.doomed else s.rpr.doomed)) ∧
       (s.cellAt k.toNat slot.toNat = none → spareNow = slot.toNat → s.get (Reg.RPR_SP_STATE k.toNat) ≠ 0 → s.room 0x40D →
         Gives (.cellCheckError k slot) s (fun t => t.slotState k.toNat slot.toNat = 2 ∧ t.get (Reg.RPR_SP_SLOT k.toNat) = 31 ∧
           t.get (Reg.RPR_SP_STATE k.toNat) = 0 ∧ t.on Reg.RPR_STAT_NOSPARE = true ∧ t.msgs = s.msgs ++ [found,
             infoMsg 0x40D 0x81 1 ((16 * k.toNat + s.get (Reg.RPR_SP_ARMPOS k.toNat)) * 2 ^ 13 + slot.toNat * 2 ^ 5 + 31)])))) ∧
    (let store (j w : Nat) : Nat := 0x8000000 + (17 * k.toNat + j) * 65536 + w
     let copied (a b : Nat) (t : State) : Prop :=
       (∀ w < 0x4000, t.word (store b w) = s.word (store a w) ∧ t.tagOf (store b w) = s.tagOf (store a w)) ∧
       ((s.ecc.map Prod.fst).Nodup → ∀ w < 0x4000, t.eccAt (store b w) = if s.eccAt (store a w) = some true then some true else none) ∧
       ∀ key, ¬ (store b 0 ≤ key ∧ key < store b 0x4000) → t.word key = s.word key ∧ t.tagOf key = s.tagOf key
     let armed := s.slotOf (16 * k.toNat + s.get (Reg.RPR_SP_ARMPOS k.toNat))
     (s.Inv → s.get (Reg.RPR_SP_STATE k.toNat) = 2 → (slookup k.toNat s.rpr.snaps).isSome → armed ≠ spare k.toNat →
       Gives (.spareArmed k) s (fun t => t.get (Reg.RPR_SP_STATE k.toNat) = 3 ∧ copied armed (spare k.toNat) t)) ∧
     (slookup k.toNat s.rpr.snaps = none → exec (.spareArmed k) s = .next s.close) ∧
     (∀ snap, slookup k.toNat s.rpr.drains = some snap → Gives (.snapshotDrainEnd k) s (fun t =>
       slookup k.toNat t.rpr.snaps = some snap ∧ slookup k.toNat t.rpr.drains = none ∧ s.Frame { t with rpr := s.rpr } [] [])) ∧
     (slookup k.toNat s.rpr.drains = none → exec (.snapshotDrainEnd k) s = .next s.close) ∧
     exec (.migrationCopyEnd k) s = .next s.close ∧
     (∀ m : Migration, m.cluster = k.toNat → m.due = false → m.armed = false → clusterOf m.cell = k.toNat → m.old ≠ m.new → m.old ≤ 16 → m.new ≤ 16 →
       s.slotOf m.cell = m.old → s.locked m.cell = false → s.Inv →
       let u : State := { s with rpr := { s.rpr with migs := [m] } }
       (s.rimeRun = true → (s.cell m.cell).sb = [] → Gives (.migrationCopyEnd k) u (fun t => copied m.old m.new t ∧ t.rpr.migs = [{ m with due := true }] ∧
         t.slotOf m.cell = m.old)) ∧
       ((s.cell m.cell).sb ≠ [] → Gives (.migrationCopyEnd k) u (fun t => t.rpr = u.rpr ∧ t.mem = s.mem)) ∧
       (s.rimeRun = false → (s.cell m.cell).sb = [] → s.throughput m.cell = false → s.room 0x40D → m.cause < 8 →
         Gives (.migrationCopyEnd k) u (fun t => copied m.old m.new t ∧ t.rpr.migs = [] ∧ t.slotOf m.cell = m.new ∧
           t.slotState k.toNat m.new = 0 ∧ t.slotState k.toNat m.old = (if m.cause = 7 ∧ s.failed m.cell = false then 1 else 2) ∧
           t.get (Reg.RPR_SP_SLOT k.toNat) = (if m.cause = 7 ∧ s.failed m.cell = false then m.old else 31) ∧
           (∀ n < 8,
             let left := if s.lvState m.cell n = 2 then 1 else s.lvState m.cell n
             t.lvState m.cell n = if left = 1 ∧ s.lvEn m.cell n = true ∧ s.on (Reg.CELL_LCFG_TICK m.cell n) = false ∧
               s.pendingEvent m.cell n = true ∧ (s.cell m.cell).noStart.getLsbD n = false then 2 else left) ∧
           t.running m.cell = (if s.running m.cell < 8 then 15 else s.running m.cell) ∧
           s.counted t Reg.RPR_MIGCNT_COUNT ∧ (t.get Reg.RPR_IRQ_EV).testBit 0 = true ∧
           t.get Reg.RPR_MIGLAST_CAUSE = m.cause ∧ t.get Reg.RPR_MIGLAST_CELL = m.cell ∧ t.get Reg.RPR_MIGLAST_OLD = m.old ∧
           t.get Reg.RPR_MIGLAST_NEW = m.new ∧ t.on Reg.RPR_MIGLAST_VALID = true ∧ t.on Reg.RPR_MIGLAST_ARMED = false ∧
           (m.cause = 7 → ended 0 t) ∧
           infoMsg 0x40D 0x81 1 (m.cell * 2 ^ 13 + m.old * 2 ^ 5 + m.new) ∈ t.msgs)))))

/-- R478, R488 to R490, R492 to R494, R496: the repair of a row, the monitors of a cluster with the clock step, and the
calibration. -/
def Obligations.RepairEvents : Prop :=
  ∀ s : State, s.Calm →
    (s.rpr.cands = [] ∨ s.on Reg.RPR_CTRL_FREP = false → exec .fieldRowRepair s = .next s.close) ∧
    (∀ (key : Nat) (rest : List Nat), s.rpr.cands = key :: rest → s.on Reg.RPR_CTRL_FREP = true → s.room 0x40D →
      let m := macroOf key
      let note (kind cls : Nat) : Msg := if 2 ^ 60 ≤ key then
        infoMsg 0x40D kind cls (m % 2 ^ 14 * 2 ^ 18 + Config.macroRow key % 1024 * 256) else addrMsg 0x40D kind cls key
      (s.rowsUsed m < 8 → s.rpr.records.length < 16 → s.firn.area2.length < 7168 → s.on Reg.KEEP_STAT_DEVERR = false →
        Gives .fieldRowRepair s (fun t => t.rpr.cands = rest ∧ t.rowsUsed m = s.rowsUsed m + 1 ∧ (∀ j ≠ m, t.rowsUsed j = s.rowsUsed j) ∧
          s.counted t Reg.RPR_REPCNT_COUNT ∧ (t.get Reg.RPR_IRQ_EV).testBit 2 = true ∧ t.msgs = s.msgs ++ [note 0x84 1] ∧
          t.rpr.records = s.rpr.records ++ [BitVec.ofNat 36 (2 ^ 32 + m % 2 ^ 14 * 2 ^ 18 + Config.macroRow key % 1024 * 256)] ∧
          t.mem = s.mem ∧ t.tagA = s.tagA ∧
          ((s.ecc.map Prod.fst).Nodup → ∀ j, t.eccAt j = if s.eccAt j = some false ∧ macroOf j = m ∧
            Config.macroRow j % 1024 = Config.macroRow key % 1024 then none else s.eccAt j))) ∧
      (8 ≤ s.rowsUsed m → 2560 ≤ m → Gives .fieldRowRepair s (fun t => t.rpr.cands = rest ∧ t.on Reg.RPR_STAT_REPEXH = true ∧
        t.msgs = s.msgs ++ [note 0x85 2] ∧ t.ecc = s.ecc ∧ t.mem = s.mem))) ∧
    (∀ (k : ClusterId) (margin : BitVec 6) (temp : BitVec 9), (s.msgs.filter (fun m => decide (m.src = 0x200 + k.toNat))).length < 3 →
      let kelvin (v : Nat) : Int := (BitVec.ofNat 9 v).toInt
      let warm := kelvin (s.get Reg.RPR_TLIM_TWARN) ≤ temp.toInt
      let critical := kelvin (s.get Reg.RPR_TLIM_TCRIT) ≤ temp.toInt
      let small := margin.toNat < s.get Reg.RPR_TLIM_WLIM
      let step := s.get (Reg.RPR_CLK_CUR k.toNat)
      let floor := s.get (Reg.RPR_CLK_FLOOR k.toNat)
      let note := (if warm then 8 else 0) + step
      let persisting (kind info : Nat) : Msg := { infoMsg (0x200 + k.toNat) kind 2 info with pers := true }
      let slow := if small then s.rpr.slow else setErase k.toNat s.rpr.slow
      let rises : Prop := critical ∧ k.toNat ∉ s.rpr.hot
      let hot := if critical ∧ k.toNat ∉ s.rpr.hot then setInsert k.toNat s.rpr.hot
        else if temp.toInt < kelvin (s.get Reg.RPR_TLIM_TCRIT) - 5 then setErase k.toNat s.rpr.hot else s.rpr.hot
      let measured (cur : Nat) (slow : List Nat) (msgs : List Msg) (t : State) : Prop :=
        t.get (Reg.RPR_SENS_MARGIN k.toNat) = margin.toNat ∧ t.get (Reg.RPR_SENS_TEMP k.toNat) = temp.toNat ∧
        kelvin (t.get (Reg.RPR_SENS_TMAX k.toNat)) = max (kelvin (s.get (Reg.RPR_SENS_TMAX k.toNat))) temp.toInt ∧
        t.rpr.hot = hot ∧ t.rpr.slow = slow ∧ t.on Reg.RPR_STAT_TCRIT = decide (hot ≠ []) ∧ t.on Reg.RPR_STAT_FLOORW = decide (slow ≠ []) ∧
        (rises → 0x200 + k.toNat ∈ t.pins) ∧ (k.toNat ∉ slow → k.toNat ∉ hot → 0x200 + k.toNat ∉ t.pins) ∧
        t.get (Reg.RPR_CLK_CUR k.toNat) = cur ∧
        t.msgs = s.msgs ++ (if critical ∧ k.toNat ∉ s.rpr.hot then [persisting 0x89 temp.toNat] else []) ++ msgs
      let lowers (P : State → Prop) : Prop := Gives (.clockStepLowering k margin temp) s P
      (¬ warm → ¬ small → lowers (measured step slow [])) ∧
      (warm ∨ small → step < floor → lowers (fun t =>
        measured (step + 1) slow [infoMsg (0x200 + k.toNat) 0x87 1 (note + 1)] t ∧ s.counted t (Reg.RPR_CLK_DCNT k.toNat) ∧
        (t.get Reg.RPR_IRQ_EV).testBit 3 = true)) ∧
      (warm ∨ small → floor ≤ step → k.toNat ∈ slow → lowers (measured step slow [])) ∧
      (warm ∨ small → floor ≤ step → k.toNat ∉ slow → lowers (fun t =>
        measured step (setInsert k.toNat slow) [persisting 0x88 note] t ∧ 0x200 + k.toNat ∈ t.pins)) ∧
      Gives (.monitorRecovery k margin temp) s (measured step slow []) ∧
      (∀ done : Bool, (s.on Reg.RPR_CTRL_CALEN = false ∨ done = true → exec (.calibration k done) s = .next s.close) ∧
        (s.on Reg.RPR_CTRL_CALEN = true → done = false → Gives (.calibration k done) s (fun t => s.counted t Reg.RPR_CALSTARVE_COUNT ∧
          t.msgs = s.msgs ++ [infoMsg (0x200 + k.toNat) 0x8C 1 0] ∧ t.rpr = s.rpr))))
/-- R8, R297, R305, R306, R309, R313 to R321, R478, R556, R557: scrubbing, the install of a region, the responses and credits
of the fabric, and the accesses of the slave port to memories and registers. -/
def Obligations.MemoryEvents : Prop :=
  (∀ (m : ScrubMem) (seen : ScrubSeen) (busy : Bool) (s : State), s.Calm → s.scrubs m = false →
    exec (.scrub m seen busy) s = .next s.close ∧ exec (.scrubberStarved m) s = .next s.close) ∧
  (∀ (m : ScrubMem) (seen : ScrubSeen) (busy : Bool) (s : State) (e : ScrubWord), s.Calm → s.scrubs m = true →
    s.scrubWord m (s.scrubberAt m).pos = some e → s.room e.src →
    let pos := (s.scrubberAt m).pos
    let yields := (s.scrubberAt m).yields
    let waits := s.scrubYields m
    let forced := busy && !waits && decide (1024 ≤ yields + 1)
    let error (t : State) : Option Bool := t.scrubErr m pos e
    let half := e.key - e.key % 2
    let agree := s.tagA.contains half = s.tagB.contains half
    let found : ScrubSeen := match error s with
      | some true => ScrubSeen.double
      | some false => if seen = .double then ScrubSeen.double else .single
      | none => seen
    let report (kind cls : Nat) : Msg := match e.addr with
      | some pa => addrMsg e.src kind cls pa
      | none => infoMsg e.src kind cls e.index
    let spare : Option (Nat × Nat) := match m with
      | .control k slot => some (k.toNat, slot.toNat)
      | .dispatch k slot => some (k.toNat, slot.toNat)
      | _ => none
    let moved (t : State) : Prop := t.scrubberAt m = ⟨(pos + 1) % scrubSize m, 0⟩ ∧ t.mem = s.mem ∧
      (if forced = true then s.counted t Reg.BLK_SCRFORCE_COUNT else t.reg Reg.BLK_SCRFORCE_COUNT.off = s.reg Reg.BLK_SCRFORCE_COUNT.off)
    let held (t : State) (n : Nat) : Prop := t.scrubberAt m = ⟨pos, n⟩ ∧ t.mem = s.mem ∧ t.ecc = s.ecc ∧ t.cells = s.cells
    let starved (t : State) : Prop := held t (2 ^ 20) ∧ s.counted t Reg.BLK_SCRSTARVE_COUNT ∧ t.msgs = s.msgs ++ [report 0x04 1]
    (busy = false ∨ forced = true →
      (scrubTags m = false →
        (found = .clean → Gives (.scrub m seen busy) s (fun t => moved t ∧ t.ecc = s.ecc ∧ t.msgs = s.msgs)) ∧
        (found = .single → (e.key, true) ∉ s.rpr.corr → Gives (.scrub m seen busy) s (fun t => moved t ∧ error t = none ∧
          s.counted t Reg.BLK_SCRCORR_COUNT ∧ t.msgs = s.msgs ++ [report 0x01 1] ∧ t.rpr.corr.head? = some (e.key, true) ∧
          t.rpr.cands = s.rpr.cands)) ∧
        (found = .double → s.rowsUsed (macroOf e.key) < 8 → spare.all (fun u => decide (s.get (Reg.RPR_SP_SLOT u.1) ≠ u.2)) = true →
          Gives (.scrub m seen busy) s (fun t => moved t ∧ error t = some true ∧ s.counted t Reg.BLK_SCRUNC_COUNT ∧
            t.msgs = s.msgs ++ [report 0x02 2] ∧ (s.rpr.cands = [] → t.rpr.cands = [e.key]))) ∧
        (∀ u, found = .double → spare = some u → s.get (Reg.RPR_SP_SLOT u.1) = u.2 → u.2 ≤ 16 → s.get (Reg.RPR_SP_STATE u.1) ≠ 0 →
          s.runState u.1 ≠ 4 → s.runReady = true → Gives (.scrub m seen busy) s (fun t => moved t ∧ error t = some true ∧
            t.slotState u.1 u.2 = 2 ∧ t.get (Reg.RPR_SP_SLOT u.1) = 31 ∧ t.on Reg.RPR_STAT_NOSPARE = true))) ∧
      (scrubTags m = true →
        (seen ≠ .tagsDiffer → agree → Gives (.scrub m seen busy) s (fun t => moved t ∧ t.tagA = s.tagA ∧ t.tagB = s.tagB ∧ t.msgs = s.msgs)) ∧
        (seen = .tagsDiffer ∨ ¬ agree → s.rowsUsed (macroOf (tagKey e.key)) < 8 → ∀ pa, e.addr = some pa →
          Gives (.scrub m seen busy) s (fun t => moved t ∧ t.tagOf e.key = false ∧ t.msgs = s.msgs ++ [addrMsg e.src 0x03 2 (pa - pa % 2)])))) ∧
    (busy = true → forced = false → waits = false ∨ yields + 1 < 2 ^ 20 →
      Gives (.scrub m seen busy) s (fun t => held t (yields + 1) ∧ t.msgs = s.msgs)) ∧
    (busy = true → waits = true → yields + 1 = 2 ^ 20 → Gives (.scrub m seen busy) s starved) ∧
    (busy = true → waits = true → 2 ^ 20 ≤ yields → exec (.scrub m seen busy) s = .next s.close) ∧
    (if waits = true ∧ yields < 2 ^ 20 then Gives (.scrubberStarved m) s starved else exec (.scrubberStarved m) s = .next s.close)) ∧
  (∀ (m : Master) (d : BitVec 6) (r : BitVec 3) (v : Word) (s : State), s.Calm → s.shuts 0x20000 = false →
    (m = .slave → 2 ≤ s.slave.credits) →
    let n := 8 * d.toNat + r.toNat
    let o := 0x20000 + 4 * n
    let w (j : Nat) : Nat := (s.reg (o + j)).toNat
    let base := v.toNat / 64 % 2 ^ 26 * 64
    let size := w 1 % 2 ^ 27 * 64
    let pbase := w 2 / 64 % 2 ^ 30 * 64 + w 3 % 2 ^ 14 * 2 ^ 36
    let dev := (s.reg (o + 3)).getLsbD 34
    let cache := w 3 / 2 ^ 32 % 4
    let refused : Option Nat := if size = 0 ∨ size > 2 ^ 32 then some 1 else if base + size > 2 ^ 32 ∨ base + size ≤ 0x4000 then some 2
      else if targetArea pbase size = none then some 3 else if cache = 3 then some 4
      else if dev = true ∧ targetArea pbase size ≠ some fabricBase then some 5 else none
    let others (t : State) : Prop := ∀ j ≠ n, slookup j t.installed = slookup j s.installed
    let dropped (t : State) : Prop := ∀ c < 256, (∀ l ∈ (t.cell c).dcache ++ (t.cell c).icache, l.via ≠ n) ∧
      ∀ e ∈ (t.cell c).sets, e.2.toNat ≠ d.toNat
    Gives (.regionInstall m d r v) s (fun t => others t ∧
      (v.getLsbD 35 = false → slookup n t.installed = none ∧ (t.reg o).getLsbD 35 = false ∧ dropped t) ∧
      (v.getLsbD 35 = true → refused = none → (t.reg o).getLsbD 35 = true ∧ dropped t ∧
        slookup n t.installed = some ⟨base / 64, size / 64, pbase, (s.reg (o + 3)).getLsbD 35, dev, BitVec.ofNat 2 cache⟩) ∧
      (∀ cause, v.getLsbD 35 = true → refused = some cause → slookup n t.installed = none ∧ (t.reg o).getLsbD 35 = false ∧
        t.reg 0x30 = BitVec.ofNat 36 (2 ^ 35 + n * 8 + cause) ∧
        ((slookup n s.installed).isSome → dropped t) ∧ (slookup n s.installed = none → t.cells = s.cells)))) ∧
  (∀ (p : BitVec 2) (tag : BitVec 10) (s : State), s.Calm →
    let mine (x : FabTx) : Bool := decide (x.port = p.toNat ∧ x.tag = tag.toNat)
    (s.fab.txs.find? mine = none →
      (∀ st data, exec (.fabricResponse p tag st data) s = .next (if s.fab.retired.contains (p.toNat, tag.toNat) then
        ({ s with fab := { s.fab with retired := s.fab.retired.filter (fun q => decide (q ≠ (p.toNat, tag.toNat))) } }).bump
          (Reg.BLK_FMLATE_COUNT p.toNat) else s).close) ∧
      exec (.retryReissue p tag) s = .next s.close ∧
      exec (.fabricTimeout p tag) s =
        .next ({ s with fab := { s.fab with retired := s.fab.retired.filter (fun q => decide (q ≠ (p.toNat, tag.toNat))) } }).close) ∧
    (∀ x : FabTx, s.fab.txs.find? mine = some x →
      let rest := s.fab.txs.filter (fun y => decide (y.port ≠ x.port ∨ y.tag ≠ x.tag))
      let errs (t : State) : Prop := s.counted t (Reg.BLK_FMERR_COUNT x.port)
      let done : Prop := x.unsent = 0 ∧ x.retry = false
      (x.retry = true → Gives (.retryReissue p tag) s (fun t => ∃ y ∈ t.fab.txs, mine y = true ∧ y.retry = false ∧ y.addr = x.addr ∧
        y.purpose = x.purpose)) ∧
      (x.retry = false → exec (.retryReissue p tag) s = .next s.close) ∧
      (done → x.spec = true → ∀ data, exec (.fabricResponse p tag 1 data) s = .next ({ s with fab := { s.fab with txs := rest } }).close) ∧
      (done → x.spec = false → ∀ data, exec (.fabricResponse p tag 1 data) s =
        .next ({ s with fab := { s.fab with txs := s.fab.txs.map (fun y => if mine y then { y with retry := true } else y) } }).close) ∧
      (¬ done → ∀ st data, exec (.fabricResponse p tag st data) s = .next s.close) ∧
      (x.purpose = .write → x.wr = true → s.room (s.physOf x.cell) →
        (done → ∀ data, Gives (.fabricResponse p tag 0 data) s (fun t => t.fab.txs = rest ∧ t.msgs = s.msgs)) ∧
        (done → ∀ st data, 2 ≤ st → Gives (.fabricResponse p tag st data) s (fun t => t.fab.txs = rest ∧ errs t ∧
          t.msgs = s.msgs ++ [addrMsg (s.physOf x.cell) 0x10 2 x.addr])) ∧
        Gives (.fabricTimeout p tag) s (fun t => t.fab.txs = rest ∧ errs t ∧ (p.toNat, tag.toNat) ∈ t.fab.retired ∧
          t.msgs = s.msgs ++ [addrMsg (s.physOf x.cell) 0x10 2 x.addr])) ∧
      (∀ (e : SbEntry) (l : List SbEntry) (a : Word × BitVec 4), x.purpose = .drain → x.wr = true → done → (s.cell x.cell).sb = e :: l →
        e.issued = true → e.words = [a] → e.ret = false → (s.cell x.cell).resetDue = false → (s.cell x.cell).dcache = [] → s.room (s.physOf x.cell) →
        (∀ data, Gives (.fabricResponse p tag 0 data) s (fun t => t.fab.txs = rest ∧ t.cell x.cell = { s.cell x.cell with sb := l } ∧ t.msgs = s.msgs)) ∧
        (∀ st data, 2 ≤ st → Gives (.fabricResponse p tag st data) s (fun t => t.fab.txs = rest ∧ errs t ∧
          t.cell x.cell = { s.cell x.cell with sb := l } ∧ t.msgs = s.msgs ++ [addrMsg (s.physOf x.cell) 0x10 2 e.pa]))) ∧
      (∀ (id slot va pa : Nat) (dev : Bool) (l : PendLoad),
        let k := s.bank x.cell l.bank
        let waits := k.pend.filter (fun q => decide (q ≠ (slot, id)))
        x.purpose = .load id none → x.wr = false → done → (s.cell x.cell).loads = [l] → l.id = id → l.slots = [(slot, 0)] → l.nonet = none → l.fwd = [] →
        l.words = [⟨va, pa, none, dev⟩] → (slot, id) ∈ k.pend → (s.cell x.cell).stall = none → x.addr ≤ pa → pa < x.addr + 2 * x.beats →
        (∀ data : List Word, data.length = 2 * x.beats → Gives (.fabricResponse p tag 0 data) s (fun t => t.fab.txs = rest ∧
          (t.cell x.cell).loads = [] ∧ t.bank x.cell l.bank = { k with pend := waits }.dset slot (data.getD (pa - x.addr) 0) ∧ t.msgs = s.msgs)) ∧
        (∀ st data, 2 ≤ st → s.room 0x411 → Gives (.fabricResponse p tag st data) s (fun t => t.fab.txs = rest ∧ errs t ∧ (t.cell x.cell).loads = [] ∧
          t.bank x.cell l.bank = { k with pend := waits, dmark := ⟨slot, 7, 3, BitVec.ofNat 32 va, pa⟩ :: k.dmark } ∧
          t.msgs = s.msgs ++ [addrMsg 0x411 0x10 2 x.addr])))) ∧
    (let credits (t : State) : Nat := t.fab.credits.toList.getD p.toNat 0
     (∀ x ∈ s.fab.txs, x.port = p.toNat → x.unsent = 0) → Gives (.creditReturn p) s (fun t => credits t = min 64 (credits s + 1) ∧
       t.fab.qinit.toList.getD p.toNat true = false ∧ t.fab.txs = s.fab.txs ∧
       ∀ q < 4, q ≠ p.toNat → t.fab.credits.toList.getD q 0 = s.fab.credits.toList.getD q 0)) ∧
    (∀ x : FabTx, s.fab.txs = [x] → x.port = p.toNat → 0 < x.unsent → s.fab.credits.toList.getD p.toNat 0 = 0 → s.power (4 * p.toNat) ≤ 1 →
      Gives (.creditReturn p) s (fun t => t.fab.txs = [{ x with unsent := x.unsent - 1 }] ∧ t.fab.credits.toList.getD p.toNat 0 = 0))) ∧
  (∀ (tag : BitVec 8) (addr : BitVec 50) (wr : Bool) (beats : List (BitVec 8 × DWord)) (s : State), s.Calm →
    let pa := addr.toNat - addr.toNat % 2
    let key := s.key pa
    let i := Instr.slaveMemoryAccess tag addr wr beats
    let low (e : BitVec 8) : BitVec 4 := e.extractLsb' 0 4
    let high (e : BitVec 8) : BitVec 4 := e.extractLsb' 4 4
    let given (a : Answer) : State := { s with slave := { s.slave with last := some (tag, a) } }
    let need := if wr then 1 + beats.length else 1
    let refused (t : State) : Prop := t.slave = (given .error).slave ∧ s.counted t Reg.BLK_SPERR_COUNT ∧ t.mem = s.mem
    let memory (a : Nat) : Prop := (∃ k, s.area a = .store k) ∨ (∃ k, s.area a = .cluster k)
    let waits (a : Nat) : Prop := s.underTest a = true ∨ memory a ∧ s.busBusy a = true
    let plain (a : Nat) : Prop := s.shuts a = false ∧ memory a ∧ s.busBusy a = false
    (s.slave.credits < need → exec i s = .next s.close) ∧
    (need ≤ s.slave.credits →
      (∀ j < beats.length, waits (pa + 2 * j) → exec i s = .next (given .retry).close) ∧
      (∀ e : BitVec 8 × DWord, beats = [e] → s.shuts pa = false → s.area pa = .hole → e.1 ≠ 0 → Gives i s refused) ∧
      (∀ (e : BitVec 8 × DWord), wr = false → beats = [e] → plain pa → low e.1 ≠ 0 → high e.1 = 0 → s.eccAt key = some true →
        s.rowsUsed (macroOf key) < 8 → s.room (memSource key) →
        Gives i s (fun t => refused t ∧ t.msgs = s.msgs ++ [addrMsg (memSource key) 0x02 2 pa])) ∧
      ((∀ j < beats.length, plain (pa + 2 * j) ∧ ∀ b < 2, s.key (pa + 2 * j + b) = key + 2 * j + b ∧ s.eccAt (key + 2 * j + b) = none) →
        (wr = false → exec i s = .next (given (.okay (beats.zipIdx.map (fun e =>
          dword (if low e.1.1 = 0 then 0 else s.word (key + 2 * e.2)) (if high e.1.1 = 0 then 0 else s.word (key + 2 * e.2 + 1)))))).close) ∧
        (wr = true → (∀ j < beats.length, s.mirrorOf (key + 2 * j) = none ∧ s.mirrorOf (key + 2 * j + 1) = none) →
          Gives i s (fun t => t.slave = (given (.okay [])).slave ∧
            (∀ (j : Nat) (e : BitVec 8 × DWord), beats[j]? = some e →
              let k := key + 2 * j
              (e.1 ≠ 0 → t.tagOf k = false) ∧
              (∀ b < 36, (t.word k).getLsbD b = if e.1.getLsbD (b / 9) then e.2.getLsbD b else (s.word k).getLsbD b) ∧
              (∀ b < 36, (t.word (k + 1)).getLsbD b = if e.1.getLsbD (4 + b / 9) then e.2.getLsbD (36 + b) else (s.word (k + 1)).getLsbD b)) ∧
            ∀ j, j < key ∨ key + 2 * beats.length ≤ j → t.word j = s.word j))))) ∧
  (∀ (off : BitVec 20) (v : Word) (row : RegRow) (s : State), s.Calm → s.shuts 0x2000 = false → 0x2000 ≤ off.toNat → off.toNat < 0x3000 →
    regRow off.toNat = some row → s.eccAt off.toNat = none →
    let o := off.toNat
    let at_ (n : Nat) : Word := BitVec.ofNat 36 n
    let others (t : State) : Prop := ∀ p ≠ o, ¬ distributor p → ¬ s.wakeable p → t.reg p = s.reg p
    let shown := s.reg o &&& ~~~ at_ row.wo
    let written (last any : Word) (t : State) : Prop :=
      t.reg o = (((s.reg o &&& ~~~ at_ row.rw) ||| (last &&& at_ row.rw)) &&& ~~~ (any &&& at_ row.w1c)) ||| (any &&& at_ row.w1s)
    (o ≠ 0x2005 → o ≠ 0x2010 →
      (∀ m : Master, (m = .slave → 2 ≤ s.slave.credits) → Gives (.registerWrite m off v 15 []) s (fun t => written v v t ∧ others t)) ∧
      (∀ (m n : Master) (u : Word), m ≠ n → (m = .slave ∨ n = .slave → 2 ≤ s.slave.credits) →
        Gives (.registerWrite m off v 15 [(n, u)]) s (fun t =>
          written (if masterRank m < masterRank n then u else v) (v ||| u) t ∧ others t)) ∧
      ∀ en : BitVec 4, en ≠ 15 → en ≠ 0 → 2 ≤ s.slave.credits → Gives (.registerWrite .slave off v en []) s (fun t =>
        t.slave.last = some (0, .error) ∧ s.counted t Reg.BLK_SPERR_COUNT ∧ t.reg o = s.reg o)) ∧
    (o ≠ 0x2002 → 1 ≤ s.slave.credits → Gives (.registerReadClear off) s (fun t =>
      t.slave.last = some (0, .okay [if o % 2 = 0 then dword shown 0 else dword 0 shown]) ∧
      t.reg o = s.reg o &&& ~~~ at_ row.rtc ∧ others t)))
/-- R234 to R239, R541: the load verifier takes an image, checks it in the order of R238, and writes it into its clusters'
stores. -/
def Obligations.LoadVerifier : Prop :=
  ∀ s : State, s.Calm → s.shuts 0xA100 = false →
    let st := s.get Reg.LDV_STAT_STATE
    let w (i : Nat) : Word := s.ldv.buf.getD i 0
    let len := (w 4).toNat
    let n := s.ldv.buf.length
    let base := (w 1).toNat % 2 ^ 18 = 0
    let targets (k : Nat) : Prop := k < 16 ∧ s.ldv.target.testBit k = true
    (∀ target : BitVec 16, Gives (.ldvStart target) s (fun t => t.get Reg.LDV_CTRL_TARGET = target.toNat ∧
      if st = 0 ∨ st = 4 ∨ st = 5 then t.get Reg.LDV_STAT_STATE = 1 ∧ t.get Reg.LDV_STAT_COUNT = 0 ∧ t.thaw.loading = true ∧
        t.ldv = { s.ldv with buf := [], bufErr := [], target := target.toNat }
      else t.get Reg.LDV_STAT_STATE = st ∧ t.ldv = s.ldv)) ∧
    (st = 1 ∨ st = 2 → Gives .ldvAbort s (fun t => t.get Reg.LDV_STAT_STATE = 5 ∧ t.get Reg.LDV_STAT_CODE = 10 ∧ t.ldv = s.ldv)) ∧
    (st ≠ 1 → st ≠ 2 → exec .ldvAbort s = .next s.close) ∧
    (∀ v : Word, (st ≠ 1 → exec (.ldvData v) s = .next s.close) ∧
      (st = 1 → n < 8192 → Gives (.ldvData v) s (fun t => t.ldv = { s.ldv with buf := s.ldv.buf ++ [v], bufErr := serase n s.ldv.bufErr } ∧ t.get Reg.LDV_STAT_COUNT = n + 1 ∧
        (n = 4 → v.toNat % 2 = 1 ∨ 8124 < v.toNat → t.get Reg.LDV_STAT_STATE = 5 ∧ t.get Reg.LDV_STAT_CODE = 9) ∧
        (n = 4 → v.toNat % 2 = 0 → v.toNat ≤ 8124 → t.get Reg.LDV_STAT_STATE = 1) ∧
        (n ≠ 4 → t.get Reg.LDV_STAT_STATE = if 4 < n ∧ n + 1 = 68 + len then 2 else 1)))) ∧
    (st ≠ 2 → exec .verify s = .next s.settle) ∧
    (let header := w 0 = 0x05AC00256 ∧ (w 1).toNat / 2 ^ 18 = 1 ∧ (w 1).toNat % 2 ^ 18 ≤ 1 ∧ w 2 = s.reg 0 ∧ ∀ i, 8 ≤ i → i < 16 → w i = 0
     let ordered := if base then s.get Reg.LDV_MINSEQ_MIN ≤ (w 3).toNat / 2 ^ 18
       else ∀ k, targets k → (s.get Reg.LDV_VALID_V).testBit k = true ∧ (w 3).toNat / 2 ^ 18 = s.get (Reg.LDV_CLSEQ_BASE k) ∧
         s.get (Reg.LDV_CLSEQ_PATCH k) < (w 3).toNat % 2 ^ 18
     let outcome (i : Nat) (t : State) : Prop := t.ldv = s.ldv ∧
       if i = 0 then t.get Reg.LDV_STAT_STATE = 3 else t.get Reg.LDV_STAT_STATE = 5 ∧ t.get Reg.LDV_STAT_CODE = i
     (∀ (a : Nat) (u : Bool), st = 2 → s.ldv.bufErr = [(a, u)] → a < n → s.room 0x410 → Gives .verify s (fun t =>
       t.msgs = s.msgs ++ [if u then infoMsg 0x410 0x02 2 a else infoMsg 0x410 0x01 1 a] ∧ (u = true → t.get Reg.LDV_STAT_STATE = 5))) ∧
     (st = 2 → (∀ e ∈ s.ldv.bufErr, n ≤ e.1) → (¬ header → Gives .verify s (outcome 1)) ∧ (header → s.ldv.aes = none ∨ s.ldv.hash = none → Gives .verify s (outcome 2)) ∧
       (∀ key h, header → s.ldv.aes = some key → s.ldv.hash = some h →
         let third := Config.sha384 (s.ldvBytes 16 24) = h
         let fourth := Config.ecdsaVerify (s.ldv32 16 24) (Config.sha384 (s.ldvBytes 0 (44 + len))) (s.ldv32 (44 + len) 24) = true
         let fifth := Config.gcmOpen key (s.ldv32 5 3) (s.ldvBytes 0 40) (s.ldvBytes 40 len) (s.ldv32 (40 + len) 4) ≠ none
         let sixth := s.ldvSections ≠ none
         let eighth := s.ldv.target ≠ 0 ∧ ∀ k, targets k → s.runState k = 2
         (¬ third → Gives .verify s (outcome 3)) ∧ (third → ¬ fourth → Gives .verify s (outcome 4)) ∧
         (third → fourth → ¬ fifth → Gives .verify s (outcome 5)) ∧ (third → fourth → fifth → ¬ sixth → Gives .verify s (outcome 6)) ∧
         (third → fourth → fifth → sixth → ¬ ordered → Gives .verify s (outcome 7)) ∧
         (third → fourth → fifth → sixth → ordered → ¬ eighth → Gives .verify s (outcome 8)) ∧
         (third → fourth → fifth → sixth → ordered → eighth → Gives .verify s (outcome 0))))) ∧
    (st ≠ 3 → exec .broadcast s = .next s.settle) ∧
    (∀ (ms : List (Nat × BitVec 144)) (ds : List (Nat × Nat)), st = 3 → s.ldvSections = some (ms, ds) →
      let store (t : State) (k : Nat) : MicroStore := sget MicroStore.empty k t.ldv.stores
      Gives .broadcast s (fun t => t.get Reg.LDV_STAT_STATE = 4 ∧ t.get Reg.LDV_STAT_CODE = 0 ∧
        (∀ k, targets k → (t.get Reg.LDV_VALID_V).testBit k = true ∧
          (base → t.get (Reg.LDV_CLSEQ_BASE k) = (w 3).toNat / 2 ^ 18 ∧ t.get (Reg.LDV_CLSEQ_PATCH k) = 0) ∧
          (¬ base → t.get (Reg.LDV_CLSEQ_BASE k) = s.get (Reg.LDV_CLSEQ_BASE k) ∧ t.get (Reg.LDV_CLSEQ_PATCH k) = (w 3).toNat % 2 ^ 18) ∧
          (∀ a m, (a, m) ∈ ms → sget 0 a (store t k).words = m) ∧ (∀ i a, (i, a) ∈ ds → sget 0 i (store t k).disp = a) ∧
          (∀ e ∈ (store t k).wordErr, ∀ m, (e.2.1, m) ∉ ms) ∧ (∀ e ∈ (store t k).dispErr, ∀ a, (e.2.1, a) ∉ ds) ∧
          (¬ base → (∀ a, (∀ m, (a, m) ∉ ms) → sget 0 a (store t k).words = sget 0 a (store s k).words) ∧
            ∀ i, (∀ a, (i, a) ∉ ds) → sget 0 i (store t k).disp = sget 0 i (store s k).disp)) ∧
        ∀ k < 16, ¬ targets k → store t k = store s k ∧ t.reg (Reg.LDV_CLSEQ_BASE k).off = s.reg (Reg.LDV_CLSEQ_BASE k).off ∧
          (t.get Reg.LDV_VALID_V).testBit k = (s.get Reg.LDV_VALID_V).testBit k)) ∧
    (∀ (sel : Bool) (words : List (BitVec 32)),
      (s.blockUp = false ∨ st = 2 ∨ st = 3 → exec (.keyDelivery sel words) s = .next s) ∧
      (s.blockUp = true → st ≠ 2 → st ≠ 3 → Gives (.keyDelivery sel words) s (fun t =>
        t.ldv = (if sel then (if words.length = 12 then { s.ldv with hash := some words } else s.ldv)
          else if words.length = 8 then { s.ldv with aes := some words } else s.ldv) ∧
        t.on Reg.LDV_STAT_KEY = (t.ldv.aes.isSome && t.ldv.hash.isSome) ∧ ({ s with ldv := t.ldv }).Frame t [0xA101] [])))

/-- R439, R451, R473, R499 to R508, R542: the phases of Thaw with what each leaves, the map that it builds, and Hold. -/
def Obligations.ThawPhases : Prop :=
  ∀ s : State, s.Calm → s.room 0x40F →
    let phase := s.get Reg.THAW_STATUS_PHASE
    let hold := s.on Reg.THAW_STATUS_HOLD
    let runs (i : Nat) : Prop := s.thaw.started = true ∧ phase = i ∧ hold = false
    let ends (i : Nat) (t : State) : Prop := t.get Reg.THAW_STATUS_PHASE = i + 1 ∧ t.on Reg.THAW_STATUS_HOLD = false
    let held (cause : Nat) (t : State) : Prop := t.get Reg.THAW_STATUS_PHASE = phase ∧ t.on Reg.THAW_STATUS_HOLD = true ∧
      t.get Reg.THAW_STATUS_CAUSE = cause ∧ t.thaw.fuseReq = false ∧ t.on Reg.FRM_STAT_LOCK = s.lockSeen
    let told (t : State) : Prop := t.msgs = s.msgs ++ [{ infoMsg 0x40F 0xA0 3 (t.reg Reg.THAW_STATUS_PHASE.off).toNat with pers := true }]
    let bad (t : State) (k i : Nat) : Nat := t.get ⟨(Reg.THAW_BAD_SLOT k).off, 2 * i, 2⟩
    let built (out : Nat → Nat → Prop) (dead : Nat → Prop) (t : State) : Prop := ∀ k < 16, s.runState k ≠ 4 →
      let lost := (∃ i < 16, ∃ j < 16, i ≠ j ∧ out k i ∧ out k j) ∨ ((∃ i < 16, out k i) ∧ out k 16) ∨ dead k
      (lost → t.runState k = 4 ∧ (out k 16 → t.get (Reg.RPR_SP_SLOT k) = 31)) ∧
      (¬ lost → t.runState k = s.runState k ∧ (∀ p < 16, (out k p → t.slotOf (16 * k + p) = 16) ∧ (¬ out k p → t.slotOf (16 * k + p) = p)) ∧
        ((∃ i ≤ 16, out k i) → t.get (Reg.RPR_SP_SLOT k) = 31) ∧
        ((∀ i ≤ 16, ¬ out k i) → t.get (Reg.RPR_SP_SLOT k) = 16 ∧ t.slotState k 16 = 1) ∧
        (∀ i ≤ 16, out k i → t.slotState k i = if bad s k i = 0 then 2 else s.slotState k i) ∧
        ∀ i < 16, ¬ out k i → t.slotState k i = s.slotState k i)
    (let begun : State := { s with
       thaw := { s.thaw with started := true, fuseReq := true }, dbg := { s.dbg with powered := true },
       slave := { s.slave with credits := 32, qinit := false } }
     exec .thawStart s = .next (if s.thaw.started = true then s else begun)) ∧
    (∀ w : Word, exec (.fuseWord w) s = .next (if s.thaw.fuseReq = false then s else if w.toNat / 2 ^ 32 = 15 then
        { s with thaw := { s.thaw with fuseReq := false } } else if s.thaw.fuses.length < 2048 then
        { s with thaw := { s.thaw with fuses := s.thaw.fuses ++ [w] } } else s)) ∧
    (s.thaw.fuseReq = false → exec .fuseStreamTimeout s = .next s.close) ∧
    (s.thaw.fuseReq = true → Gives .fuseStreamTimeout s (fun t => held 1 t ∧ told t ∧ t.get Reg.THAW_STATUS_UNIT = 0x40F)) ∧
    (∀ (img : FlashImage) (faulty : List MacroId) (spares : List (MacroId × BitVec 4 × BitVec 3)),
      let i := Instr.phase1End img faulty spares
      (¬ runs 1 ∨ s.thaw.fuseReq = true → exec i s = .next s.close) ∧
      (runs 1 → s.thaw.fuseReq = false →
        let accepted (d : FlashParams) : Prop := 16 ≤ d.mbit ∧ d.mbit ≤ 2048 ∧ d.pageBytes = 256 ∧ d.erase64k = true ∧ (d.mbit ≤ 128 ∨ d.fourByte = true)
        let firnSound := ∀ m ∈ faulty, m.cls ≠ 9
        (∀ d, img.params = some d → accepted d →
          (∀ m : MacroId, faulty = [m] → m.cls = 9 → Gives i s (fun t => held 2 t ∧ t.get Reg.THAW_STATUS_UNIT = 0x40C ∧
            t.thaw.failed = [0x40C] ∧ t.get Reg.THAW_STATUS_DETAIL = (9 * 512 + m.inst.toNat) % 4096)) ∧
          (firnSound →
            let n := (img.repair2.takeWhile (fun e => decide (e.word.toNat / 2 ^ 32 ≠ 15))).length
            let crcOk (e : RepairEntry) : Bool := decide (e.crc.toNat % 2 ^ 32 = crc32c [e.word, 0])
            let list : List (Option Word) := (List.range n).map (fun j => [img.repair2[j]?, img.repair3[j]?].findSome? (fun e =>
              e.bind (fun e => if crcOk e then some e.word else none)))
            let blankSlots (b lo : Nat) : List Nat :=
              (List.range' (25 * b) 25).filter (fun j => decide (lo ≤ j) && !img.hot.any (fun h => decide (h.slot = j)))
            let supply (slots : List Nat) (stale : Nat) (t : State) : Prop := t.firn.hot = img.hot ∧ t.firn.prepared = slots ∧
              t.firn.hotErase = if slots = [] ∧ s.firn.unread = [] then some stale else s.firn.hotErase
            let sound (h : HotSlot) : Prop := recSound h.words = true ∧ recTyp h.words = 5
            Gives i s (fun t => ends 1 t ∧ t.on Reg.KEEP_STAT_PH1 = true ∧
              t.firn.dev = some d ∧ t.firn.blocks = img.blocks.map blockRead ∧ t.firn.area2 = (img.repair2.take n).map some ∧
              t.firn.area3 = (img.repair3.take n).map some ∧
              (∀ h ∈ img.hot, sound h → (∀ g ∈ img.hot, sound g → g ≠ h → (recSeq g.words).toNat < (recSeq h.words).toNat) →
                t.on Reg.KEEP_STAT_HOTLOAD = true ∧ t.reg Reg.KEEP_HOTSEQ_SEQ.off = recSeq h.words ∧
                t.reg Reg.KEEP_SEQ_SEQ.off = recSeq h.words + 1 ∧ supply (blankSlots (h.slot / 25) (h.slot + 1)) (1 - h.slot / 25) t ∧
                ∀ j < 0x1200, t.word (0x3200000 + j) = if j < 512 then (recBody h.words).getD j 0 else 0) ∧
              ((∀ h ∈ img.hot, ¬ sound h) → t.on Reg.KEEP_STAT_HOTLOST = true ∧ supply (blankSlots 0 0) 0 t ∧
                ∀ j < 0x1200, t.word (0x3200000 + j) = 0) ∧
              (∀ key, ¬ (0x3200000 ≤ key ∧ key < 0x3201200) → t.word key = s.word key) ∧
              (∀ k < 16, ∀ j ≤ 16, bad s k j = 0 → (17 * k + j ∈ retiredSlots list → bad t k j = 1 ∧ t.slotState k j = 2) ∧
                (17 * k + j ∉ retiredSlots list → bad t k j = 0 ∧ t.slotState k j = s.slotState k j))))) ∧
        ((∀ d, img.params = some d → ¬ accepted d) → Gives i s (fun t => ends 1 t ∧ t.on Reg.KEEP_STAT_PH1 = true ∧
          t.on Reg.KEEP_STAT_DEVERR = true ∧ t.on Reg.KEEP_STAT_HOTLOST = true ∧ t.firn = s.firn ∧ t.mem = s.mem ∧
          (s.room 0x40C → t.msgs = s.msgs ++ [infoMsg 0x40C 0x60 2 0]))))) ∧
    ((∀ l r u, ¬ runs 2 → exec (.phase2End l r u) s = .next s.close) ∧
      (runs 2 → Gives (.phase2End [] [] false) s (fun t => ends 2 t ∧ ∀ key : Nat,
        if 0x3200000 ≤ key ∧ key < 0x3201200 then t.word key = s.word key ∧ t.eccAt key = s.eccAt key
        else t.word key = 0 ∧ t.tagOf key = false ∧ t.eccAt key = none)) ∧
      (runs 2 → Gives (.phase2End [] [] true) s (fun t => held 2 t ∧ t.get Reg.THAW_STATUS_UNIT = 0x402 ∧ t.thaw.failed = [0x402])) ∧
      ∀ (m : MacroId) (r : BitVec 4) (c : BitVec 3) (tables : Bool), runs 2 → m.cls ≠ 9 →
        Gives (.phase2End [] [(m, r, c)] false) s (fun t => ends 2 t ∧ t.rowsUsed (macroCode m) = min 8 (s.rowsUsed (macroCode m) + r.toNat) ∧
          sget 0 (macroCode m) t.rpr.cols = min 4 (sget 0 (macroCode m) s.rpr.cols + c.toNat)) ∧
        (7 ≤ m.cls.toNat → Gives (.phase2End [m] [] tables) s (fun t => held 2 t ∧
          t.get Reg.THAW_STATUS_DETAIL = (m.cls.toNat * 512 + m.inst.toNat) % 4096 ∧
          t.get Reg.THAW_STATUS_UNIT = macroUnit m ∧ t.thaw.failed = macroUnit m :: (if tables then [0x402] else []))) ∧
        (m.cls.toNat ≤ 4 → m.inst.toNat < 272 → bad s (m.inst.toNat / 17) (m.inst.toNat % 17) = 0 →
          Gives (.phase2End [m] [] false) s (fun t => ends 2 t ∧ bad t (m.inst.toNat / 17) (m.inst.toNat % 17) = 2 ∧
            t.slotState (m.inst.toNat / 17) (m.inst.toNat % 17) = 2)) ∧
        (5 ≤ m.cls.toNat → m.cls.toNat ≤ 6 → Gives (.phase2End [m] [] false) s (fun t => ends 2 t ∧
          t.thaw.badClusters = setInsert (m.inst.toNat / 16 % 16) s.thaw.badClusters))) ∧
    (∀ (slots : List (ClusterId × BitVec 5)) (clusters : List ClusterId) (units : List (BitVec 12)),
      let out (k i : Nat) : Prop := bad s k i ≠ 0 ∨ ∃ e ∈ slots, e.1.toNat = k ∧ e.2.toNat = i
      let dead (k : Nat) : Prop := k ∈ s.thaw.badClusters ∨ ∃ e ∈ clusters, e.toNat = k
      (¬ runs 3 → exec (.phase3End slots clusters units) s = .next s.close) ∧
      (∀ u rest, runs 3 → units = u :: rest → Gives (.phase3End slots clusters units) s (fun t => held 3 t ∧
        t.get Reg.THAW_STATUS_UNIT = u.toNat ∧ t.thaw.failed = units.map BitVec.toNat)) ∧
      (runs 3 → units = [] → Gives (.phase3End slots clusters units) s (fun t => built out dead t ∧
        (∀ k < 16, ∀ i ≤ 16, bad s k i = 0 → bad t k i = if ∃ e ∈ slots, e.1.toNat = k ∧ e.2.toNat = i then 3 else 0) ∧
        ((∃ k < 16, t.runState k ≠ 4) → ends 3 t) ∧ ((∀ k < 16, t.runState k = 4) → held 7 t)))) ∧
    (let whole := ∀ k < 16, s.runState k = 4 ∨ (s.get Reg.LDV_VALID_V).testBit k = true
     (¬ runs 4 → exec .mcdone s = .next s.close) ∧ (runs 4 → whole → Gives .mcdone s (ends 4)) ∧
     (runs 4 → ¬ whole → Gives .mcdone s (fun t => held 5 t ∧ told t))) ∧
    (∀ fails : List (ClusterId × BitVec 5 × BitVec 72),
      let out (k i : Nat) : Prop := bad s k i ≠ 0 ∨ ∃ e ∈ fails, e.1.toNat = k ∧ e.2.1.toNat = i
      let alike (k : Nat) (sig : BitVec 72) : Nat := (fails.filter (fun e => decide (e.1.toNat = k) && decide (e.2.2 = sig) &&
        decide (bad s e.1.toNat e.2.1.toNat = 0))).length
      (¬ runs 5 → exec (.phase5End fails) s = .next s.close) ∧
      (runs 5 → (∀ k < 16, ∀ sig, alike k sig ≤ 8) → Gives (.phase5End fails) s (fun t => built out (fun k => k ∈ s.thaw.badClusters) t ∧
        (∀ c < 256, ∀ b, t.bank c b = Bank.reset) ∧ (∀ key, 0x8000000 ≤ key → t.word key = 0 ∧ t.tagOf key = false ∧ t.eccAt key = none) ∧
        (∀ key < 0x8000000, t.word key = s.word key) ∧
        ((∃ k < 16, t.runState k ≠ 4) → ends 5 t ∧ t.on Reg.FRM_STAT_LOCK = s.lockSeen) ∧ ((∀ k < 16, t.runState k = 4) → held 7 t))) ∧
      (∀ k < 16, runs 5 → (∃ sig, 8 < alike k sig) → (∀ j < k, ∀ sig, alike j sig ≤ 8) → Gives (.phase5End fails) s (fun t => held 6 t ∧ told t ∧
        t.get Reg.THAW_STATUS_UNIT = 0x200 + k ∧ t.get Reg.THAW_STATUS_DETAIL = k ∧ t.runState k = s.runState k))) ∧
    (let live := s.thaw.started = true ∧ phase ≤ 5 ∧ hold = false
     (¬ live → exec .phaseTimeout s = .next s.close) ∧
     (live → Gives .phaseTimeout s (fun t => held (if phase = 4 then (if s.thaw.loading = true then 5 else 4) else 1) t ∧ told t)))
/-- R11, R515 to R520, R523, R529, R533, R535, R551: block reset, the lows of the debug line, the debug domain's reset, the
packets that address no memory, and a halt request. -/
def Obligations.ResetAndDebug : Prop :=
  ∀ s : State,
    let domain (off : Nat) : Prop := 0x8000 ≤ off ∧ off < 0x9000 ∧ off ≠ 0x8001 ∨ 0xC0000 ≤ off ∧ 0x1C0 ≤ (off - 0xC0000) % 0x400 ∧ (off - 0xC0000) % 0x400 < 0x1D0
    let discarded (t : State) : Prop := t.dbg.held = none ∧ t.dbg.fuse = s.dbg.fuse ∧ t.dbg.owed = (match s.dbg.held with
      | some (op, none) => s.dbg.owed ++ [op]
      | _ => s.dbg.owed)
    let bits (n w : Nat) : List Bool := (List.range w).map n.testBit
    let answered (a : DbgAnswer) (data : List Bool) (t : State) : Prop := t.dbg.last = some a ∧ t.dbg.slots = (match a with
      | .ok _ _ => [false, false, false, true] ++ data ++ (if data = [] then [] else bits (crc8 data).toNat 8)
      | .wait => [false, true, false, false]
      | .fault n => [false, false, true, false] ++ bits n 4)
    let dropped : Debug := { s.dbg with last := none, slots := [] }
    let silent (t : State) : Prop := s.counted t Reg.DBG_PKTERR_COUNT ∧ t.dbg = dropped ∧ ({ s with dbg := t.dbg }).Frame t [0x8002] []
    let plain (t : State) : Prop := discarded t ∧ ({ s with dbg := t.dbg }).Frame t [0x8000] []
    let lv (v : Nat) : Nat := if v = 3 then 0 else v
    let level := min (lv (s.get Reg.DBG_GRANT_LEVEL)) (lv s.dbg.fuse.toNat)
    let unemulated (t : State) : Prop := t.get Reg.DBG_STAT_EMUL = 0 ∧ (∀ k < 16, t.power k = s.power k) ∧
      (∀ k < 16, (s.get Reg.DBG_STAT_EMUL).testBit k = true → s.power k = 3 →
        (∀ w < 0x40000, t.word (0x2000000 + k * 0x40000 + w) = 0) ∧ ∀ c, c / 16 = k → t.cell c = Cell.reset) ∧
      (s.get Reg.DBG_STAT_EMUL = 0 → t.mem = s.mem ∧ t.cells = s.cells)
    (∀ cause : ResetCause, Gives (.blockReset cause) s (fun t =>
      (s.dbg.late = [] → ∀ off, off ≠ 0x8000 → t.reg off = if 0x8000 ≤ off ∧ off < 0x9000 ∧ off ≠ 0x8001 ∨
        0xC0000 ≤ off ∧ 0x1C0 ≤ (off - 0xC0000) % 0x400 ∧ (off - 0xC0000) % 0x400 < 0x1D0 then s.reg off else resetWord off) ∧
      (∀ (off : Nat) (v : Word) (row : RegRow), s.dbg.late = [(off, v)] → 0xC0000 ≤ off → 0x1C0 ≤ (off - 0xC0000) % 0x400 →
        (off - 0xC0000) % 0x400 < 0x1CC → regRow off = some row →
        let f (n : Nat) : Word := BitVec.ofNat 36 n
        t.reg off = (((s.reg off &&& ~~~ f row.rw) ||| (v &&& f row.rw)) &&& ~~~ (v &&& f row.w1c)) ||| (v &&& f row.w1s)) ∧
      (s.dbg.late = [] → t.get Reg.DBG_STAT_EMUL = 0 ∧
        (cause = .powerGood → t.on Reg.DBG_STAT_ATT = s.on Reg.DBG_STAT_ATT ∧ t.get Reg.DBG_STAT_RATE = s.get Reg.DBG_STAT_RATE) ∧
        (cause = .drst → t.on Reg.DBG_STAT_ATT = false ∧ t.get Reg.DBG_STAT_RATE = 0)) ∧
      (cause = .powerGood → t.dbg = { s.dbg with powered := false, late := [] }) ∧
      (cause = .drst → t.dbg = { dropped with late := [] }) ∧
      { t with ctl := s.ctl, dbg := s.dbg } = { State.reset with
        ctl := s.ctl, dbg := s.dbg, pending := s.pending, fresh := s.fresh,
        frm := { FrameClock.reset with lockPin := s.frm.lockPin, ppsOk := s.frm.ppsOk },
        firn := { Firn.reset with pfOk := s.firn.pfOk, pfWarn := s.firn.pfWarn } })) ∧
    Gives .ignoredLow s (fun t => t.on Reg.DBG_STAT_ATT = false ∧ t.get Reg.DBG_STAT_RATE = 0 ∧ t.dbg = dropped ∧ unemulated t ∧
      (s.get Reg.DBG_STAT_EMUL = 0 → ({ s with dbg := t.dbg }).Frame t [0x8000] [])) ∧
    Gives .packetTimeout s silent ∧
    (∀ fuse : BitVec 2, s.get Reg.DBG_STAT_EMUL = 0 → Gives (.debugDomainReset fuse) s (fun t =>
      t.dbg = { Debug.reset with fuse := fuse, powered := s.dbg.powered } ∧
      (∀ off, (domain off → t.reg off = resetWord off) ∧ (¬ domain off → t.reg off = s.reg off)) ∧
      (∀ c < 256, t.cell c = { s.cell c with step := false, skipBrk := false }) ∧
      { t with ctl := s.ctl, cells := s.cells, dbg := s.dbg } = s)) ∧
    (∀ (crc : BitVec 8) (code : BitVec 2) (op : BitVec 4) (args : List Bool),
      (crc ≠ crc8 (bits 0 4) → Gives (.status crc) s silent) ∧ (crc ≠ crc8 (bits 1 4 ++ bits code.toNat 2) → Gives (.rate code crc) s silent) ∧
      (crc ≠ crc8 (bits 2 4 ++ [true]) → Gives (.attach crc) s silent) ∧ (crc ≠ crc8 (bits 2 4 ++ [false]) → Gives (.detach crc) s silent) ∧
      (crc ≠ crc8 (bits op.toNat 4 ++ args) → Gives (.dbgIllegalOp op args crc) s silent)) ∧
    Gives (.status (crc8 (bits 0 4))) s (fun t => plain t ∧ t.reg 0x8000 = s.reg 0x8000 ∧ ∃ w : Word, answered (.ok w false) (bits w.toNat 36) t ∧
      w.extractLsb' 34 2 = BitVec.ofNat 2 level ∧ w.extractLsb' 32 2 = s.dbg.fuse ∧ w.getLsbD 29 = s.on Reg.DBG_STAT_ATT ∧
      w.extractLsb' 20 2 = BitVec.ofNat 2 (s.get Reg.DBG_STAT_RATE) ∧ w.extractLsb' 0 16 = BitVec.ofNat 16 (s.get Reg.DBG_STAT_EMUL) ∧
      (s.dbg.powered = true → w.extractLsb' 30 2 = BitVec.ofNat 2 (s.get Reg.DBG_GRANT_LEVEL) ∧
        w.getLsbD 28 = true ∧ w.getLsbD 27 = !s.thaw.started ∧ w.getLsbD 26 = s.on Reg.THAW_STATUS_HOLD ∧
        w.extractLsb' 22 4 = BitVec.ofNat 4 (s.get Reg.THAW_STATUS_PHASE))) ∧
    (∀ code : BitVec 2,
      let i := Instr.rate code (crc8 (bits 1 4 ++ bits code.toNat 2))
      (code = 3 → Gives i s (fun t => plain t ∧ answered (.fault 2) [] t ∧ t.reg 0x8000 = s.reg 0x8000)) ∧
      (code ≠ 3 → Gives i s (fun t => plain t ∧ answered (.ok 0 false) [] t ∧ t.get Reg.DBG_STAT_RATE = code.toNat ∧
        t.on Reg.DBG_STAT_ATT = s.on Reg.DBG_STAT_ATT))) ∧
    Gives (.attach (crc8 (bits 2 4 ++ [true]))) s (fun t => plain t ∧ answered (.ok 0 false) [] t ∧ t.on Reg.DBG_STAT_ATT = true) ∧
    Gives (.detach (crc8 (bits 2 4 ++ [false]))) s (fun t => discarded t ∧ answered (.ok 0 false) [] t ∧ t.on Reg.DBG_STAT_ATT = false ∧
      t.get Reg.DBG_STAT_RATE = 0 ∧ unemulated t) ∧
    (∀ (op : BitVec 4) (args : List Bool),
      let i := Instr.dbgIllegalOp op args (crc8 (bits op.toNat 4 ++ args))
      let known := args.length = ([0, 2, 1, 50, 86, 123, 20, 57, 8] : List Nat).getD op.toNat 0
      (known → Gives i s (fun t => plain t ∧ t.reg 0x8000 = s.reg 0x8000 ∧
        answered (.fault (if s.on Reg.DBG_STAT_ATT = true then 2 else 8)) [] t)) ∧
      (¬ known → Gives i s silent)) ∧
    (∀ c : CellId, s.shuts (cellBase c.toNat) = false → exec (.halt c) s = .next (if s.runState (clusterOf c.toNat) = 4 then s
      else s.raise (Reg.CELL_DCTL_HALT c.toNat)).close)

/-- R521 to R528, R533, R534: the debug accesses to addresses and to banks: attachment, level, arguments, the access itself,
and the held request. -/
def Obligations.DebugAccesses : Prop :=
  ∀ (s : State) (a : BitVec 50) (v : Word) (d : DWord) (tag : Bool) (c : CellId) (b : BitVec 4) (ix : BitVec 8), s.Calm →
    let lv (v : Nat) : Nat := if v = 3 then 0 else v
    let level := min (lv (s.get Reg.DBG_GRANT_LEVEL)) (lv s.dbg.fuse.toNat)
    let attached := s.on Reg.DBG_STAT_ATT
    let replies (x : DbgAnswer) (data : List Bool) : Debug := { s.dbg with last := some x, slots := x.bits data }
    let answers (x : DbgAnswer) (t : State) : Prop := t.dbg = replies x []
    let shows (w : Word) (g : Bool) (t : State) : Prop := t.dbg = replies (.ok w g) ((List.range 36).map w.getLsbD ++ [g])
    let only (i : Instr) (x : DbgAnswer) : Prop := exec i s = .next ({ s with dbg := replies x [] }).close
    let waits (i : Instr) (op : DbgOp) : Prop := exec i s = .next ({ s with dbg := { replies .wait [] with held := some (op, none) } }).close
    let silent (t : State) : Prop := s.counted t Reg.DBG_PKTERR_COUNT ∧ t.dbg = { s.dbg with last := none, slots := [] } ∧
      ({ s with dbg := t.dbg }).Frame t [0x8002] []
    let bits (n w : Nat) : List Bool := (List.range w).map n.testBit
    let spot (n : Nat) : List Bool := bits n 4 ++ bits c.toNat 8 ++ bits b.toNat 4 ++ bits ix.toNat 8
    let rdphy (x : BitVec 8) : Instr := .rdphy a x
    let wrphy (x : BitVec 8) : Instr := .wrphy a v x
    let wrcap (x : BitVec 8) : Instr := .wrcap a d tag x
    let rdbnk (x : BitVec 8) : Instr := .rdbnk c b ix x
    let wrbnk (x : BitVec 8) : Instr := .wrbnk c b ix v tag x
    let crcA := crc8 (bits 3 4 ++ bits a.toNat 50)
    let crcB := crc8 (bits 4 4 ++ bits a.toNat 50 ++ bits v.toNat 36)
    let crcC := crc8 (bits 5 4 ++ bits a.toNat 50 ++ bits d.toNat 72 ++ [tag])
    let crcD := crc8 (spot 6)
    let crcE := crc8 (spot 7 ++ bits v.toNat 36 ++ [tag])
    let crcF := crc8 (bits 8 4 ++ bits c.toNat 8)
    let key := s.key a.toNat
    let memory := (∃ k, s.area a.toNat = .store k) ∨ (∃ k, s.area a.toNat = .cluster k)
    let bank := s.bank c.toNat b.toNat
    let listed := ix.toNat ≤ 0x31 ∨ 0x38 ≤ ix.toNat ∧ ix.toNat ≤ 0x40
    let shut := s.runState (clusterOf c.toNat) = 4 ∨ s.unpowered (clusterOf c.toNat) = true ∨
      2 ≤ s.power (clusterOf c.toNat) ∧ (s.get Reg.DBG_STAT_EMUL).testBit (clusterOf c.toNat) = false ∨
      s.running c.toNat = b.toNat ∧ s.dead c.toNat = false ∧ s.runState (clusterOf c.toNat) ≠ 2
    let all : List (Instr × DbgOp × Nat) := [(.rdphy a crcA, .rdphy a.toNat, 1), (.wrphy a v crcB, .wrphy a.toNat v, 2),
      (.wrcap a d tag crcC, .wrcap a.toNat d tag, 2), (.rdbnk c b ix crcD, .rdbnk c.toNat b.toNat ix.toNat, 2),
      (.wrbnk c b ix v tag crcE, .wrbnk c.toNat b.toNat ix.toNat v tag, 2), (.event c crcF, .event c.toNat, 2)]
    (∀ x : BitVec 8, (x ≠ crcA → Gives (rdphy x) s silent) ∧ (x ≠ crcB → Gives (wrphy x) s silent) ∧ (x ≠ crcC → Gives (wrcap x) s silent) ∧
      (x ≠ crcD → Gives (rdbnk x) s silent) ∧ (x ≠ crcE → Gives (wrbnk x) s silent) ∧ (x ≠ crcF → Gives (.event c x) s silent)) ∧
    (∀ e ∈ all,
      (∀ x, s.dbg.held = some (e.2.1, x) → (attached = false → only e.1 (.fault 8)) ∧ (attached = true → x = none → only e.1 .wait) ∧
        ∀ y, attached = true → x = some y →
          exec e.1 s = .next ({ s with dbg := { replies y (e.2.1.data y) with held := none } }).close) ∧
      (∀ op x, s.dbg.held = some (op, x) → op ≠ e.2.1 → attached = false → exec e.1 s = .next ({ s with dbg := { replies (.fault 8) [] with
        held := none, owed := (if x = none then s.dbg.owed ++ [op] else s.dbg.owed) } }).close) ∧
      (s.dbg.held = none → (attached = false → only e.1 (.fault 8)) ∧ (attached = true → s.blockUp = false → only e.1 (.fault 7)) ∧
        (attached = true → s.blockUp = true → level < e.2.2 → only e.1 (.fault 1)))) ∧
    (s.dbg.owed = [] → s.dbg.held = none → exec .debugHeldAccess s = .next s.close) ∧
    (s.dbg.held = none → attached = true → s.blockUp = true → level = 2 →
      (a.toNat % 2 = 1 → only (wrcap crcC) (.fault 2)) ∧
      (10 < b.toNat ∨ ¬ listed → only (rdbnk crcD) (.fault 2) ∧ only (wrbnk crcE) (.fault 2)) ∧
      (s.underTest a.toNat = true → waits (rdphy crcA) (.rdphy a.toNat) ∧ waits (wrphy crcB) (.wrphy a.toNat v)) ∧
      (s.shuts a.toNat = false →
        (fabricBase ≤ a.toNat → only (rdphy crcA) (.fault 3) ∧ only (wrphy crcB) (.fault 3)) ∧
        (a = 0x8001 → only (wrphy crcB) (.fault 6)) ∧ (a = 0x8000 → only (wrcap crcC) (.fault 6)) ∧
        (memory → s.busBusy a.toNat = true → waits (rdphy crcA) (.rdphy a.toNat) ∧ waits (wrphy crcB) (.wrphy a.toNat v)) ∧
        (memory → s.busBusy a.toNat = false → s.mirrorOf key = none →
          (s.eccAt key = none → s.tagA.contains (key - key % 2) = s.tagB.contains (key - key % 2) → Gives (rdphy crcA) s (fun t =>
            shows (s.word key) (s.tagOf key) t ∧ t.mem = s.mem ∧ t.tagA = s.tagA ∧ t.cells = s.cells)) ∧
          Gives (wrphy crcB) s (fun t => answers (.ok 0 false) t ∧ t.word key = v ∧ t.tagOf key = false ∧ ∀ j ≠ key, t.word j = s.word j) ∧
          (a.toNat % 2 = 0 → s.mirrorOf (key + 1) = none → Gives (wrcap crcC) s (fun t => answers (.ok 0 false) t ∧
            t.word key = d.extractLsb' 0 36 ∧ t.word (key + 1) = d.extractLsb' 36 36 ∧ t.tagOf key = tag ∧
            ∀ j, j ≠ key → j ≠ key + 1 → t.word j = s.word j)))) ∧
      (b.toNat ≤ 10 → listed → s.shuts (0x100000 + c.toNat * 0x10000) = false →
        (shut → only (rdbnk crcD) (.fault 5) ∧ only (wrbnk crcE) (.fault 5)) ∧
        (¬ shut → bank.pend ≠ [] → waits (rdbnk crcD) (.rdbnk c.toNat b.toNat ix.toNat) ∧
          waits (wrbnk crcE) (.wrbnk c.toNat b.toNat ix.toNat v tag)) ∧
        (¬ shut → bank.pend = [] →
          let reads (w : Word) (g : Bool) : Prop := Gives (rdbnk crcD) s (fun t => shows w g t ∧ t.cells = s.cells ∧ t.mem = s.mem)
          let writes (k : Bank) : Prop := Gives (wrbnk crcE) s (fun t => answers (.ok 0 false) t ∧ t.bank c.toNat b.toNat = k ∧
            s.onlyBank t c.toNat b.toNat ∧ t.mem = s.mem)
          (ix = 0x18 → reads (bank.pc.setWidth 36) false ∧ writes { bank with pc := v.setWidth 34 }) ∧
          (ix = 0x1B → reads bank.flags false) ∧ (ix = 0x1C → reads bank.rc false ∧ writes { bank with rc := v }) ∧
          (ix = 0x19 → reads (bank.dsp.setWidth 36) false) ∧ (ix = 0x1A → reads (bank.rsp.setWidth 36) false) ∧
          (ix = 0x1D → reads (BitVec.ofNat 36 (bank.p.toNat / 2 * 2 + 1)) false ∧ writes { bank with p := BitVec.ofNat 8 (v.toNat / 2 % 128 * 2 + 1) }) ∧
          (ix = 0x1E → reads (bank.mask.setWidth 36) false ∧ writes { bank with mask := v.setWidth 2 }) ∧
          (ix = 0x1F → reads (bank.dom.setWidth 36) false ∧ Gives (wrbnk crcE) s (fun t => answers (.ok 0 false) t ∧
            t.bank c.toNat b.toNat = { bank with dom := v.setWidth 6 } ∧ (∀ e ≠ b.toNat, t.bank c.toNat e = s.bank c.toNat e) ∧
            { t.cell c.toNat with banks := (s.cell c.toNat).banks } = { s.cell c.toNat with sets := serase b.toNat (s.cell c.toNat).sets } ∧ t.mem = s.mem)) ∧
          (∀ j : Fin 4, ix.toNat = 0x20 + j.val → reads (bank.a[j].setWidth 36) false) ∧
          (∀ j : Fin 4, (ix.toNat = 0x24 + 2 * j.val → reads bank.c[j].lo bank.c[j].tag) ∧ (ix.toNat = 0x25 + 2 * j.val → reads bank.c[j].hi bank.c[j].tag)) ∧
          (ix = 0x2C → reads (bank.acc0.setWidth 36) false) ∧ (ix = 0x30 → reads (bank.acc1.extractLsb' 36 36) false) ∧
          (∀ i < 16, ix.toNat = i → (bank.depth ≤ i → Gives (rdbnk crcD) s (fun t => answers (.fault 6) t ∧ t.cells = s.cells)) ∧
            (i < bank.depth → i < bank.dw → findMark bank.dmark (bank.slot i) = none → bank.shadow = [] → reads (bank.dget (bank.slot i)) false ∧
              writes ({ bank with dmark := bank.dmark.filter (fun m => decide (m.slot ≠ bank.slot i)) }.dset (bank.slot i) v))) ∧
          (ix = 0x40 → Gives (wrbnk crcE) s (fun t => answers (.fault 6) t ∧ t.cells = s.cells)))) ∧
      (s.shuts (0x100000 + c.toNat * 0x10000) = false → s.runState (clusterOf c.toNat) ≠ 4 → Gives (.event c crcF) s (fun t => answers (.ok 0 false) t ∧
        t.on (Reg.CELL_DCTL_HALT c.toNat) = true ∧ ({ s with dbg := t.dbg }).Frame t [0xC0000 + c.toNat * 0x400 + 0x1C0] []))) ∧
    (s.dbg.held = some (.wrphy a.toNat v, none) → s.dbg.owed = [] → s.blockUp = true → s.shuts a.toNat = false → memory → s.busBusy a.toNat = false → s.mirrorOf key = none →
      Gives .debugHeldAccess s (fun t => t.dbg = { s.dbg with held := some (.wrphy a.toNat v, some (.ok 0 false)) } ∧ t.word key = v ∧
        ∀ j ≠ key, t.word j = s.word j))
/-- R25, R26, R363, R364, R366, R368, R482, R493, R533, R547 to R551: a cluster's run control, warm resets, and its power states. -/
def Obligations.RunAndPower : Prop :=
  ∀ (k : ClusterId) (s : State), s.Calm → s.Settled → s.shuts (cluBase k.toNat) = false →
    let run := s.runState k.toNat
    let power := s.power k.toNat
    let cells := (List.range 16).map (fun i => 16 * k.toNat + i)
    let mine (c : Nat) : Prop := c / 16 = k.toNat
    let empty := ∀ c ∈ cells, (s.cell c).sb = [] ∧ (s.cell c).loads = [] ∧ (s.cell c).hold = false ∧ (s.cell c).win = false
    let counters := cells.flatMap (fun c => (List.range 8).map (fun n => (Reg.CELL_TIM_COUNT c n).off))
    let stands (t : State) : Prop := ∀ c ∈ cells, ∀ n < 8, let count := s.get (Reg.CELL_TIM_COUNT c n)
      t.get (Reg.CELL_TIM_COUNT c n) ≤ count ∧ (0 < count → 0 < t.get (Reg.CELL_TIM_COUNT c n)) ∧
      (s.on (Reg.CELL_TIM_EN c n) = false ∨ 2 ≤ power → t.get (Reg.CELL_TIM_COUNT c n) = count)
    let emulates := s.on Reg.DBG_STAT_ATT = true ∧ (s.get Reg.THAW_STATUS_PHASE < 6 ∨ s.on Reg.THAW_STATUS_HOLD = true ∨ ∃ i, s.rpr.test = some (k.toNat, i))
    let emulated (t : State) : Prop := (t.get Reg.DBG_STAT_EMUL).testBit k.toNat = true
    let wiped (t : State) : Prop := (∀ w < 0x40000, t.word (0x2000000 + k.toNat * 0x40000 + w) = 0 ∧ t.tagOf (0x2000000 + k.toNat * 0x40000 + w) = false) ∧
      (∀ j ≤ 16, ∀ w < 0x4000, t.word (storeKey k.toNat j w) = 0 ∧ t.tagOf (storeKey k.toNat j w) = false) ∧
      (∀ c, mine c → t.cell c = Cell.reset) ∧ (t.get Reg.LDV_VALID_V).testBit k.toNat = false ∧
      sget MicroStore.empty k.toNat t.ldv.stores = MicroStore.empty
    let valid := (s.get Reg.LDV_VALID_V).testBit k.toNat = true ∧ s.get Reg.THAW_STATUS_PHASE = 6 ∧ s.on Reg.THAW_STATUS_HOLD = false
    (∀ mode : BitVec 2,
      let same := mode.toNat = s.mode k.toNat
      let switched (t : State) : Prop := if same then t.on (Reg.CLU_RUNSTAT_WERR k.toNat) = s.on (Reg.CLU_RUNSTAT_WERR k.toNat) ∧ t.mode k.toNat = s.mode k.toNat
        else if run = 2 then t.mode k.toNat = mode.toNat ∧ ∀ c ∈ cells, (t.cell c).bht = [] ∧ (t.cell c).dcache = [] ∧ (t.cell c).icache = [] ∧ (t.cell c).pq = []
        else t.mode k.toNat = s.mode k.toNat ∧ t.on (Reg.CLU_RUNSTAT_WERR k.toNat) = true
      Gives (.runctlStop k mode) s (fun t => switched t ∧
        (run = 0 ∨ run = 3 → t.runState k.toNat = 1 ∧ k.toNat ∈ t.frm.outRun ∧
          ∀ c ∈ cells, ((s.cell c).hold = true → t.cell c = s.cell c) ∧ ((s.cell c).hold = false → t.cell c = { s.cell c with
            stall := none, got := [], sent := [], seen := [], xlat := [], watch := false, hold := false, micro := none })) ∧
        (run ≠ 0 → run ≠ 3 → t.runState k.toNat = run ∧ t.frm = s.frm)) ∧
      Gives (.runctlStart k mode) s (fun t => switched t ∧
        (run ≠ 2 → t.runState k.toNat = run ∧ t.cells = s.cells) ∧
        (run = 2 → ¬ valid ∨ mode = 3 → t.runState k.toNat = 2 ∧ t.on (Reg.CLU_RUNSTAT_SERR k.toNat) = true) ∧
        (run = 2 → valid → mode ≠ 3 → t.runState k.toNat = 3 ∧ t.get (Reg.RPR_CLK_CUR k.toNat) = s.get (Reg.RPR_CLK_START k.toNat) ∧
          t.get (Reg.RPR_CLK_DCNT k.toNat) = 0 ∧ ∀ c ∈ cells, t.running c = 15 ∧ (t.cell c).staging = none ∧ (t.cell c).entF = false ∧
            (t.cell c).sb = (s.cell c).sb ∧
            (t.cell c).cold = (if s.running c = 9 ∧ s.get (Reg.CELL_FCAUSE_CODE c) = 0 then s.get (Reg.CELL_FCAUSE_INFO c) else (s.cell c).cold) ∧
            (∀ b < 11, (t.bank c b).link = Link.empty) ∧
            ∀ n < 8, t.on (Reg.CELL_ENTRY1_BUSY c n) = false ∧ t.reg (Reg.CELL_LEV_SAT c n).off = 0 ∧ t.on (Reg.CELL_LSTAT_TPEND c n) = false ∧
              (s.lvEn c n = true → t.lvState c n = 3 ∧ t.curTask c n = 0 ∧ ∀ j < 16, t.task c n j = 0) ∧
              (s.lvEn c n = false → t.lvState c n = s.lvState c n)))) ∧
    (run = 1 → empty → Gives (.stoppedReached k) s (fun t => t.runState k.toNat = 2 ∧ stands t ∧
      ({ s with fresh := t.fresh }).Frame t ((Reg.CLU_RUNSTAT_STATE k.toNat).off :: counters) [])) ∧
    (run ≠ 1 ∨ ¬ empty → exec (.stoppedReached k) s = .next s.close) ∧
    (∀ c : CellId, clusterOf c.toNat = k.toNat → s.shuts (cellBase c.toNat) = false →
      let seed (i b : Nat) : Cap := ⟨s.reg (cellBase c.toNat + 0xC0 + 8 * b + 2 * i), s.reg (cellBase c.toNat + 0xC1 + 8 * b + 2 * i),
        (s.reg (cellBase c.toNat + 0xD8)).getLsbD (4 * b + i)⟩
      let taken := run ≠ 4 ∧ (power = 3 → (s.get Reg.DBG_STAT_EMUL).testBit k.toNat = true)
      (¬ taken → exec (.wrst (.cell c)) s = .next s.close) ∧
      (taken → (s.cell c.toNat).sb ≠ [] → exec (.wrst (.cell c)) s =
        .next ((s.put ⟨cluBase k.toNat + 0x30, s.slotOf c.toNat, 1⟩ 0).modCell c.toNat (fun x => { x with resetDue := true })).close) ∧
      (taken → (s.cell c.toNat).sb = [] → s.slotOf c.toNat ≤ 16 →
        (s.live c.toNat = false → Gives (.wrst (.cell c)) s (fun t => (t.cell c.toNat).cold = 2 ∧ t.locked c.toNat = false ∧ t.failed c.toNat = false ∧
          s.physOf c.toNat ∉ t.pins)) ∧
        (s.live c.toNat = true → Gives (.wrst (.cell c)) s (fun t => t.running c.toNat = 9 ∧ t.locked c.toNat = false ∧ t.failed c.toNat = false ∧
          s.physOf c.toNat ∉ t.pins ∧ (t.cell c.toNat).entF = true ∧ (t.cell c.toNat).held = [] ∧ (t.cell c.toNat).cold = 0 ∧
          t.get (Reg.CELL_FCAUSE_CODE c.toNat) = 0 ∧ t.get (Reg.CELL_FCAUSE_INFO c.toNat) = 2 ∧
          (∀ e ∈ [(9, 0), (8, 1), (10, 2)], (t.bank c.toNat e.1).pc = 0 ∧ (t.bank c.toNat e.1).c = #v[seed 0 e.2, seed 1 e.2, seed 2 e.2, seed 3 e.2] ∧
            (t.bank c.toNat e.1).dsp = BitVec.ofNat 32 (seed 3 e.2).top ∧ (t.bank c.toNat e.1).rsp = BitVec.ofNat 32 (seed 3 e.2).base ∧
            (t.bank c.toNat e.1).dw = 0 ∧ (t.bank c.toNat e.1).rw = 0) ∧ ∀ n < 8, t.bank c.toNat n = Bank.reset)))) ∧
    (run = 2 → empty → Gives (.wrst (.cluster k)) s (fun t => (∀ c ∈ cells, (t.cell c).cold = 2 ∧ t.locked c = false) ∧
      (s.get Reg.LDV_STAT_STATE = 3 → s.ldv.target.testBit k.toNat = true →
        (t.get Reg.LDV_VALID_V).testBit k.toNat = false ∧ t.ldv.target.testBit k.toNat = false))) ∧
    (∀ doze : Bool,
      Gives (.retainRequest k doze) s (fun t => t.on (Reg.CLU_PWRCTL_DOZEEN k.toNat) = doze ∧ t.get (Reg.CLU_PWRCTL_REQ k.toNat) = 1 ∧
        t.pwr = (if power ≤ 1 then { s.pwr with retainDue := setInsert k.toNat s.pwr.retainDue } else s.pwr) ∧ t.power k.toNat = power ∧
        ({ s with pwr := t.pwr }).Frame t [cluBase k.toNat + 0x12] []) ∧
      (run ≠ 2 → run ≠ 4 → Gives (.offRequest k doze) s (fun t => t.on (Reg.CLU_PWRCTL_DOZEEN k.toNat) = doze ∧
        t.get (Reg.CLU_PWRCTL_REQ k.toNat) = s.get (Reg.CLU_PWRCTL_REQ k.toNat) ∧ t.on (Reg.CLU_PWRSTAT_PERR k.toNat) = true ∧ t.power k.toNat = power ∧
        s.Frame t [cluBase k.toNat + 0x12, cluBase k.toNat + 0x13] [])) ∧
      (run = 2 ∨ run = 4 → power < 3 → ¬ empty → Gives (.offRequest k doze) s (fun t => t.on (Reg.CLU_PWRCTL_DOZEEN k.toNat) = doze ∧
        t.get (Reg.CLU_PWRCTL_REQ k.toNat) = 2 ∧ t.power k.toNat = power ∧ t.pwr = { s.pwr with
          offDue := [k.toNat], upDue := setErase k.toNat s.pwr.upDue, retainDue := setErase k.toNat s.pwr.retainDue } ∧
        ({ s with pwr := t.pwr }).Frame t [cluBase k.toNat + 0x12] [])) ∧
      (run = 2 ∨ run = 4 → power = 3 → Gives (.offRequest k doze) s (fun t => t.on (Reg.CLU_PWRCTL_DOZEEN k.toNat) = doze ∧
        t.get (Reg.CLU_PWRCTL_REQ k.toNat) = 2 ∧ t.power k.toNat = 3 ∧
        t.pwr = { s.pwr with upDue := setErase k.toNat s.pwr.upDue, retainDue := setErase k.toNat s.pwr.retainDue })) ∧
      (run = 2 ∨ run = 4 → power < 3 → empty → Gives (.offRequest k doze) s (fun t => t.on (Reg.CLU_PWRCTL_DOZEEN k.toNat) = doze ∧
        t.get (Reg.CLU_PWRCTL_REQ k.toNat) = 2 ∧ t.power k.toNat = 3 ∧ t.runState k.toNat = run ∧
        t.reg (cluBase k.toNat + 0x31) = s.reg (cluBase k.toNat + 0x31) ∧
        (emulates → emulated t ∧ t.mem = s.mem) ∧ (¬ emulates → wiped t)))) ∧
    Gives (.wake k) s (fun t => t.get (Reg.CLU_PWRCTL_REQ k.toNat) = 0 ∧
      t.power k.toNat = (if power = 2 then 0 else power) ∧ (power = 2 → (t.get Reg.DBG_STAT_EMUL).testBit k.toNat = false) ∧
      t.pwr = { s.pwr with
        retainDue := setErase k.toNat s.pwr.retainDue,
        woken := if power = 2 then setInsert k.toNat s.pwr.woken else s.pwr.woken,
        upDue := if power = 3 then setInsert k.toNat s.pwr.upDue else s.pwr.upDue }) ∧
    (k.toNat ∈ s.pwr.retainDue → empty → s.wakes k.toNat = true → Gives (.retainEntry k) s (fun t => t.power k.toNat = 0 ∧
      t.get (Reg.CLU_PWRCTL_REQ k.toNat) = 0 ∧ t.pwr = { s.pwr with retainDue := setErase k.toNat s.pwr.retainDue, woken := setInsert k.toNat s.pwr.woken } ∧
      t.mem = s.mem ∧ t.cells = s.cells)) ∧
    (k.toNat ∈ s.pwr.retainDue → empty → s.wakes k.toNat = false → Gives (.retainEntry k) s (fun t => t.power k.toNat = 2 ∧ t.reg (cluBase k.toNat + 0x14) = 0 ∧
      t.pwr = { s.pwr with retainDue := setErase k.toNat s.pwr.retainDue } ∧ t.mem = s.mem ∧ t.cells = s.cells ∧ stands t ∧
      (emulates → emulated t) ∧ (¬ emulates → t.get Reg.DBG_STAT_EMUL = s.get Reg.DBG_STAT_EMUL))) ∧
    (k.toNat ∉ s.pwr.retainDue ∨ ¬ empty → exec (.retainEntry k) s = .next s.close) ∧
    (k.toNat ∈ s.pwr.upDue → Gives (.clusterPowerUp k) s (fun t => t.power k.toNat = 0 ∧ t.runState k.toNat = (if run = 4 then 4 else 2) ∧ wiped t ∧
      t.reg (cluBase k.toNat + 0x31) = s.reg (cluBase k.toNat + 0x31) ∧
      t.pwr = { s.pwr with upDue := setErase k.toNat s.pwr.upDue } ∧ (t.get Reg.DBG_STAT_EMUL).testBit k.toNat = false ∧
      ∀ c, mine c → t.slotOf c = s.slotOf c)) ∧
    (k.toNat ∉ s.pwr.upDue → exec (.clusterPowerUp k) s = .next s.close) ∧
    (let idle := power = 0 ∧ s.on (Reg.CLU_PWRCTL_DOZEEN k.toNat) = true ∧ empty ∧ ∀ c ∈ cells, s.running c = 15 ∨ s.dead c = true
     (idle → exec (.dozeEntry k) s = .next (s.put (Reg.CLU_PWRSTAT_STATE k.toNat) 1).close) ∧ (¬ idle → exec (.dozeEntry k) s = .next s.close))
/-- R353, R355 to R357, R359, R360, R362: EDITSWAP with its checks and its cost, the cancel and the timeout of an edit; R369
to R371, R374 to R380: the roles of the standby port, the lines made dirty, and the records of a stream received. -/
def Obligations.EditAndStandby : Prop :=
  (∀ (c : CellId) (levels : BitVec 8) (s : State), s.shuts (cellBase c.toNat) = false → s.runState (clusterOf c.toNat) = 4 ∨
    s.power (clusterOf c.toNat) = 3 ∧ (s.get Reg.DBG_STAT_EMUL).testBit (clusterOf c.toNat) = false →
    exec (.editswap c levels) s = .next s.close ∧ exec (.editCancel c levels) s = .next s.close) ∧
  (∀ (c : CellId) (levels : BitVec 8) (s : State), s.Calm → s.shuts (cellBase c.toNat) = false → s.runState (clusterOf c.toNat) ≠ 4 →
    (s.power (clusterOf c.toNat) = 3 → (s.get Reg.DBG_STAT_EMUL).testBit (clusterOf c.toNat) = true) →
    let x := c.toNat
    let st := s.get (Reg.EDIT_STAT_STATE x)
    let u := s.put (Reg.EDIT_CTRL_LEVELS x) levels.toNat
    let pair := decide (s.mode (clusterOf x) = 2)
    let cells := if pair then [x, if x % 2 = 0 then x + 1 else x - 1] else [x]
    let words := (cells.map (fun y => [cellBase y + 0x181, cellBase y + 0x187])).flatten ++ [cellBase x + 0x180]
    let w (i j : Nat) : Nat := (s.word (storeKey (clusterOf x) (s.slotOf x) (4 * (s.get (Reg.EDIT_MAP_BASE x) + i) + j))).toNat
    let op (i : Nat) : Nat := w i 0 / 2 ^ 32
    let level (i : Nat) : Nat := w i 0 / 2 ^ 29 % 8
    let count (i : Nat) : Nat := w i 0 % 2 ^ 16
    let clean (i : Nat) : Prop := w i 0 / 2 ^ 16 % 2 ^ 9 = 0 ∧ w i 1 < 2 ^ 32 ∧ w i 2 < 2 ^ 32 ∧ 4 * (s.get (Reg.EDIT_MAP_BASE x) + i) + 3 < 0x4000
    let legal (i : Nat) : Prop := clean i ∧ 1 ≤ op i ∧ op i ≤ 5 ∧ (op i = 1 ∨ op i = 2 → count i ≠ 0) ∧ levels.getLsbD (level i) = true
    let map (n : Nat) : Prop := n < 256 ∧ (∀ i < n, legal i) ∧ op n = 0 ∧ clean n
    let price (y dom va : Nat) : Option Nat := match s.translate y dom va with
      | none => none
      | some p => match s.area p.pa with
        | .store key => if storeKey (clusterOf y) (s.slotOf y) 0 ≤ key ∧ key < storeKey (clusterOf y) (s.slotOf y) 0x4000 then some 1 else none
        | .cluster k => if k = clusterOf y then some 24 else none
        | _ => none
    let old (y i : Nat) : Nat := (s.bank y (level i)).dom.toNat
    let new (n y i : Nat) : Nat := (((List.range n).filter (fun j => decide (op j = 3 ∧ level j = level i))).getLast?.map (fun j => w j 3 % 64)).getD (old y i)
    let uses (n y i : Nat) : List (Option Nat) := match op i with
      | 1 => (List.range (count i)).map (fun a => price y (old y i) (w i 1 + a)) ++ (List.range (count i)).map (fun a => price y (new n y i) (w i 2 + a))
      | 2 => (List.range (count i)).map (fun a => price y (new n y i) (w i 2 + a))
      | 4 => [price y (new n y i) (w i 3 / 4 % 2 ^ 32)]
      | 5 => [price y (new n y i) (w i 1 - w i 1 % 2), price y (new n y i) (w i 1 - w i 1 % 2 + 1)]
      | _ => []
    let charge (n y i : Nat) : Nat := match op i with
      | 3 => 64
      | 4 => 2
      | 5 => 4
      | _ => ((uses n y i).map (fun v => v.getD 0)).sum
    let cost (n : Nat) : Nat := (cells.map (fun y => 16 + ((List.range n).map (charge n y)).sum)).foldl max 0
    let reached (n : Nat) : Prop := ∀ y ∈ cells, ∀ i < n, none ∉ uses n y i
    let refused (cause : Nat) (t : State) : Prop := (∀ y ∈ cells, (y = x ∨ x % 2 = 0 → t.get (Reg.EDIT_STAT_STATE y) = 5 ∧
        t.get (Reg.EDIT_STAT_CAUSE y) = cause) ∧ (y ≠ x → x % 2 = 1 → t.get (Reg.EDIT_STAT_STATE y) = s.get (Reg.EDIT_STAT_STATE y))) ∧
      t.get (Reg.EDIT_CTRL_LEVELS x) = levels.toNat ∧ s.Frame t words []
    let bad := levels = 0 ∨ ∃ y ∈ cells, ∃ n < 8, levels.getLsbD n = true ∧ s.lvEn y n = false
    (st = 1 → exec (.editswap c levels) s = .next s.close) ∧
    (st = 2 → exec (.editswap c levels) s = .next u.close) ∧
    (st ≠ 1 → st ≠ 2 → (∀ o < 0x4000, s.eccAt (storeKey (clusterOf x) (s.slotOf x) o) = none) →
      ((¬ ∃ n, map n) → Gives (.editswap c levels) s (refused 1)) ∧
      (∀ n, map n →
        (¬ reached n → Gives (.editswap c levels) s (refused 2)) ∧
        (reached n → s.get (Reg.EDIT_WINDOW_CYC x) < cost n → Gives (.editswap c levels) s (refused 3)) ∧
        (reached n → cost n ≤ s.get (Reg.EDIT_WINDOW_CYC x) →
          (pair = true ∧ x % 2 = 1 → Gives (.editswap c levels) s (refused 8)) ∧
          (¬ (pair = true ∧ x % 2 = 1) → bad → Gives (.editswap c levels) s (refused 9)) ∧
          (¬ (pair = true ∧ x % 2 = 1) → ¬ bad → Gives (.editswap c levels) s (fun t =>
            (∀ y ∈ cells, t.get (Reg.EDIT_STAT_STATE y) = 1 ∧ t.get (Reg.EDIT_STAT_CAUSE y) = 0 ∧ t.get (Reg.EDIT_STAT_WAITED y) = 0) ∧
            t.get (Reg.EDIT_COST_CYC x) = cost n ∧ t.get (Reg.EDIT_CTRL_LEVELS x) = levels.toNat ∧ s.Frame t words []))))) ∧
    (st ≠ 1 → exec (.editCancel c levels) s = .next u.close) ∧
    (let ended (cause : Nat) (t : State) : Prop := ∀ y ∈ cells, t.get (Reg.EDIT_STAT_STATE y) = 4 ∧ t.get (Reg.EDIT_STAT_CAUSE y) = cause ∧
        t.get (Reg.EDIT_STAT_WAITED y) = s.get (Reg.EDIT_STAT_WAITED y)
     let own := if pair && x % 2 == 1 then x - 1 else x
     let due := s.get (Reg.EDIT_STAT_STATE own) = 1 ∧ max 1 (s.get (Reg.EDIT_TIMEOUT_FRAMES own)) ≤ s.get (Reg.EDIT_STAT_WAITED own)
     (st = 1 → Gives (.editCancel c levels) s (fun t => ended 5 t ∧ s.Frame t words [] ∧
       t.get (Reg.EDIT_CTRL_LEVELS x) = s.get (Reg.EDIT_CTRL_LEVELS x))) ∧
     (¬ due → exec (.editTimeout c) s = .next s.close) ∧
     (due → s.room (s.physOf own) → Gives (.editTimeout c) s (fun t => ended 4 t ∧
       t.msgs = s.msgs ++ [infoMsg (s.physOf own) 0x40 1 (s.get (Reg.EDIT_TAG_TAG own))])))) ∧
  (∀ (s : State) (pause : Bool), s.Calm → s.shuts 0x9000 = false → s.thawOver = false →
    ∀ i ∈ ([.roleActive pause, .roleStandby pause, .roleOff pause] : List Instr), exec i s = .next (s.putB Reg.STBY_CTRL_PAUSE pause).close) ∧
  (∀ (s : State) (pause : Bool), s.Calm → s.shuts 0x9000 = false → s.thawOver = true →
    let st := s.get Reg.STBY_STAT_STATE
    let refused := s.get Reg.FRM_TPS_TPS = 0 ∨ 1024 < s.get Reg.STBY_MAXL_LINES ∨ s.get Reg.STBY_WINDOW_CYC < 8 * s.get Reg.STBY_MAXL_LINES + 16 ∨
      s.get Reg.STBY_INRANGE_LAST < s.get Reg.STBY_INRANGE_FIRST
    let asked (role : Nat) (t : State) : Prop := t.on Reg.STBY_CTRL_PAUSE = pause ∧ t.get Reg.STBY_CTRL_ROLE = role ∧
      ({ s with stby := t.stby }).Frame t [0x9000, 0x9001] []
    let state (n : Nat) (err : Bool) (t : State) : Prop := t.get Reg.STBY_STAT_STATE = n ∧ t.on Reg.STBY_STAT_CFGERR = err
    let fresh (t : State) : Prop := t.stby = { s.stby with rx := StreamRx.empty, whole := false, takeDue := false } ∧ t.get Reg.STBY_STAT_MISS = 0
    let kept := s.on Reg.STBY_STAT_CFGERR
    (st = 1 → Gives (.roleActive pause) s (fun t => asked 1 t ∧ state 1 kept t ∧ t.stby = s.stby)) ∧
    (st = 3 → Gives (.roleActive pause) s (fun t => asked 1 t ∧ state 3 kept t ∧ t.stby = { s.stby with takeDue := true })) ∧
    (st ≠ 1 → st ≠ 3 → Gives (.roleActive pause) s (fun t => asked 1 t ∧ fresh t ∧
      (refused → state 0 true t) ∧ (¬ refused → state 1 kept t))) ∧
    (2 ≤ st → st ≤ 4 → Gives (.roleStandby pause) s (fun t => asked 2 t ∧ state st kept t ∧ t.stby = { s.stby with takeDue := false })) ∧
    (st < 2 ∨ 4 < st → (∀ n < 8, ∀ b < 64, s.on (reqFld n b) = false) → Gives (.roleStandby pause) s (fun t => asked 2 t ∧ fresh t ∧
      (refused → state 0 true t) ∧ (¬ refused → state 2 kept t))) ∧
    (st < 2 ∨ 4 < st → ¬ refused → Gives (.roleStandby pause) s (fun t => fresh t ∧ state 2 kept t ∧ ∀ n < 8, ∀ b < 64,
      s.isTx n b = true → s.on (reqFld n b) = true → s.wlen n b = 0 → s.bufOn n b 0 33 = false →
        (((s.port n).tx.map (·.buf)) ≠ some b → t.on (reqFld n b) = false ∧ t.get (txstFld n b) = 5) ∧
        (((s.port n).tx.map (·.buf)) = some b → t.on (reqFld n b) = true ∧ t.get (txstFld n b) = s.get (txstFld n b) ∧
          (t.port n).tx = (s.port n).tx.map (fun x => { x with again := false })))) ∧
    Gives (.roleOff pause) s (fun t => asked 0 t ∧ state 0 false t ∧ fresh t) ∧
    (st ≠ 1 → exec .stbySync s = .next s.close) ∧
    (st = 1 → Gives .stbySync s (fun t => ({ s with stby := t.stby }).Frame t [] [] ∧
      ({ t.stby with dirty := s.stby.dirty } : Standby) = s.stby ∧
      ∀ l, l ∈ t.stby.dirty ↔ l ∈ s.stby.dirty ∨ ∃ e ∈ s.installed, e.2.ret = true ∧ e.2.size ≠ 0 ∧
        (0x100000 ≤ e.2.pbase ∧ e.2.pbase < 0x1100000 ∨ 0x2000000 ≤ e.2.pbase ∧ e.2.pbase < 0x2400000) ∧
        e.2.pbase / 16 ≤ l ∧ l ≤ (e.2.pbase + 64 * e.2.size - 1) / 16))) ∧
  (∀ (s : State) (n : DWord) (first : BitVec 17) (ws : List Word) (line : BitVec 22) (c : CellId) (tag : Word) (pause incomplete agrees synced err : Bool)
      (count : Word) (crc : BitVec 32),
    let st := s.get Reg.STBY_STAT_STATE
    let follows := 2 ≤ st ∧ st ≤ 4
    let rx := s.stby.rx
    let admits := rx.frame ≠ none ∧ rx.good = false ∧ rx.bad = false
    let word (kind low : Nat) : Word := BitVec.ofNat 36 (kind * 2 ^ 32 + low)
    let takes (t : State) (r : StreamRx) : Prop := t.stby = { s.stby with rx := r }
    let spoils (i : Instr) : Prop := Gives i s (fun t => takes t { rx with bad := true } ∧ ({ s with stby := t.stby }).Frame t [] [])
    (¬ follows → ∀ i ∈ ([.frameRecord n agrees err, .inputRecord first ws err, .lineRecord line ws err, .editRecord c tag err,
        .heartbeat pause incomplete count crc synced err] : List Instr), exec i s = .next s.settle) ∧
    (follows → ∀ i ∈ ([.frameRecord n agrees true, .inputRecord first ws true, .lineRecord line ws true, .editRecord c tag true] : List Instr),
      Gives i s (fun t => takes t { rx with bad := true, lost := true } ∧ ({ s with stby := t.stby }).Frame t [] [])) ∧
    (follows → Gives (.heartbeat pause incomplete count crc synced true) s (fun t => takes t { rx with bad := true, lost := true } ∧
      s.counted t Reg.STBY_CRCERR_COUNT ∧ ({ s with stby := t.stby }).Frame t [0x900B] [])) ∧
    (follows →
      (rx.frame ≠ none → spoils (.frameRecord n agrees false)) ∧
      (rx.frame = none → s.room 0x40E → Gives (.frameRecord n agrees false) s (fun t =>
        takes t { rx with frame := some n.toNat, words := [word 1 0, n.setWidth 36, n.extractLsb' 36 36] } ∧
        (n = s.frame → agrees = true → t.get Reg.STBY_STAT_STATE = st ∧ t.on Reg.STBY_STAT_FRMIS = s.on Reg.STBY_STAT_FRMIS ∧ t.msgs = s.msgs) ∧
        (n ≠ s.frame ∨ agrees = false → t.get Reg.STBY_STAT_STATE = 5 ∧ t.on Reg.STBY_STAT_FRMIS = true ∧ t.msgs = s.msgs ++ [infoMsg 0x40E 0x42 2 2]))) ∧
      (let fits := admits ∧ rx.inputs = false ∧ rx.lines = [] ∧ rx.edits = []
       (¬ fits → spoils (.inputRecord first ws false)) ∧
       (fits → Gives (.inputRecord first ws false) s (fun t =>
         takes t { rx with inputs := true, words := rx.words ++ [word 2 first.toNat, BitVec.ofNat 36 ws.length] ++ ws } ∧
         ({ s with stby := t.stby, rime := t.rime }).Frame t [] [] ∧ ({ t.rime with fill := s.rime.fill } : Rime) = s.rime ∧
         ∀ j, t.readFilling j = if s.rimeRun = true ∧ s.inRange j = true ∧ first.toNat ≤ j ∧ j < first.toNat + ws.length
           then normWord (decide (s.inType j = 3)) (ws.getD (j - first.toNat) 0) else s.readFilling j))) ∧
      (let fits := admits ∧ rx.edits = [] ∧ ws.length = 16 ∧ rx.lines.length < 1024
       (¬ fits → spoils (.lineRecord line ws false)) ∧
       (fits → Gives (.lineRecord line ws false) s (fun t => ({ s with stby := t.stby }).Frame t [] [] ∧
         takes t { rx with lines := rx.lines ++ [(line.toNat, ws)], words := rx.words ++ [word 3 line.toNat] ++ ws }))) ∧
      (¬ admits → spoils (.editRecord c tag false)) ∧
      (admits → Gives (.editRecord c tag false) s (fun t => ({ s with stby := t.stby }).Frame t [] [] ∧
        takes t { rx with edits := rx.edits ++ [(c.toNat, tag)], words := rx.words ++ [word 4 c.toNat, tag] })) ∧
      (let checks := rx.lost = false ∧ crc.toNat = crc32c rx.words
       let ordered := admits ∧ count.toNat = rx.lines.length
       (¬ checks ∨ ¬ ordered → Gives (.heartbeat pause incomplete count crc synced false) s (fun t => takes t { rx with bad := true } ∧
         (checks → t.get Reg.STBY_CRCERR_COUNT = s.get Reg.STBY_CRCERR_COUNT) ∧ (¬ checks → s.counted t Reg.STBY_CRCERR_COUNT) ∧
         ({ s with stby := t.stby }).Frame t [0x900B] [])) ∧
       (checks → ordered → Gives (.heartbeat pause incomplete count crc synced false) s (fun t => takes t { rx with good := true } ∧
         t.get Reg.STBY_STAT_MISS = 0 ∧ t.get Reg.STBY_WORDS_COUNT = (rx.words.length + 3) % 2 ^ Reg.STBY_WORDS_COUNT.len ∧ (∀ f, rx.frame = some f → t.get Reg.STBY_LASTF_FRAME = f % 2 ^ 36) ∧
         t.get Reg.STBY_STAT_STATE = (if st = 2 ∧ incomplete = false ∧ synced = true then 3 else if st = 3 ∧ pause = true then 4
           else if st = 4 ∧ pause = false then 3 else st) ∧
         ({ s with stby := t.stby }).Frame t [0x9001, 0x9007, 0x900E] [])))))
/-! ## The whole machine -/

/-- R11, R247, R252, R273, R363, R472, R478: the machine right after a block reset: no command waits, the tables are sound,
every cluster is STOPPED in Deterministic mode and in Run, every cell is idle with a cold entry pending and its own slot,
every slot 16 is the idle spare, the registers have the values of the Reset column, and no memory word, tag, message or queue
entry is held. The values of memory and of the registers to which the spec gives no reset value are the model's (log entry 3).
-/
def Obligations.ResetState : Prop :=
  let r := State.reset
  r.Inv ∧ r.Calm ∧ r.pending = [] ∧ r.msgs = [] ∧ r.pins = [] ∧ r.bells = [] ∧ r.posts = [] ∧ r.installed = [] ∧ r.presented = [] ∧
  r.withdrawn = [] ∧ r.fab.txs = [] ∧ r.thaw.started = false ∧ r.thaw.loading = false ∧
  (∀ key, r.word key = 0 ∧ r.tagOf key = false ∧ r.eccAt key = none) ∧
  (∀ k < 16, r.runState k = 2 ∧ r.mode k = 1 ∧ r.power k = 0 ∧ r.on (Reg.CLU_PWRCTL_DOZEEN k) = true ∧
    r.get (Reg.RPR_SP_SLOT k) = 16 ∧ r.get (Reg.RPR_SP_STATE k) = 0 ∧ r.slotState k 16 = 1 ∧ (∀ slot < 16, r.slotState k slot = 0) ∧
    (r.get Reg.LDV_VALID_V).testBit k = false) ∧
  (∀ c < 256, r.running c = 15 ∧ (r.cell c).cold = 1 ∧ (r.cell c).entF = false ∧ (r.cell c).sb = [] ∧ (r.cell c).loads = [] ∧ (r.cell c).micro = none ∧ (r.cell c).hold = false ∧ r.slotOf c = c % 16 ∧ r.locked c = false ∧
    (∀ b, r.bank c b = Bank.reset) ∧ (r.cell c).bht = [] ∧ (∀ n < 8, r.lvState c n = 0 ∧ r.lvEn c n = false ∧ r.on (Reg.CELL_LCFG_TICK c n) = decide (n = 0)) ∧
    r.get (Reg.EDIT_WINDOW_CYC c) = 4000 ∧ r.get (Reg.EDIT_TIMEOUT_FRAMES c) = 1000 ∧ r.get (Reg.EDIT_STAT_STATE c) = 0) ∧
  (∀ i : Fin 4, Bank.reset.c[i] = ⟨0, 0, false⟩) ∧
  (∀ n < 8, r.on (Reg.BP_STAT_RXONLY n) = true) ∧
  (∀ e ∈ [(Reg.FRM_TPS_TPS, 4800), (Reg.FRM_DEPTH_D, 1), (Reg.FRM_GUARD_NS, 5000), (Reg.FRM_CGUARD_NS, 2000), (Reg.FRM_OVR_LIMIT_LIMIT, 3),
      (Reg.MOR_QUIET_FRAMES, 4800), (Reg.IMG_DEBOUNCE_FRAMES, 3), (Reg.STBY_MAXL_LINES, 1024), (Reg.STBY_CUTOFF_NS, 150000),
      (Reg.STBY_WINDOW_CYC, 8208), (Reg.STBY_MISS_LIMIT_LIMIT, 3), (Reg.STBY_CTRL_ROLE, 0), (Reg.STBY_STAT_STATE, 0),
      (Reg.THAW_STATUS_PHASE, 1), (Reg.FRM_STAT_RUN, 0), (Reg.DBG_GRANT_LEVEL, 0)], r.get e.1 = e.2)

/-- Every step keeps the invariant: the tables of the state stay in their canonical form, so that equal memories and registers
are equal data, no source has more than four messages waiting (R460), at most 64 corrected addresses are kept (R488) and at
most 16 row candidates wait (R489). -/
def Obligations.InvariantKept : Prop := ∀ s t : State, s.Inv → step s = .next t → t.Inv

/-- No command touches the commands that wait (the queue is the model's own: log entry 1); and R381: what closes a command
brings the lines of the sources 1 to 7 to their units' conditions, and, with no migration due, changes nothing but the
distributor's registers, what it presents, and the power of a cluster that a presentation wakes (R394). -/
def Obligations.QueueAndLines : Prop :=
  (∀ (i : Instr) (s t : State), s.Inv → exec i s = .next t → t.pending = s.pending) ∧
  (∀ s : State, s.close.Settled ∧ (s.Calm → s.Frame s.close [] []))
end

