-- ==== Sys2Proof/Laws/Exec.lean ====
section
/-! SUPPORT. Exec.lean: what an instruction that is ready does: the shared path of R97 reduced to the instruction's own effect. -/

namespace Sys2Proof.Machine

open Sys2Proof

theorem State.stackFault_fits {s : State} {c : Nat} {f : Form} (h : s.Fits c f) : s.stackFault c f = .ok () s := by
  obtain ⟨hs, hd, hr, ho, -, -, -, -, -⟩ := h
  unfold State.stackFault
  dsimp only
  split
  · rfl
  · rcases hs with hs | hs
    · contradiction
    · rw [if_neg (by simp [hs]), if_neg (by omega), if_neg (by omega), if_neg (by omega)]

theorem State.fillTo_held {s : State} {c : Nat} {r : Bool} {n m : Nat} (h : n ≤ (s.cur c).occ r) : s.fillTo c r n m = .ok () s := by
  cases m with
  | zero => rfl
  | succ m => rw [State.fillTo, if_neg (by omega)]

theorem State.spillTo_room {s : State} {c : Nat} {r : Bool} {n m : Nat} (h : (s.cur c).occ r ≤ n) : s.spillTo c r n m = .ok () s := by
  cases m with
  | zero => rfl
  | succ m => rw [State.spillTo, if_neg (by omega)]

theorem State.ensure_fits {s : State} {c : Nat} {r : Bool} {n d p : Nat} (h : n ≤ (s.cur c).occ r)
    (h' : (s.cur c).occ r ≤ winSize r + d - p) : s.ensure c r n d p = .ok () s := by
  unfold State.ensure
  rw [State.fillTo_held h]
  exact State.spillTo_room h'

/-- With its operands in the window, an iteration is the instruction's own effect. -/
theorem State.iterate_fits {s : State} {c : Nat} {f : Form} (h : s.Fits c f) (iter : Bool → State → Ex Bool) (last : Bool) :
    s.iterate c f iter last = iter last s := by
  unfold State.iterate
  rw [State.stackFault_fits h]
  dsimp only [Ex.bind]
  rw [State.ensure_fits (r := false) h.held (by simpa [winSize, Bank.occ] using h.room)]
  dsimp only [Ex.bind]
  rw [State.ensure_fits (r := true) h.rheld (by simpa [winSize, Bank.occ] using h.rroom)]
  simp

theorem State.operand_plain {s : State} {c i : Nat} (h : (s.cur c).shadow = []) (h' : (s.cur c).dmark = []) (h'' : (s.cur c).pend = []) :
    s.operand c i = .ok ((s.cur c).dget ((s.cur c).slot i)) s := by
  simp [State.operand, Bank.entry, h, h', h'', findMark, Bank.isPend]

theorem Ex.collect_ok {α β : Type} (l : List α) (f : α → State → Ex β) (g : α → β) (s : State) (h : ∀ a ∈ l, f a s = Ex.ok (g a) s) :
    Ex.collect l f s = Ex.ok (l.map g) s := by
  have key : ∀ (l : List α) (acc : List β), (∀ a ∈ l, f a s = Ex.ok (g a) s) →
      l.foldl (fun x a => x.bind (fun bs s => (f a s).bind (fun b s => Ex.ok (bs ++ [b]) s))) (Ex.ok acc s) = Ex.ok (acc ++ l.map g) s := by
    intro l
    induction l with
    | nil => intro acc _; simp
    | cons a l ih =>
      intro acc h
      have e := ih (acc ++ [g a]) (fun b hb => h b (by simp [hb]))
      rw [List.foldl_cons, Ex.bind, h a (by simp), Ex.bind, e]
      simp
  simpa [Ex.collect] using key l [] h

theorem State.operands_plain {s : State} {c : Nat} (l : List Nat) (h : (s.cur c).shadow = []) (h' : (s.cur c).dmark = [])
    (h'' : (s.cur c).pend = []) :
    s.operands c l = .ok (l.map (fun i => (s.cur c).dget ((s.cur c).slot i))) s :=
  Ex.collect_ok l _ _ s (fun _ _ => State.operand_plain h h' h'')

/-- A computation on plain operands. -/
theorem State.calcStep_ok {s : State} {c : Nat} {ixs : List Nat} {drop : Nat} {g : List Word → Bank → Calc} {last : Bool}
    {push : List Word} {k : Bank} {f : Form} (h : s.Fits c f)
    (hg : g (ixs.map (fun i => (s.cur c).dget ((s.cur c).slot i))) (s.cur c) = .ok push k) :
    State.calcStep c ixs drop g last s = .ok false (s.setCur c ((k.popN drop).pushAll push)) := by
  unfold State.calcStep
  rw [State.operands_plain ixs h.plain.1 h.plain.2.1 h.plain.2.2.2]
  dsimp only [Ex.bind]
  rw [hg]

theorem State.calcStep_flt {s : State} {c : Nat} {ixs : List Nat} {drop : Nat} {g : List Word → Bank → Calc} {last : Bool}
    {code info : Nat} {f : Form} (h : s.Fits c f) (hc : code ≠ 2)
    (hg : g (ixs.map (fun i => (s.cur c).dget ((s.cur c).slot i))) (s.cur c) = .flt code info) :
    State.calcStep c ixs drop g last s = .flt { code := code, info := info } s := by
  unfold State.calcStep
  rw [State.operands_plain ixs h.plain.1 h.plain.2.1 h.plain.2.2.2]
  dsimp only [Ex.bind]
  rw [hg]
  simp [hc]

/-- An instruction that is ready is its repetition and its effect: nothing of R97 stands before it. -/
theorem State.runInstr_ready {s : State} {c : Nat} {x : Enc} {f : Form} {iter : Bool → State → Ex Bool} (h : s.Ready c x f) :
    s.runInstr c x f iter = s.perform c (s.running c) (s.levelOf c) x (s.listedForm c x f) (nextPc (s.cur c) x f.op) iter := by
  obtain ⟨h1, h2, h3, h0, h4, h5, h6, -, h8⟩ := h
  have e : s.effect c x f iter = s.perform c (s.running c) (s.levelOf c) x (s.listedForm c x f) (nextPc (s.cur c) x f.op) iter := by
    simp [State.effect, State.listedForm, h0, h8]
  unfold State.runInstr
  rw [if_neg (by simp [h1])]
  split
  · exact e
  · rw [if_neg (by simp [h2]), h3]
    dsimp only
    unfold State.issue
    dsimp only
    rw [h4, h5]
    dsimp only
    rw [if_neg (by simp [h6])]
    exact e

/-- An instruction that is ready, once or as the iteration of a REP, completes when its effect leaves the bank `k`. -/
theorem State.perform_ok {s : State} {c : Nat} {x : Enc} {f : Form} {iter : Bool → State → Ex Bool} {k : Bank}
    (h7 : x.rept = .once ∨ (x.rept = .rep ∧ (s.cur c).rc ≠ 0)) (hf : s.Fits c f) (hi : ∀ last, iter last s = .ok false (s.setCur c k)) :
    s.perform c (s.running c) (s.levelOf c) x f (nextPc (s.cur c) x f.op) iter = s.after c x f k := by
  unfold State.perform
  rcases h7 with h7 | ⟨h7, h8⟩
  · rw [h7]
    dsimp only
    rw [State.iterate_fits hf, hi]
    simp [State.after, h7]
  · rw [h7]
    dsimp only
    rw [if_neg h8, State.iterate_fits hf, hi]
    simp [State.after, h7]

/-- Its fault is taken where its effect faults at once. -/
theorem State.perform_flt {s : State} {c : Nat} {x : Enc} {f : Form} {n : SylAddr} {iter : Bool → State → Ex Bool} {e : CellFault}
    (h7 : x.rept = .once ∨ (x.rept = .rep ∧ (s.cur c).rc ≠ 0)) (hf : s.Fits c f) (hi : ∀ last, iter last s = .flt e s) :
    s.perform c (s.running c) (s.levelOf c) x f n iter = s.faultAt c (s.levelOf c) f.cyc e := by
  unfold State.perform
  rcases h7 with h7 | ⟨h7, h8⟩
  · rw [h7]
    dsimp only
    rw [State.iterate_fits hf, hi]
  · rw [h7]
    dsimp only
    rw [if_neg h8, State.iterate_fits hf, hi]

/-- An instruction that is ready runs its effect: it completes, or its fault is taken. -/
theorem State.runInstr_ok {s : State} {c : Nat} {x : Enc} {f : Form} {iter : Bool → State → Ex Bool} {k : Bank}
    (h : s.Ready c x f) (hb : f.branch = false) (hf : s.Fits c f) (hi : ∀ last, iter last s = .ok false (s.setCur c k)) :
    s.runInstr c x f iter = s.after c x f k := by
  have e : s.listedForm c x f = f := by simp [State.listedForm, hb]
  rw [State.runInstr_ready h, e, State.perform_ok h.counted hf hi]

theorem State.runInstr_flt {s : State} {c : Nat} {x : Enc} {f : Form} {iter : Bool → State → Ex Bool} {e : CellFault}
    (h : s.Ready c x f) (hb : f.branch = false) (hf : s.Fits c f) (hi : ∀ last, iter last s = .flt e s) :
    s.runInstr c x f iter = s.faultAt c (s.levelOf c) f.cyc e := by
  have e' : s.listedForm c x f = f := by simp [State.listedForm, hb]
  rw [State.runInstr_ready h, e', State.perform_flt h.counted hf hi]

/-- Where the image is Onaed's, the dispatch index is of no account (R216). -/
theorem State.decode_listed {s : State} {c n : Nat} (h : s.asListed c = true) : s.decode c n = s := by simp [State.decode, h]

/-- A computation on popped entries that succeeds. -/
theorem State.calc_ok {s : State} {c : Nat} {x : Enc} {f : Form} {g : List Word → Bank → Calc} {push : List Word} {k : Bank}
    (h : s.Ready c x f) (hb : f.branch = false) (hf : s.Fits c f) (hg : g (s.top c f.pops) (s.cur c) = .ok push k) :
    s.calc c x f g = s.after c x f ((k.popN f.pops).pushAll push) :=
  State.runInstr_ok h hb hf (fun _ => State.calcStep_ok hf hg)

/-- A computation on popped entries that faults. -/
theorem State.calc_flt {s : State} {c : Nat} {x : Enc} {f : Form} {g : List Word → Bank → Calc} {code info : Nat}
    (h : s.Ready c x f) (hb : f.branch = false) (hf : s.Fits c f) (hc : code ≠ 2) (hg : g (s.top c f.pops) (s.cur c) = .flt code info) :
    s.calc c x f g = s.faultAt c (s.levelOf c) f.cyc { code := code, info := info } :=
  State.runInstr_flt h hb hf (fun _ => State.calcStep_flt hf hc hg)

end Sys2Proof.Machine
end

