-- ==== Sys2Proof/Laws/Sparse.lean ====
section
/-! SUPPORT. Sparse.lean: laws of the sparse tables: what a read finds after a write, and that writes keep the canonical form. -/

namespace Sys2Proof.Machine

variable {α : Type}

@[simp] theorem slookup_sinsert_same (k : Nat) (v : α) (l : List (Nat × α)) : slookup k (sinsert k v l) = some v := by
  induction l with
  | nil => simp [sinsert, slookup]
  | cons e l ih =>
    obtain ⟨j, w⟩ := e
    unfold sinsert
    split
    · simp [slookup]
    · split
      · simp [slookup]
      · rw [slookup, if_neg (by omega), ih]

theorem slookup_sinsert_other {k j : Nat} (h : j ≠ k) (v : α) (l : List (Nat × α)) : slookup j (sinsert k v l) = slookup j l := by
  induction l with
  | nil => simp [sinsert, slookup, Ne.symm h]
  | cons e l ih =>
    obtain ⟨i, w⟩ := e
    unfold sinsert
    split
    · rw [slookup, if_neg (Ne.symm h)]
    · split
      · subst_vars
        rw [slookup, slookup, if_neg (Ne.symm h), if_neg (Ne.symm h)]
      · rw [slookup, slookup, ih]

@[simp] theorem slookup_serase_same (k : Nat) (l : List (Nat × α)) : slookup k (serase k l) = none := by
  induction l with
  | nil => rfl
  | cons e l ih =>
    obtain ⟨i, w⟩ := e
    unfold serase at *
    by_cases h : i = k
    · simpa [List.filter_cons, h] using ih
    · simpa [List.filter_cons, h, slookup] using ih

theorem slookup_serase_other {k j : Nat} (h : j ≠ k) (l : List (Nat × α)) : slookup j (serase k l) = slookup j l := by
  induction l with
  | nil => rfl
  | cons e l ih =>
    obtain ⟨i, w⟩ := e
    unfold serase at *
    by_cases hi : i = k
    · subst hi
      simpa [List.filter_cons, slookup, Ne.symm h] using ih
    · simp only [List.filter_cons, hi, ne_eq, not_false_eq_true, decide_true, if_true, slookup]
      split
      · rfl
      · exact ih

variable [DecidableEq α]

/-- A write is read back. -/
@[simp] theorem sget_sput_same (d v : α) (k : Nat) (l : List (Nat × α)) : sget d k (sput d k v l) = v := by
  unfold sget sput
  split
  · simp_all
  · simp

/-- A write leaves every other key alone. -/
theorem sget_sput_other {k j : Nat} (h : j ≠ k) (d e v : α) (l : List (Nat × α)) : sget d j (sput e k v l) = sget d j l := by
  unfold sget sput
  split
  · rw [slookup_serase_other h]
  · rw [slookup_sinsert_other h]

theorem sget_sput (d v : α) (k j : Nat) (l : List (Nat × α)) : sget d j (sput d k v l) = if j = k then v else sget d j l := by
  split
  · subst_vars; simp
  · rw [sget_sput_other ‹_›]

/-! ## The canonical form -/

omit [DecidableEq α] in
theorem sinsert_all (k : Nat) (v : α) (q : Nat × α → Bool) (l : List (Nat × α)) (h : l.all q = true) (hv : q (k, v) = true) :
    (sinsert k v l).all q = true := by
  induction l with
  | nil => simp [sinsert, hv]
  | cons e l ih =>
    obtain ⟨i, w⟩ := e
    simp only [List.all_cons, Bool.and_eq_true] at h
    unfold sinsert
    split
    · simp [hv, h.1, h.2]
    · split
      · simp [hv, h.2]
      · simp [h.1, ih h.2]

theorem swf_sinsert {d : Nat → α} {k : Nat} {v : α} {l : List (Nat × α)} (h : swf d l = true) (hv : v ≠ d k) :
    swf d (sinsert k v l) = true := by
  induction l with
  | nil => simp [sinsert, swf, hv]
  | cons e l ih =>
    obtain ⟨i, w⟩ := e
    simp only [swf, Bool.and_eq_true] at h
    unfold sinsert
    split
    · rename_i hk
      simp only [swf, Bool.and_eq_true, List.all_cons, decide_eq_true_eq]
      refine ⟨⟨hv, hk, ?_⟩, by simpa using h⟩
      rw [List.all_eq_true] at *
      intro e he
      have := h.1.2 e he
      simp only [decide_eq_true_eq] at *
      omega
    · split
      · subst_vars
        simp only [swf, Bool.and_eq_true, decide_eq_true_eq]
        exact ⟨⟨hv, h.1.2⟩, h.2⟩
      · simp only [swf, Bool.and_eq_true]
        exact ⟨⟨h.1.1, sinsert_all _ _ _ _ h.1.2 (by simp; omega)⟩, ih h.2⟩

theorem swf_filter {d : Nat → α} (q : Nat × α → Bool) {l : List (Nat × α)} (h : swf d l = true) : swf d (l.filter q) = true := by
  induction l with
  | nil => rfl
  | cons e l ih =>
    obtain ⟨i, w⟩ := e
    simp only [swf, Bool.and_eq_true] at h
    rw [List.filter_cons]
    split
    · simp only [swf, Bool.and_eq_true]
      refine ⟨⟨h.1.1, ?_⟩, ih h.2⟩
      rw [List.all_eq_true] at *
      exact fun e he => h.1.2 e (List.mem_filter.1 he).1
    · exact ih h.2

/-- A write keeps the canonical form. -/
theorem swf_sput {d : Nat → α} {k : Nat} {v : α} {l : List (Nat × α)} (h : swf d l = true) : swf d (sput (d k) k v l) = true := by
  unfold sput
  split
  · exact swf_filter _ h
  · exact swf_sinsert h ‹_›

theorem swf_filterMap {d : Nat → α} {g : Nat × α → Option (Nat × α)} {l : List (Nat × α)} (h : swf d l = true)
    (hg : ∀ e e', g e = some e' → e'.1 = e.1 ∧ e'.2 ≠ d e'.1) : swf d (l.filterMap g) = true := by
  induction l with
  | nil => rfl
  | cons e l ih =>
    obtain ⟨i, w⟩ := e
    simp only [swf, Bool.and_eq_true] at h
    rw [List.filterMap_cons]
    split
    · exact ih h.2
    · rename_i e' he
      obtain ⟨j, v⟩ := e'
      have hk := hg _ _ he
      simp only [swf, Bool.and_eq_true, decide_eq_true_eq]
      refine ⟨⟨hk.2, ?_⟩, ih h.2⟩
      rw [List.all_eq_true]
      intro b hb
      obtain ⟨a, ha, hab⟩ := List.mem_filterMap.1 hb
      have := List.all_eq_true.1 h.1.2 a ha
      have hj := (hg _ _ hab).1
      have hji : j = i := hk.1
      simp only [decide_eq_true_eq] at *
      omega

theorem swf_ne {d : α} {l : List (Nat × α)} (h : swf (fun _ => d) l = true) : ∀ e ∈ l, e.2 ≠ d := by
  induction l with
  | nil => simp
  | cons e l ih =>
    obtain ⟨i, w⟩ := e
    simp only [swf, Bool.and_eq_true, decide_eq_true_eq] at h
    intro e he
    rcases List.mem_cons.1 he with he | he
    · subst he; exact h.1.1
    · exact ih h.2 e he

/-- Copying entries under other keys keeps the canonical form. -/
theorem swf_copy {d : α} {g : Nat → Nat} {src l : List (Nat × α)} (h : swf (fun _ => d) l = true) (hs : ∀ e ∈ src, e.2 ≠ d) :
    swf (fun _ => d) (src.foldl (fun acc e => sinsert (g e.1) e.2 acc) l) = true := by
  induction src generalizing l with
  | nil => exact h
  | cons e src ih => exact ih (swf_sinsert h (hs e (by simp))) (fun a ha => hs a (by simp [ha]))

theorem setWf_setInsert {k : Nat} {l : List Nat} (h : setWf l = true) : setWf (setInsert k l) = true := by
  have all (q : Nat → Bool) (l : List Nat) (h : l.all q = true) (hk : q k = true) : (setInsert k l).all q = true := by
    induction l with
    | nil => simp [setInsert, hk]
    | cons i l ih =>
      simp only [List.all_cons, Bool.and_eq_true] at h
      unfold setInsert
      split
      · simp [hk, h.1, h.2]
      · split
        · simp [h.1, h.2]
        · simp [h.1, ih h.2]
  induction l with
  | nil => simp [setInsert, setWf]
  | cons i l ih =>
    simp only [setWf, Bool.and_eq_true] at h
    unfold setInsert
    split
    · rename_i hk
      simp only [setWf, Bool.and_eq_true, List.all_cons, decide_eq_true_eq]
      refine ⟨⟨hk, ?_⟩, h⟩
      rw [List.all_eq_true] at *
      intro e he
      have := h.1 e he
      simp only [decide_eq_true_eq] at *
      omega
    · split
      · simp only [setWf, Bool.and_eq_true]
        exact h
      · simp only [setWf, Bool.and_eq_true]
        exact ⟨all _ _ h.1 (by simp; omega), ih h.2⟩

theorem setWf_copy {g : Nat → Nat} {src l : List Nat} (h : setWf l = true) :
    setWf (src.foldl (fun acc e => setInsert (g e) acc) l) = true := by
  induction src generalizing l with
  | nil => exact h
  | cons e src ih => exact ih (setWf_setInsert h)

theorem setWf_filter (q : Nat → Bool) {l : List Nat} (h : setWf l = true) : setWf (l.filter q) = true := by
  induction l with
  | nil => rfl
  | cons i l ih =>
    simp only [setWf, Bool.and_eq_true] at h
    rw [List.filter_cons]
    split
    · simp only [setWf, Bool.and_eq_true]
      refine ⟨?_, ih h.2⟩
      rw [List.all_eq_true] at *
      exact fun e he => h.1 e (List.mem_filter.1 he).1
    · exact ih h.2

theorem setWf_setPut {k : Nat} {b : Bool} {l : List Nat} (h : setWf l = true) : setWf (setPut k b l) = true := by
  unfold setPut
  split
  · exact setWf_setInsert h
  · exact setWf_filter _ h

end Sys2Proof.Machine
end

