-- ==== Sys2Proof/Laws/Good.lean ====
section
/-! SUPPORT. Good.lean: the operations of Ops.lean that write a table keep the tables sound; the rest of the model is built from
them. `Good` is closed under updates of any other field. -/

namespace Sys2Proof.Machine

open Sys2Proof

variable {p : List Instr} {s s' : State}

/-- The results of a part of an instruction keep the tables sound. -/
def Ex.Good {α : Type} (p : List Instr) : Ex α → Prop
  | .ok _ s => s.Good p
  | .flt _ s => s.Good p
  | .stall s => s.Good p

/-- An optional state is sound. -/
def OptGood (p : List Instr) : Option State → Prop
  | some s => s.Good p
  | none => True

theorem good_mk {pd ctl cta ctb mem ta tb ecc cells posts bells msgs passed pins fab inst pres wd kinds frm rime qm rpr ports firn stby ldv
    thaw dbg pwr fresh sp scr} : State.Good p (State.mk pd ctl cta ctb mem ta tb ecc cells posts bells msgs passed pins fab inst pres wd
      kinds frm rime qm rpr ports firn stby ldv thaw dbg pwr fresh sp scr) ↔
    Sound p pd ctl cta ctb mem ta tb cells msgs rpr.corr rpr.cands := Iff.rfl

theorem good_proj : Sound p s.pending s.ctl s.ctlTagA s.ctlTagB s.mem s.tagA s.tagB s.cells s.msgs s.rpr.corr s.rpr.cands ↔ s.Good p := Iff.rfl

theorem sound_filter_mem {pd ctl cta ctb mem ta tb cells msgs corr cands} {q : Nat × Word → Bool}
    (h : Sound p pd ctl cta ctb mem ta tb cells msgs corr cands) : Sound p pd ctl cta ctb (mem.filter q) ta tb cells msgs corr cands :=
  { h with mem := swf_filter q h.mem }

theorem sound_filter_ctl {pd ctl cta ctb mem ta tb cells msgs corr cands} {q : Nat × Word → Bool}
    (h : Sound p pd ctl cta ctb mem ta tb cells msgs corr cands) : Sound p pd (ctl.filter q) cta ctb mem ta tb cells msgs corr cands :=
  { h with ctl := swf_filter q h.ctl }

theorem sound_put_tagA {pd ctl cta ctb mem ta tb cells msgs corr cands} {k : Nat} {b : Bool}
    (h : Sound p pd ctl cta ctb mem ta tb cells msgs corr cands) : Sound p pd ctl cta ctb mem (setPut k b ta) tb cells msgs corr cands :=
  { h with tagA := setWf_setPut h.tagA }

theorem sound_tail {pd ctl cta ctb mem ta tb cells msgs corr} {l rest : List Nat} {k : Nat} (e : l = k :: rest)
    (h : Sound p pd ctl cta ctb mem ta tb cells msgs corr l) : Sound p pd ctl cta ctb mem ta tb cells msgs corr rest :=
  { h with cands := by have := h.cands; rw [e, List.length_cons] at this; omega }

theorem sound_tail_if {pd ctl cta ctb mem ta tb cells msgs corr} {c : Prop} [Decidable c] {l rest : List Nat} {k : Nat}
    (e : (if c then l else []) = k :: rest) (h : Sound p pd ctl cta ctb mem ta tb cells msgs corr l) :
    Sound p pd ctl cta ctb mem ta tb cells msgs corr rest := by
  split at e
  · exact sound_tail e h
  · cases e

theorem sound_filter_msgs {pd ctl cta ctb mem ta tb cells msgs corr cands} {q : Msg → Bool}
    (h : Sound p pd ctl cta ctb mem ta tb cells msgs corr cands) : Sound p pd ctl cta ctb mem ta tb cells (msgs.filter q) corr cands :=
  { h with msgs := fun src => le_trans (List.Sublist.length_le (List.Sublist.filter _ List.filter_sublist)) (h.msgs src) }

theorem sound_taken {pd ctl cta ctb mem ta tb cells corr} {msgs : List Msg} {cands : List Nat} {m : Msg}
    (h : Sound p pd ctl cta ctb mem ta tb cells msgs corr cands) : Sound p pd ctl cta ctb mem ta tb cells (msgs.erase m) corr cands :=
  { h with msgs := fun src => le_trans (List.Sublist.length_le (List.Sublist.filter _ (List.erase_sublist))) (h.msgs src) }

theorem good_ite {c : Prop} [Decidable c] {a b : State} (ha : c → a.Good p) (hb : ¬ c → b.Good p) : (if c then a else b).Good p := by
  split
  · exact ha ‹_›
  · exact hb ‹_›

theorem good_ite_snd {β : Type} {c : Prop} [Decidable c] {a b : β × State} (ha : c → a.2.Good p) (hb : ¬ c → b.2.Good p) :
    (if c then a else b).2.Good p := by
  split
  · exact ha ‹_›
  · exact hb ‹_›

theorem good_ite_fst {β : Type} {c : Prop} [Decidable c] {a b : State × β} (ha : c → a.1.Good p) (hb : ¬ c → b.1.Good p) :
    (if c then a else b).1.Good p := by
  split
  · exact ha ‹_›
  · exact hb ‹_›

theorem good_ite_snd2 {β γ : Type} {c : Prop} [Decidable c] {a b : β × γ × State} (ha : c → a.2.2.Good p) (hb : ¬ c → b.2.2.Good p) :
    (if c then a else b).2.2.Good p := by
  split
  · exact ha ‹_›
  · exact hb ‹_›

theorem good_foldl {β : Type} {l : List β} {f : State → β → State} (hs : s.Good p) (hf : ∀ s b, s.Good p → (f s b).Good p) :
    (l.foldl f s).Good p := by
  induction l generalizing s with
  | nil => exact hs
  | cons b l ih => exact ih (hf _ _ hs)

theorem good_foldl_snd {β γ : Type} {l : List β} {f : γ × State → β → γ × State} {a : γ × State} (hs : a.2.Good p)
    (hf : ∀ a b, a.2.Good p → (f a b).2.Good p) : (l.foldl f a).2.Good p := by
  induction l generalizing a with
  | nil => exact hs
  | cons b l ih => exact ih (hf _ _ hs)

theorem good_foldl_snd2 {β γ δ : Type} {l : List β} {f : γ × δ × State → β → γ × δ × State} {a : γ × δ × State}
    (hs : a.2.2.Good p) (hf : ∀ a b, a.2.2.Good p → (f a b).2.2.Good p) : (l.foldl f a).2.2.Good p := by
  induction l generalizing a with
  | nil => exact hs
  | cons b l ih => exact ih (hf _ _ hs)

theorem good_foldl_snd3 {β γ δ ε : Type} {l : List β} {f : γ × δ × ε × State → β → γ × δ × ε × State} {a : γ × δ × ε × State}
    (hs : a.2.2.2.Good p) (hf : ∀ a b, a.2.2.2.Good p → (f a b).2.2.2.Good p) : (l.foldl f a).2.2.2.Good p := by
  induction l generalizing a with
  | nil => exact hs
  | cons b l ih => exact ih (hf _ _ hs)

theorem good_of_snd3 {β γ δ : Type} {x : β × γ × δ × State} {v : β} {w : γ} {u : δ} (e : x = (v, w, u, s)) (h : x.2.2.2.Good p) :
    s.Good p := by subst e; exact h

theorem good_foldl_fst {β γ : Type} {l : List β} {f : State × γ → β → State × γ} {a : State × γ} (hs : a.1.Good p)
    (hf : ∀ a b, a.1.Good p → (f a b).1.Good p) : (l.foldl f a).1.Good p := by
  induction l generalizing a with
  | nil => exact hs
  | cons b l ih => exact ih (hf _ _ hs)

theorem good_of_snd {β : Type} {x : β × State} {v : β} (e : x = (v, s)) (h : x.2.Good p) : s.Good p := by subst e; exact h
theorem good_of_snd2 {β γ : Type} {x : β × γ × State} {v : β} {w : γ} (e : x = (v, w, s)) (h : x.2.2.Good p) : s.Good p := by
  subst e; exact h
theorem good_of_fst {β : Type} {x : State × β} {v : β} (e : x = (s, v)) (h : x.1.Good p) : s.Good p := by subst e; exact h
theorem good_of_some {x : Option State} (e : x = some s) (h : OptGood p x) : s.Good p := by subst e; exact h
theorem good_of_ok {α : Type} {x : Ex α} {v : α} (e : x = .ok v s) (h : x.Good p) : s.Good p := by subst e; exact h
theorem good_of_flt {α : Type} {x : Ex α} {v : CellFault} (e : x = .flt v s) (h : x.Good p) : s.Good p := by subst e; exact h
theorem good_of_stall {α : Type} {x : Ex α} (e : x = .stall s) (h : x.Good p) : s.Good p := by subst e; exact h

theorem ex_ok {α : Type} {v : α} (h : s.Good p) : (Ex.ok v s).Good p := h
theorem ex_flt {α : Type} {v : CellFault} (h : s.Good p) : (Ex.flt (α := α) v s).Good p := h
theorem ex_stall {α : Type} (h : s.Good p) : (Ex.stall (α := α) s).Good p := h

theorem ex_ite {α : Type} {c : Prop} [Decidable c] {a b : Ex α} (ha : c → a.Good p) (hb : ¬ c → b.Good p) :
    (if c then a else b).Good p := by
  split
  · exact ha ‹_›
  · exact hb ‹_›

theorem ex_bind {α β : Type} {x : Ex α} {f : α → State → Ex β} (hx : x.Good p) (hf : ∀ a s, s.Good p → (f a s).Good p) :
    (x.bind f).Good p := by
  cases x with
  | ok a s => exact hf _ _ hx
  | flt e s => exact hx
  | stall s => exact hx

theorem ex_costs {α : Type} {x : Ex α} {f : State → State} (hx : x.Good p) (hf : ∀ s, s.Good p → (f s).Good p) :
    (x.costs f).Good p := by
  cases x with
  | ok a s => exact hf _ hx
  | flt e s => exact hf _ hx
  | stall s => exact hx

theorem ex_foldl {α β : Type} {l : List β} {f : Ex α → β → Ex α} {a : Ex α} (ha : a.Good p) (hf : ∀ a b, a.Good p → (f a b).Good p) :
    (l.foldl f a).Good p := by
  induction l generalizing a with
  | nil => exact ha
  | cons b l ih => exact ih (hf _ _ ha)

theorem ex_each {α : Type} {l : List α} {f : α → State → Ex Unit} (h : s.Good p) (hf : ∀ a s, s.Good p → (f a s).Good p) :
    (Ex.each l f s).Good p := ex_foldl (ex_ok h) (fun _ _ ha => ex_bind ha (fun _ _ h => hf _ _ h))

theorem ex_collect {α β : Type} {l : List α} {f : α → State → Ex β} (h : s.Good p) (hf : ∀ a s, s.Good p → (f a s).Good p) :
    (Ex.collect l f s).Good p :=
  ex_foldl (ex_ok h) (fun _ _ ha => ex_bind ha (fun _ _ h => ex_bind (hf _ _ h) (fun _ _ h => ex_ok h)))

theorem opt_map {α : Type} {o : Option α} {f : α → State} (h : ∀ a, (f a).Good p) : OptGood p (o.map f) := by
  cases o with
  | none => trivial
  | some a => exact h a

theorem opt_map_good {o : Option State} {f : State → State} (ho : OptGood p o) (h : ∀ s, s.Good p → (f s).Good p) : OptGood p (o.map f) := by
  cases o with
  | none => trivial
  | some a => exact h a ho

theorem opt_some (h : s.Good p) : OptGood p (some s) := h
theorem opt_none : OptGood p none := trivial

theorem opt_ite {c : Prop} [Decidable c] {a b : Option State} (ha : c → OptGood p a) (hb : ¬ c → OptGood p b) :
    OptGood p (if c then a else b) := by
  split
  · exact ha ‹_›
  · exact hb ‹_›

theorem good_getD {o : Option State} (h : OptGood p o) (hs : s.Good p) : (o.getD s).Good p := by
  cases o with
  | none => exact hs
  | some a => exact h

/-! ## The writers of the tables -/

theorem State.setReg_good (h : s.Good p) (off : Nat) (w : Word) : (s.setReg off w).Good p :=
  { h with ctl := swf_sput (d := resetWord) h.ctl }

theorem State.setCell_good (h : s.Good p) (c : Nat) (x : Cell) : (s.setCell c x).Good p :=
  { h with cells := swf_sput (d := fun _ => Cell.reset) h.cells }

theorem State.setWord_good (h : s.Good p) (key : Nat) (w : Word) : (s.setWord key w).Good p :=
  { h with mem := swf_sput (d := fun _ => 0) h.mem }

theorem State.setTag_good (h : s.Good p) (key : Nat) (b : Bool) : (s.setTag key b).Good p :=
  { h with tagA := setWf_setPut h.tagA, tagB := setWf_setPut h.tagB }

theorem State.put_good (h : s.Good p) (f : Fld) (v : Nat) : (s.put f v).Good p := State.setReg_good h _ _
theorem State.putB_good (h : s.Good p) (f : Fld) (b : Bool) : (s.putB f b).Good p := State.setReg_good h _ _
theorem State.raise_good (h : s.Good p) (f : Fld) : (s.raise f).Good p := State.setReg_good h _ _
theorem State.bump_good (h : s.Good p) (f : Fld) : (s.bump f).Good p := State.setReg_good h _ _
theorem State.bumpBy_good (h : s.Good p) (f : Fld) (n : Nat) : (s.bumpBy f n).Good p := State.setReg_good h _ _

/-- Sending a message keeps at most four of a source waiting (R460). -/
theorem State.send_good (h : s.Good p) (m : Msg) : (s.send m).Good p := by
  unfold State.send
  have key (t : State) (ht : t.Good p) : (if (t.msgs.filter (fun x => x.src = m.src)).length < 4 then { t with msgs := t.msgs ++ [m] }
      else t.bump Reg.MOR_DROP_COUNT).Good p := by
    split
    · rename_i hl
      refine { ht with msgs := fun src => ?_ }
      rw [List.filter_append, List.length_append]
      by_cases hm : m.src = src
      · subst hm
        simpa using hl
      · simpa [hm] using ht.msgs src
    · exact State.bump_good ht _
  dsimp only
  apply key
  repeat' split
  all_goals first | exact State.raise_good h _ | exact h

end Sys2Proof.Machine
end

