-- ==== Sys2Proof/Laws/GoodOps.lean ====
section
/-! SUPPORT. GoodOps.lean: every function of Ops.lean keeps the tables sound. -/

namespace Sys2Proof.Machine

open Sys2Proof

set_option linter.unusedTactic false
set_option linter.unreachableTactic false
set_option linter.unusedSimpArgs false
set_option linter.unusedVariables false

variable {p : List Instr}

theorem State.modCell_good {s : State} (hs : State.Good p s) (c : Nat) (f : Cell → Cell) : (State.modCell s c f).Good p := by
  unfold State.modCell
  try dsimp only
  repeat' first
    | with_reducible assumption | with_reducible intro _ | with_reducible apply State.setCell_good | dsimp only

theorem State.setBank_good {s : State} (hs : State.Good p s) (c : Nat) (b : Nat) (k : Bank) : (State.setBank s c b k).Good p := by
  unfold State.setBank
  try dsimp only
  repeat' first
    | with_reducible assumption | with_reducible intro _ | with_reducible apply State.setCell_good | dsimp only

theorem State.modBank_good {s : State} (hs : State.Good p s) (c : Nat) (b : Nat) (f : Bank → Bank) : (State.modBank s c b f).Good p := by
  unfold State.modBank
  try dsimp only
  repeat' first
    | with_reducible assumption | with_reducible intro _ | with_reducible apply State.setBank_good | dsimp only

theorem State.setCur_good {s : State} (hs : State.Good p s) (c : Nat) (k : Bank) : (State.setCur s c k).Good p := by
  unfold State.setCur
  try dsimp only
  repeat' first
    | with_reducible assumption | with_reducible intro _ | with_reducible apply State.setBank_good | dsimp only

theorem State.modCur_good {s : State} (hs : State.Good p s) (c : Nat) (f : Bank → Bank) : (State.modCur s c f).Good p := by
  unfold State.modCur
  try dsimp only
  repeat' first
    | with_reducible assumption | with_reducible intro _ | with_reducible apply State.setCur_good | dsimp only

theorem State.pump_good {s : State} (hs : State.Good p s) (z1 : Nat) : (State.pump s z1).Good p := by
  unfold State.pump
  try dsimp only
  repeat' first
    | with_reducible assumption | with_reducible apply good_ite | with_reducible intro _ | with_reducible apply good_foldl
    | with_reducible apply good_foldl_snd | with_reducible apply good_foldl_snd2 | with_reducible apply good_foldl_fst
    | with_reducible apply good_getD | simp only [good_mk, good_proj] | dsimp only | split

theorem State.wakeRetain_good {s : State} (hs : State.Good p s) (k : Nat) : (State.wakeRetain s k).Good p := by
  unfold State.wakeRetain
  try dsimp only
  repeat' first
    | with_reducible assumption | with_reducible intro _ | with_reducible apply State.pump_good
    | with_reducible apply State.put_good | simp only [good_mk, good_proj] | dsimp only

theorem State.undoze_good {s : State} (hs : State.Good p s) (k : Nat) : (State.undoze s k).Good p := by
  unfold State.undoze
  try dsimp only
  repeat' first
    | with_reducible assumption | with_reducible apply good_ite | with_reducible intro _
    | with_reducible apply State.put_good | dsimp only | split

theorem State.sendInfo_good {s : State} (hs : State.Good p s) (src : Nat) (kind : Nat) (cls : Nat) (info : Nat) : (State.sendInfo s src kind cls info).Good p := by
  unfold State.sendInfo
  try dsimp only
  repeat' first
    | with_reducible assumption | with_reducible intro _ | with_reducible apply State.send_good | dsimp only

theorem State.sendAddr_good {s : State} (hs : State.Good p s) (src : Nat) (kind : Nat) (cls : Nat) (pa : Nat) : (State.sendAddr s src kind cls pa).Good p := by
  unfold State.sendAddr
  try dsimp only
  repeat' first
    | with_reducible assumption | with_reducible intro _ | with_reducible apply State.send_good | dsimp only

theorem State.eachCell_good {s : State} (hs : State.Good p s) (k : Nat) (f : State → Nat → State) (hf : ∀ v0 v1, State.Good p v0 → (f v0 v1).Good p) : (State.eachCell s k f).Good p := by
  unfold State.eachCell
  try dsimp only
  repeat' first
    | with_reducible assumption | with_reducible intro _ | with_reducible apply good_foldl
    | with_reducible apply good_foldl_snd | with_reducible apply good_foldl_snd2 | with_reducible apply good_foldl_fst
    | with_reducible apply hf | dsimp only

theorem State.cancelQueues_good {s : State} (hs : State.Good p s) (c : Nat) : (State.cancelQueues s c).Good p := by
  unfold State.cancelQueues
  try dsimp only
  repeat' first
    | with_reducible assumption | with_reducible intro _ | simp only [good_mk, good_proj] | dsimp only

theorem State.retireLoad_good {s : State} (hs : State.Good p s) (c : Nat) : (State.retireLoad s c).Good p := by
  unfold State.retireLoad
  try dsimp only
  repeat' first
    | with_reducible assumption | with_reducible apply good_ite | with_reducible intro _
    | with_reducible apply State.cancelQueues_good | with_reducible apply State.modCell_good
    | simp only [good_mk, good_proj] | dsimp only | split

theorem State.doom_good {s : State} (hs : State.Good p s) (k : Nat) : (State.doom s k).Good p := by
  unfold State.doom
  try dsimp only
  repeat' first
    | with_reducible assumption | with_reducible intro _ | simp only [good_mk, good_proj] | dsimp only

theorem State.beginMigration_good {s : State} (hs : State.Good p s) (c : Nat) (cause : Nat) : (State.beginMigration s c cause).Good p := by
  unfold State.beginMigration
  try dsimp only
  repeat' first
    | with_reducible assumption | with_reducible apply good_ite | with_reducible intro _
    | with_reducible apply State.put_good | simp only [good_mk, good_proj] | dsimp only | split

theorem State.takeMigration_good {s : State} (hs : State.Good p s) (m : Migration) (cause : Nat) : (State.takeMigration s m cause).Good p := by
  unfold State.takeMigration
  try dsimp only
  repeat' first
    | with_reducible assumption | with_reducible apply good_ite | with_reducible intro _
    | with_reducible apply State.put_good | simp only [good_mk, good_proj] | dsimp only | split

theorem State.failCell_good {s : State} (hs : State.Good p s) (c : Nat) : (State.failCell s c).Good p := by
  unfold State.failCell
  try dsimp only
  repeat' first
    | with_reducible assumption | with_reducible intro _ | with_reducible apply State.modCell_good
    | with_reducible apply State.put_good | with_reducible apply State.raise_good
    | with_reducible apply State.retireLoad_good | simp only [good_mk, good_proj] | dsimp only

theorem State.heard_good {s : State} (hs : State.Good p s) (f : State → State) (hf : ∀ v0, State.Good p v0 → (f v0).Good p) : (State.heard s f).Good p := by
  unfold State.heard
  try dsimp only
  repeat' first
    | with_reducible assumption | with_reducible apply good_ite | with_reducible intro _ | with_reducible apply hf
    | dsimp only | split

theorem State.moveFailed_good {s : State} (hs : State.Good p s) (c : Nat) (cause : Nat) : (State.moveFailed s c cause).Good p := by
  unfold State.moveFailed
  try dsimp only
  repeat' first
    | with_reducible assumption | with_reducible apply good_ite | with_reducible intro _
    | with_reducible apply State.beginMigration_good | with_reducible apply State.doom_good
    | with_reducible apply State.takeMigration_good | dsimp only | split

theorem State.failureEvent_good {s : State} (hs : State.Good p s) (c : Nat) (cause : Nat) : (State.failureEvent s c cause).Good p := by
  unfold State.failureEvent
  try dsimp only
  repeat' first
    | with_reducible assumption | with_reducible apply good_ite | with_reducible intro _
    | with_reducible apply State.failCell_good | with_reducible apply State.moveFailed_good | dsimp only | split

theorem State.noteSpares_good {s : State} (hs : State.Good p s) : (State.noteSpares s).Good p := by
  unfold State.noteSpares
  try dsimp only
  repeat' first
    | with_reducible assumption | with_reducible intro _ | with_reducible apply State.putB_good | dsimp only

theorem State.endMigration_good {s : State} (hs : State.Good p s) (m : Migration) : (State.endMigration s m).Good p := by
  unfold State.endMigration
  try dsimp only
  repeat' first
    | with_reducible assumption | with_reducible apply good_ite | with_reducible intro _
    | with_reducible apply State.put_good | simp only [good_mk, good_proj] | dsimp only | split

theorem State.retireSlot_good {s : State} (hs : State.Good p s) (k : Nat) (slot : Nat) : (State.retireSlot s k slot).Good p := by
  unfold State.retireSlot
  try dsimp only
  repeat' first
    | with_reducible assumption | with_reducible intro _ | with_reducible apply State.put_good
    | simp only [good_mk, good_proj] | dsimp only

theorem State.retireSpare_good {s : State} (hs : State.Good p s) (k : Nat) : (State.retireSpare s k).Good p := by
  unfold State.retireSpare
  try dsimp only
  repeat' first
    | with_reducible assumption | with_reducible apply good_ite | with_reducible intro _
    | with_reducible apply State.doom_good | with_reducible apply State.endMigration_good
    | with_reducible apply State.noteSpares_good | with_reducible apply State.put_good
    | with_reducible apply State.retireSlot_good | with_reducible apply State.sendInfo_good | simp only [good_mk, good_proj]
    | dsimp only | split

theorem State.setEcc_good {s : State} (hs : State.Good p s) (key : Nat) (b : Bool) : (State.setEcc s key b).Good p := by
  unfold State.setEcc
  try dsimp only
  repeat' first
    | with_reducible assumption | with_reducible intro _ | simp only [good_mk, good_proj] | dsimp only

theorem State.clearEcc_good {s : State} (hs : State.Good p s) (key : Nat) : (State.clearEcc s key).Good p := by
  unfold State.clearEcc
  try dsimp only
  repeat' first
    | with_reducible assumption | with_reducible intro _ | simp only [good_mk, good_proj] | dsimp only

theorem State.sendRow_good {s : State} (hs : State.Good p s) (kind : Nat) (cls : Nat) (key : Nat) (pa : Nat) : (State.sendRow s kind cls key pa).Good p := by
  unfold State.sendRow
  try dsimp only
  repeat' first
    | with_reducible assumption | with_reducible apply good_ite | with_reducible intro _
    | with_reducible apply State.sendAddr_good | with_reducible apply State.sendInfo_good | dsimp only | split

theorem State.noRow_good {s : State} (hs : State.Good p s) (m : Nat) : (State.noRow s m).Good p := by
  unfold State.noRow
  try dsimp only
  repeat' first
    | with_reducible assumption | with_reducible apply good_ite | with_reducible intro _
    | with_reducible apply State.failureEvent_good | with_reducible apply State.retireSpare_good | dsimp only | split

/-- A candidate joins the queue only while fewer than 16 wait (R489). -/
theorem State.candidate_good {s : State} (hs : State.Good p s) (key : Nat) (pa : Nat) : (State.candidate s key pa).Good p := by
  unfold State.candidate
  try dsimp only
  repeat' first
    | with_reducible assumption
    | with_reducible apply good_ite
    | intro _
    | with_reducible apply State.noRow_good
    | with_reducible apply State.raise_good
    | with_reducible apply State.sendRow_good
    | with_reducible apply State.bump_good
  exact { hs with cands := by simp; omega }

/-- At most 64 corrected addresses are kept (R488). -/
theorem State.corrected_good {s : State} (hs : State.Good p s) (key : Nat) (pa : Nat) (scrub : Bool) :
    (State.corrected s key pa scrub).Good p := by
  unfold State.corrected
  dsimp only
  split
  · exact { State.candidate_good hs key pa with corr := List.length_take_le _ _ }
  · exact { hs with corr := List.length_take_le _ _ }

theorem State.setEntryTag_good {s : State} (hs : State.Good p s) (pa : Nat) (b : Bool) : (State.setEntryTag s pa b).Good p :=
  { hs with ctlTagA := setWf_setPut hs.ctlTagA, ctlTagB := setWf_setPut hs.ctlTagB }

theorem State.entryCheck_good {s : State} (hs : State.Good p s) (pa : Nat) : (State.entryCheck s pa).Good p := by
  unfold State.entryCheck
  try dsimp only
  repeat' first
    | with_reducible assumption | with_reducible apply good_ite | with_reducible intro _
    | with_reducible apply State.sendAddr_good | with_reducible apply State.setEntryTag_good | dsimp only | split

theorem State.cacheError_good {s : State} (hs : State.Good p s) (c : Nat) (key : Nat) (pa : Nat) (bad : Bool) : (State.cacheError s c key pa bad).Good p := by
  unfold State.cacheError
  try dsimp only
  repeat' first
    | with_reducible assumption | with_reducible apply good_ite | with_reducible intro _
    | with_reducible apply State.candidate_good | with_reducible apply State.corrected_good
    | with_reducible apply State.sendAddr_good | dsimp only | split

theorem State.tagCheck_good {s : State} (hs : State.Good p s) (key : Nat) (src : Nat) (pa : Nat) : (State.tagCheck s key src pa).Good p := by
  unfold State.tagCheck
  try dsimp only
  repeat' first
    | with_reducible assumption | with_reducible apply good_ite | with_reducible intro _
    | with_reducible apply State.candidate_good | with_reducible apply State.sendAddr_good
    | with_reducible apply State.setTag_good | dsimp only | split

theorem State.readWord_good {s : State} (hs : State.Good p s) (key : Nat) (pa : Nat) : (State.readWord s key pa).2.Good p := by
  unfold State.readWord
  try dsimp only
  repeat' first
    | with_reducible assumption | with_reducible intro _ | with_reducible apply State.candidate_good
    | with_reducible apply State.corrected_good | with_reducible apply State.sendAddr_good
    | (refine good_of_snd (by with_reducible assumption) ?_) | dsimp only | split

theorem State.writeCopy_good {s : State} (hs : State.Good p s) (key : Nat) (w : Word) (en : BitVec 4) (tag : Bool) : (State.writeCopy s key w en tag).Good p := by
  unfold State.writeCopy
  try dsimp only
  repeat' first
    | with_reducible assumption | with_reducible apply good_ite | with_reducible intro _
    | with_reducible apply State.clearEcc_good | with_reducible apply State.setTag_good
    | with_reducible apply State.setWord_good | dsimp only | split

theorem State.writeWord_good {s : State} (hs : State.Good p s) (key : Nat) (w : Word) (en : BitVec 4) (tag : Bool) : (State.writeWord s key w en tag).Good p := by
  unfold State.writeWord
  try dsimp only
  repeat' first
    | with_reducible assumption | with_reducible intro _ | with_reducible apply State.writeCopy_good | dsimp only | split

theorem State.coherent_good {s : State} (hs : State.Good p s) (pa : Nat) (except : Option Nat) : (State.coherent s pa except).Good p := by
  unfold State.coherent
  try dsimp only
  repeat' first
    | with_reducible assumption | with_reducible apply good_ite | with_reducible intro _ | with_reducible apply good_foldl
    | with_reducible apply good_foldl_snd | with_reducible apply good_foldl_snd2 | with_reducible apply good_foldl_fst
    | with_reducible apply State.modCell_good | simp only [good_mk, good_proj] | dsimp only | split

theorem State.writeRaw_good {s : State} (hs : State.Good p s) (pa : Nat) (w : Word) : (State.writeRaw s pa w).Good p := by
  unfold State.writeRaw
  try dsimp only
  repeat' first
    | with_reducible assumption | with_reducible intro _ | with_reducible apply State.coherent_good
    | with_reducible apply State.writeWord_good | dsimp only

theorem State.charge_good {s : State} (hs : State.Good p s) (c : Nat) (n : Nat) : (State.charge s c n).Good p := by
  unfold State.charge
  try dsimp only
  repeat' first
    | with_reducible assumption | with_reducible intro _ | with_reducible apply State.bumpBy_good | dsimp only | split

theorem State.enterBank_good {s : State} (hs : State.Good p s) (c : Nat) (b : Nat) (pc : SylAddr) : (State.enterBank s c b pc).Good p := by
  unfold State.enterBank
  try dsimp only
  repeat' first
    | with_reducible assumption | with_reducible intro _ | with_reducible apply State.charge_good
    | with_reducible apply State.modCell_good | with_reducible apply State.put_good
    | with_reducible apply State.retireLoad_good | with_reducible apply State.setBank_good
    | with_reducible apply State.undoze_good | simp only [good_mk, good_proj] | dsimp only

theorem State.lockup_good {s : State} (hs : State.Good p s) (c : Nat) (second : Nat) : (State.lockup s c second).Good p := by
  unfold State.lockup
  try dsimp only
  repeat' first
    | with_reducible assumption | with_reducible apply good_ite | with_reducible intro _
    | with_reducible apply State.failureEvent_good | with_reducible apply State.modCell_good
    | with_reducible apply State.put_good | with_reducible apply State.putB_good | with_reducible apply State.raise_good
    | with_reducible apply State.retireLoad_good | with_reducible apply State.send_good | simp only [good_mk, good_proj]
    | dsimp only | split

theorem State.faultRecord_good {s : State} (hs : State.Good p s) (c : Nat) (f : CellFault) (code : Nat) (orig : Nat) (bank : Nat) (async : Bool) : (State.faultRecord s c f code orig bank async).Good p := by
  unfold State.faultRecord
  try dsimp only
  repeat' first
    | with_reducible assumption | with_reducible apply good_ite | with_reducible intro _
    | with_reducible apply State.bump_good | with_reducible apply State.put_good | with_reducible apply State.setReg_good
    | dsimp only | split

theorem State.takeFaultFor_good {s : State} (hs : State.Good p s) (c : Nat) (f : CellFault) (rec : Nat) (async : Bool) : (State.takeFaultFor s c f rec async).Good p := by
  unfold State.takeFaultFor
  try dsimp only
  repeat' first
    | with_reducible assumption | with_reducible apply good_ite | with_reducible intro _
    | with_reducible apply State.enterBank_good | with_reducible apply State.faultRecord_good
    | with_reducible apply State.lockup_good | with_reducible apply State.modCell_good
    | with_reducible apply State.sendInfo_good | simp only [good_mk, good_proj] | dsimp only | split

theorem State.flushPq_good {s : State} (hs : State.Good p s) (c : Nat) : (State.flushPq s c).Good p := by
  unfold State.flushPq
  try dsimp only
  repeat' first
    | with_reducible assumption | with_reducible intro _ | with_reducible apply State.modCell_good
    | simp only [good_mk, good_proj] | dsimp only

theorem State.takeFault_good {s : State} (hs : State.Good p s) (c : Nat) (f : CellFault) : (State.takeFault s c f).Good p := by
  unfold State.takeFault
  try dsimp only
  repeat' first
    | with_reducible assumption | with_reducible intro _ | with_reducible apply State.takeFaultFor_good | dsimp only

theorem State.raiseAsync_good {s : State} (hs : State.Good p s) (c : Nat) (f : HeldFault) : (State.raiseAsync s c f).Good p := by
  unfold State.raiseAsync
  try dsimp only
  repeat' first
    | with_reducible assumption | with_reducible apply good_ite | with_reducible intro _
    | with_reducible apply State.modCell_good | simp only [good_mk, good_proj] | dsimp only | split

theorem State.takeHeld_good {s : State} (hs : State.Good p s) (c : Nat) : (State.takeHeld s c).Good p := by
  unfold State.takeHeld
  try dsimp only
  repeat' first
    | with_reducible assumption | with_reducible apply good_ite | with_reducible intro _
    | with_reducible apply State.modCell_good | with_reducible apply State.takeFaultFor_good
    | simp only [good_mk, good_proj] | dsimp only | split

theorem State.resume_good {s : State} (hs : State.Good p s) (c : Nat) (b : Nat) : (State.resume s c b).Good p := by
  unfold State.resume
  try dsimp only
  repeat' first
    | with_reducible assumption | with_reducible intro _ | with_reducible apply State.flushPq_good
    | with_reducible apply State.put_good | dsimp only

theorem State.refill_good {s : State} (hs : State.Good p s) (c : Nat) (va : Nat) : (State.refill s c va).Good p := by
  unfold State.refill
  try dsimp only
  repeat' first
    | with_reducible assumption | with_reducible apply good_ite | with_reducible intro _
    | with_reducible apply State.charge_good | with_reducible apply State.modCell_good | simp only [good_mk, good_proj]
    | dsimp only | split

theorem State.keepPlace_good {s : State} (hs : State.Good p s) (c : Nat) (va : Nat) (z3 : Phys) : (State.keepPlace s c va z3).Good p := by
  unfold State.keepPlace
  try dsimp only
  repeat' first
    | with_reducible assumption | with_reducible intro _ | with_reducible apply State.modCell_good
    | simp only [good_mk, good_proj] | dsimp only

theorem State.tickFresh_good {s : State} (hs : State.Good p s) : (State.tickFresh s).Good p := by
  unfold State.tickFresh
  try dsimp only
  repeat' first
    | with_reducible assumption | with_reducible intro _ | simp only [good_mk, good_proj] | dsimp only

theorem State.takeCycles_good {s : State} (hs : State.Good p s) (k : Nat) : (State.takeCycles s k).Good p := by
  unfold State.takeCycles
  try dsimp only
  repeat' first
    | with_reducible assumption | with_reducible intro _ | with_reducible apply State.setReg_good
    | simp only [good_mk, good_proj] | dsimp only

end Sys2Proof.Machine
end

