-- ==== Sys2Proof/Laws/GoodClock.lean ====
section
/-! SUPPORT. GoodClock.lean: every function of Clock.lean keeps the tables sound. -/

namespace Sys2Proof.Machine

open Sys2Proof

set_option linter.unusedTactic false
set_option linter.unreachableTactic false
set_option linter.unusedSimpArgs false
set_option linter.unusedVariables false

variable {p : List Instr}

theorem State.clockEnable_good {s : State} (hs : State.Good p s) : (State.clockEnable s).Good p := by
  unfold State.clockEnable
  try dsimp only
  repeat' first
    | with_reducible assumption | with_reducible apply good_ite | with_reducible intro _
    | with_reducible apply State.raise_good | simp only [good_mk, good_proj] | dsimp only | split

theorem State.clockDisable_good {s : State} (hs : State.Good p s) : (State.clockDisable s).Good p := by
  unfold State.clockDisable
  try dsimp only
  repeat' first
    | with_reducible assumption | with_reducible intro _ | with_reducible apply State.put_good
    | simp only [good_mk, good_proj] | dsimp only

theorem State.writeFrmCtrl_good {s : State} (hs : State.Good p s) (v : Word) : (State.writeFrmCtrl s v).Good p := by
  unfold State.writeFrmCtrl
  try dsimp only
  repeat' first
    | with_reducible assumption | with_reducible apply good_ite | with_reducible intro _
    | with_reducible apply State.clockDisable_good | with_reducible apply State.clockEnable_good
    | with_reducible apply State.put_good | with_reducible apply State.raise_good | dsimp only | split

theorem State.followLock_good {s : State} (hs : State.Good p s) : (State.followLock s).Good p := by
  unfold State.followLock
  try dsimp only
  repeat' first
    | with_reducible assumption | with_reducible apply good_ite | with_reducible intro _
    | with_reducible apply State.putB_good | with_reducible apply State.sendInfo_good | simp only [good_mk, good_proj]
    | dsimp only | split

theorem State.timeLock_good {s : State} (hs : State.Good p s) (b : Bool) : (State.timeLock s b).Good p := by
  unfold State.timeLock
  try dsimp only
  repeat' first
    | with_reducible assumption | with_reducible intro _ | with_reducible apply State.followLock_good
    | with_reducible apply State.heard_good | simp only [good_mk, good_proj] | dsimp only

theorem State.ppsEdge_good {s : State} (hs : State.Good p s) (off : Nat) : (State.ppsEdge s off).Good p := by
  unfold State.ppsEdge
  try dsimp only
  repeat' first
    | with_reducible assumption | with_reducible intro _ | with_reducible apply State.followLock_good
    | with_reducible apply State.heard_good | simp only [good_mk, good_proj] | dsimp only

theorem State.holdover_good {s : State} (hs : State.Good p s) : (State.holdover s).Good p := by
  unfold State.holdover
  try dsimp only
  repeat' first
    | with_reducible assumption | with_reducible apply good_ite | with_reducible intro _
    | with_reducible apply State.raise_good | with_reducible apply State.sendInfo_good | simp only [good_mk, good_proj]
    | dsimp only | split

theorem State.readTime_good {s : State} (hs : State.Good p s) : (State.readTime s).Good p := by
  unfold State.readTime
  try dsimp only
  repeat' first
    | with_reducible assumption | with_reducible apply good_ite | with_reducible intro _
    | with_reducible apply State.tickFresh_good | simp only [good_mk, good_proj] | dsimp only | split

theorem State.setNow_good {s : State} (hs : State.Good p s) (t : Nat) : (State.setNow s t).Good p := by
  unfold State.setNow
  try dsimp only
  repeat' first
    | with_reducible assumption | with_reducible intro _ | simp only [good_mk, good_proj] | dsimp only

theorem State.absorb_good {s : State} (hs : State.Good p s) (t : Nat) (goal : Nat) : (State.absorb s t goal).Good p := by
  unfold State.absorb
  try dsimp only
  repeat' first
    | with_reducible assumption | with_reducible intro _ | with_reducible apply State.put_good
    | with_reducible apply State.setNow_good | simp only [good_mk, good_proj] | dsimp only

theorem State.jumpTime_good {s : State} (hs : State.Good p s) (t : Nat) (tai : Nat) : (State.jumpTime s t tai).Good p := by
  unfold State.jumpTime
  try dsimp only
  repeat' first
    | with_reducible assumption | with_reducible intro _ | simp only [good_mk, good_proj] | dsimp only

theorem State.timeStep_good {s : State} (hs : State.Good p s) (t : Nat) (port : Nat) : (State.timeStep s t port).Good p := by
  unfold State.timeStep
  try dsimp only
  repeat' first
    | with_reducible assumption | with_reducible apply good_ite | with_reducible intro _
    | with_reducible apply State.put_good | with_reducible apply State.raise_good | with_reducible apply State.sendInfo_good
    | with_reducible apply State.setNow_good | simp only [good_mk, good_proj] | dsimp only | split

theorem State.timeUpdate_good {s : State} (hs : State.Good p s) (tai : Nat) (cycles : Nat) : (State.timeUpdate s tai cycles).Good p := by
  unfold State.timeUpdate
  try dsimp only
  repeat' first
    | with_reducible assumption | with_reducible apply good_ite | with_reducible intro _
    | with_reducible apply State.absorb_good | with_reducible apply State.jumpTime_good
    | with_reducible apply State.put_good | with_reducible apply State.timeStep_good | simp only [good_mk, good_proj]
    | dsimp only | split

theorem State.slewFrame_good {s : State} (hs : State.Good p s) : (State.slewFrame s).Good p := by
  unfold State.slewFrame
  try dsimp only
  repeat' first
    | with_reducible assumption | with_reducible apply good_ite | with_reducible intro _
    | with_reducible apply State.put_good | simp only [good_mk, good_proj] | dsimp only | split

theorem State.placeTick_good {s : State} (hs : State.Good p s) (n : Nat) (first : Bool) : (State.placeTick s n first).Good p := by
  unfold State.placeTick
  try dsimp only
  repeat' first
    | with_reducible assumption | with_reducible apply good_ite | with_reducible intro _
    | with_reducible apply State.put_good | with_reducible apply State.raise_good | with_reducible apply State.setReg_good
    | with_reducible apply State.slewFrame_good | simp only [good_mk, good_proj] | dsimp only | split

end Sys2Proof.Machine
end

