-- ==== Sys2Proof/Laws/GoodIrq.lean ====
section
/-! SUPPORT. GoodIrq.lean: every function of Irq.lean keeps the tables sound. -/

namespace Sys2Proof.Machine

open Sys2Proof

set_option linter.unusedTactic false
set_option linter.unreachableTactic false
set_option linter.unusedSimpArgs false
set_option linter.unusedVariables false

variable {p : List Instr}

theorem State.presentTo_good {s : State} (hs : State.Good p s) (c : Nat) : (State.presentTo s c).Good p := by
  unfold State.presentTo
  try dsimp only
  repeat' first
    | with_reducible assumption | with_reducible apply good_ite | with_reducible intro _
    | with_reducible apply State.undoze_good | simp only [good_mk, good_proj] | dsimp only | split

theorem State.leaveRetain_good {s : State} (hs : State.Good p s) (k : Nat) : (State.leaveRetain s k).Good p := by
  unfold State.leaveRetain
  try dsimp only
  repeat' first
    | with_reducible assumption | with_reducible intro _ | with_reducible apply good_foldl
    | with_reducible apply good_foldl_snd | with_reducible apply good_foldl_snd2 | with_reducible apply good_foldl_fst
    | with_reducible apply State.presentTo_good | with_reducible apply State.wakeRetain_good | dsimp only

theorem State.present_good {s : State} (hs : State.Good p s) (c : Nat) : (State.present s c).Good p := by
  unfold State.present
  try dsimp only
  repeat' first
    | with_reducible assumption | with_reducible apply good_ite | with_reducible intro _
    | with_reducible apply State.leaveRetain_good | with_reducible apply State.presentTo_good | dsimp only | split

theorem State.dropPresented_good {s : State} (hs : State.Good p s) (k : Nat) : (State.dropPresented s k).Good p := by
  unfold State.dropPresented
  try dsimp only
  repeat' first
    | with_reducible assumption | with_reducible intro _ | simp only [good_mk, good_proj] | dsimp only

theorem State.irqChange_good {s : State} (hs : State.Good p s) (src : Nat) (f : State → State) (hf : ∀ v0, State.Good p v0 → (f v0).Good p) : (State.irqChange s src f).Good p := by
  unfold State.irqChange
  try dsimp only
  repeat' first
    | with_reducible assumption | with_reducible apply good_ite | with_reducible intro _ | with_reducible apply hf
    | with_reducible apply State.present_good | with_reducible apply State.raise_good | dsimp only | split

theorem State.arrival_good {s : State} (hs : State.Good p s) (src : Nat) : (State.arrival s src).Good p := by
  unfold State.arrival
  try dsimp only
  repeat' first
    | with_reducible assumption | with_reducible apply good_ite | with_reducible intro _
    | with_reducible apply State.bump_good | with_reducible apply State.irqChange_good | with_reducible apply State.put_good
    | with_reducible apply State.raise_good | dsimp only | split

theorem State.irqConfigure_good {s : State} (hs : State.Good p s) (src : Nat) (write : State → State) (hwrite : ∀ v0, State.Good p v0 → (write v0).Good p) : (State.irqConfigure s src write).Good p := by
  unfold State.irqConfigure
  try dsimp only
  repeat' first
    | with_reducible assumption | with_reducible apply good_ite | with_reducible intro _ | with_reducible apply hwrite
    | with_reducible apply State.irqChange_good | simp only [good_mk, good_proj] | dsimp only | split

theorem State.setLine_good {s : State} (hs : State.Good p s) (src : Nat) (b : Bool) : (State.setLine s src b).Good p := by
  unfold State.setLine
  try dsimp only
  repeat' first
    | with_reducible assumption | with_reducible apply good_ite | with_reducible intro _
    | with_reducible apply State.arrival_good | with_reducible apply State.putB_good | dsimp only | split

theorem State.pendClr_good {s : State} (hs : State.Good p s) (src : Nat) : (State.pendClr s src).Good p := by
  unfold State.pendClr
  try dsimp only
  repeat' first
    | with_reducible assumption | with_reducible apply good_ite | with_reducible intro _
    | with_reducible apply State.irqChange_good | with_reducible apply State.put_good | dsimp only | split

theorem State.irqWrite_good {s : State} (hs : State.Good p s) (src : Nat) (f : State → State) (hf : ∀ v0, State.Good p v0 → (f v0).Good p) : (State.irqWrite s src f).Good p := by
  unfold State.irqWrite
  try dsimp only
  repeat' first
    | with_reducible assumption | with_reducible apply good_ite | with_reducible intro _ | with_reducible apply hf
    | with_reducible apply State.raise_good | dsimp only | split

theorem State.irqAssert_good {s : State} (hs : State.Good p s) (src : Nat) : (State.irqAssert s src).Good p := by
  unfold State.irqAssert
  try dsimp only
  repeat' first
    | with_reducible assumption | with_reducible intro _ | with_reducible apply State.irqWrite_good
    | with_reducible apply State.setLine_good | dsimp only

theorem State.irqDeassert_good {s : State} (hs : State.Good p s) (src : Nat) : (State.irqDeassert s src).Good p := by
  unfold State.irqDeassert
  try dsimp only
  repeat' first
    | with_reducible assumption | with_reducible intro _ | with_reducible apply State.irqWrite_good
    | with_reducible apply State.setLine_good | dsimp only

theorem State.irqPulse_good {s : State} (hs : State.Good p s) (src : Nat) : (State.irqPulse s src).Good p := by
  unfold State.irqPulse
  try dsimp only
  repeat' first
    | with_reducible assumption | with_reducible intro _ | with_reducible apply State.irqWrite_good
    | with_reducible apply State.setLine_good | dsimp only

theorem State.irqPendset_good {s : State} (hs : State.Good p s) (src : Nat) : (State.irqPendset s src).Good p := by
  unfold State.irqPendset
  try dsimp only
  repeat' first
    | with_reducible assumption | with_reducible apply good_ite | with_reducible intro _
    | with_reducible apply State.arrival_good | dsimp only | split

theorem State.irqPendclr_good {s : State} (hs : State.Good p s) (src : Nat) : (State.irqPendclr s src).Good p := by
  unfold State.irqPendclr
  try dsimp only
  repeat' first
    | with_reducible assumption | with_reducible apply good_ite | with_reducible intro _
    | with_reducible apply State.pendClr_good | dsimp only | split

theorem State.irqComplete_good {s : State} (hs : State.Good p s) (c : Nat) : (State.irqComplete s c).Good p := by
  unfold State.irqComplete
  try dsimp only
  repeat' first
    | with_reducible assumption | with_reducible apply good_ite | with_reducible intro _
    | with_reducible apply State.irqChange_good | with_reducible apply State.present_good
    | with_reducible apply State.put_good | with_reducible apply State.putB_good | with_reducible apply State.raise_good
    | with_reducible apply State.setReg_good | simp only [good_mk, good_proj] | dsimp only | split

theorem State.settle_good {s : State} (hs : State.Good p s) : (State.settle s).Good p := by
  unfold State.settle
  try dsimp only
  repeat' first
    | with_reducible assumption | with_reducible apply good_ite | with_reducible intro _ | with_reducible apply good_foldl
    | with_reducible apply good_foldl_snd | with_reducible apply good_foldl_snd2 | with_reducible apply good_foldl_fst
    | with_reducible apply State.setLine_good | dsimp only | split

theorem State.interruptEntry_good {s : State} (hs : State.Good p s) (c : Nat) : (State.interruptEntry s c).Good p := by
  unfold State.interruptEntry
  try dsimp only
  repeat' first
    | with_reducible assumption | with_reducible apply good_ite | with_reducible intro _
    | with_reducible apply State.bump_good | with_reducible apply State.enterBank_good
    | with_reducible apply State.modCell_good | with_reducible apply State.put_good | with_reducible apply State.setReg_good
    | with_reducible apply State.tickFresh_good | simp only [good_mk, good_proj] | dsimp only | split

end Sys2Proof.Machine
end

