-- ==== Sys2Proof/Laws/GoodSched.lean ====
section
/-! SUPPORT. GoodSched.lean: every function of Sched.lean keeps the tables sound. -/

namespace Sys2Proof.Machine

open Sys2Proof

set_option linter.unusedTactic false
set_option linter.unreachableTactic false
set_option linter.unusedSimpArgs false
set_option linter.unusedVariables false

variable {p : List Instr}

theorem State.setTask_good {s : State} (hs : State.Good p s) (c : Nat) (n : Nat) (j : Nat) (v : Nat) : (State.setTask s c n j v).Good p := by
  unfold State.setTask
  try dsimp only
  repeat' first
    | with_reducible assumption | with_reducible intro _ | with_reducible apply State.put_good | dsimp only

theorem State.saveTcw_good {s : State} (hs : State.Good p s) (c : Nat) (n : Nat) (j : Nat) (k : Bank) (pos : Bool) : (State.saveTcw s c n j k pos).Good p := by
  unfold State.saveTcw
  try dsimp only
  repeat' first
    | with_reducible assumption | with_reducible intro _ | with_reducible apply good_foldl
    | with_reducible apply good_foldl_snd | with_reducible apply good_foldl_snd2 | with_reducible apply good_foldl_fst
    | with_reducible apply State.writeWord_good | dsimp only

theorem State.readTcw_good {s : State} (hs : State.Good p s) (c : Nat) (n : Nat) (j : Nat) : (State.readTcw s c n j).2.2.Good p := by
  unfold State.readTcw
  try dsimp only
  repeat' first
    | with_reducible assumption | with_reducible apply good_ite | with_reducible apply good_ite_snd
    | with_reducible apply good_ite_snd2 | with_reducible apply good_ite_fst | with_reducible intro _
    | with_reducible apply good_foldl | with_reducible apply good_foldl_snd | with_reducible apply good_foldl_snd2
    | with_reducible apply good_foldl_fst | with_reducible apply State.readWord_good
    | with_reducible apply State.tagCheck_good | (refine good_of_snd (by with_reducible assumption) ?_)
    | (refine good_of_snd2 (by with_reducible assumption) ?_) | dsimp only | split

theorem State.activate_good {s : State} (hs : State.Good p s) (c : Nat) (n : Nat) : (State.activate s c n).Good p := by
  unfold State.activate
  try dsimp only
  repeat' first
    | with_reducible assumption | with_reducible intro _ | with_reducible apply good_foldl
    | with_reducible apply good_foldl_snd | with_reducible apply good_foldl_snd2 | with_reducible apply good_foldl_fst
    | with_reducible apply State.put_good | with_reducible apply State.setTask_good | dsimp only

theorem State.wakeLevel_good {s : State} (hs : State.Good p s) (c : Nat) (n : Nat) : (State.wakeLevel s c n).Good p := by
  unfold State.wakeLevel
  try dsimp only
  repeat' first
    | with_reducible assumption | with_reducible apply good_ite | with_reducible intro _
    | with_reducible apply State.activate_good | dsimp only | split

theorem State.levelDone_good {s : State} (hs : State.Good p s) (c : Nat) (n : Nat) : (State.levelDone s c n).Good p := by
  unfold State.levelDone
  try dsimp only
  repeat' first
    | with_reducible assumption | with_reducible apply good_ite | with_reducible intro _
    | with_reducible apply State.activate_good | with_reducible apply State.put_good
    | with_reducible apply State.wakeLevel_good | dsimp only | split

theorem State.levelTick_good {s : State} (hs : State.Good p s) (c : Nat) (n : Nat) : (State.levelTick s c n).Good p := by
  unfold State.levelTick
  try dsimp only
  repeat' first
    | with_reducible assumption | with_reducible apply good_ite | with_reducible intro _
    | with_reducible apply State.activate_good | with_reducible apply State.bump_good
    | with_reducible apply State.raise_good | dsimp only | split

theorem State.event_good {s : State} (hs : State.Good p s) (e : EventKind) (c : Nat) (n : Nat) : (State.event s e c n).Good p := by
  unfold State.event
  try dsimp only
  repeat' first
    | with_reducible assumption | with_reducible apply good_ite | with_reducible intro _
    | with_reducible apply State.bump_good | with_reducible apply State.put_good | with_reducible apply State.raise_good
    | with_reducible apply State.undoze_good | with_reducible apply State.wakeLevel_good | dsimp only | split

theorem State.consume_good {s : State} (hs : State.Good p s) (c : Nat) (n : Nat) : (State.consume s c n).Good p := by
  unfold State.consume
  try dsimp only
  repeat' first
    | with_reducible assumption | with_reducible intro _ | with_reducible apply State.setReg_good | dsimp only

theorem State.dropLink_good {s : State} (hs : State.Good p s) (c : Nat) (b : Nat) : (State.dropLink s c b).Good p := by
  unfold State.dropLink
  try dsimp only
  repeat' first
    | with_reducible assumption | with_reducible apply good_ite | with_reducible intro _
    | with_reducible apply State.put_good | with_reducible apply State.setBank_good | simp only [good_mk, good_proj]
    | dsimp only | split

theorem State.abandon_good {s : State} (hs : State.Good p s) (c : Nat) (n : Nat) : (State.abandon s c n).Good p := by
  unfold State.abandon
  try dsimp only
  repeat' first
    | with_reducible assumption | with_reducible apply good_ite | with_reducible intro _
    | with_reducible apply State.dropLink_good | with_reducible apply State.modBank_good
    | with_reducible apply State.modCell_good | with_reducible apply State.put_good
    | with_reducible apply State.retireLoad_good | with_reducible apply State.saveTcw_good
    | with_reducible apply State.setReg_good | with_reducible apply State.wakeLevel_good | simp only [good_mk, good_proj]
    | dsimp only | split

theorem State.exclude_good {s : State} (hs : State.Good p s) (c : Nat) (lvl : Nat) : (State.exclude s c lvl).Good p := by
  unfold State.exclude
  try dsimp only
  repeat' first
    | with_reducible assumption | with_reducible intro _ | simp only [good_mk, good_proj] | dsimp only

theorem State.countOverrun_good {s : State} (hs : State.Good p s) (c : Nat) : (State.countOverrun s c).Good p := by
  unfold State.countOverrun
  try dsimp only
  repeat' first
    | with_reducible assumption | with_reducible intro _ | with_reducible apply State.bump_good
    | with_reducible apply State.exclude_good | dsimp only

theorem State.overrunOne_good {s : State} (hs : State.Good p s) (c : Nat) (info : Nat) : (State.overrunOne s c info).Good p := by
  unfold State.overrunOne
  try dsimp only
  repeat' first
    | with_reducible assumption | with_reducible apply good_ite | with_reducible intro _
    | with_reducible apply State.abandon_good | with_reducible apply State.countOverrun_good
    | with_reducible apply State.modCell_good | with_reducible apply State.raiseAsync_good
    | with_reducible apply State.sendInfo_good | simp only [good_mk, good_proj] | dsimp only | split

theorem State.overrun_good {s : State} (hs : State.Good p s) (c : Nat) (info : Nat) : (State.overrun s c info).Good p := by
  unfold State.overrun
  try dsimp only
  repeat' first
    | with_reducible assumption | with_reducible apply good_ite | with_reducible intro _
    | with_reducible apply State.overrunOne_good | dsimp only | split

theorem State.deadline_good {s : State} (hs : State.Good p s) : (State.deadline s).Good p := by
  unfold State.deadline
  try dsimp only
  repeat' first
    | with_reducible assumption | with_reducible apply good_ite | with_reducible intro _ | with_reducible apply good_foldl
    | with_reducible apply good_foldl_snd | with_reducible apply good_foldl_snd2 | with_reducible apply good_foldl_fst
    | with_reducible apply State.overrun_good | with_reducible apply State.put_good | simp only [good_mk, good_proj]
    | dsimp only | split

theorem State.budgetExceeded_good {s : State} (hs : State.Good p s) (c : Nat) (n : Nat) : (State.budgetExceeded s c n).Good p := by
  unfold State.budgetExceeded
  try dsimp only
  repeat' first
    | with_reducible assumption | with_reducible apply good_ite | with_reducible intro _
    | with_reducible apply State.abandon_good | with_reducible apply State.modCell_good
    | with_reducible apply State.overrun_good | with_reducible apply State.raiseAsync_good
    | with_reducible apply State.sendInfo_good | simp only [good_mk, good_proj] | dsimp only | split

theorem State.levelEnable_good {s : State} (hs : State.Good p s) (c : Nat) (n : Nat) : (State.levelEnable s c n).Good p := by
  unfold State.levelEnable
  try dsimp only
  repeat' first
    | with_reducible assumption | with_reducible apply good_ite | with_reducible intro _
    | with_reducible apply State.modCell_good | with_reducible apply State.put_good | with_reducible apply State.raise_good
    | with_reducible apply State.setReg_good | simp only [good_mk, good_proj] | dsimp only | split

theorem State.levelDisable_good {s : State} (hs : State.Good p s) (c : Nat) (n : Nat) : (State.levelDisable s c n).Good p := by
  unfold State.levelDisable
  try dsimp only
  repeat' first
    | with_reducible assumption | with_reducible apply good_ite | with_reducible intro _
    | with_reducible apply State.abandon_good | with_reducible apply State.consume_good
    | with_reducible apply State.modCell_good | with_reducible apply State.put_good | simp only [good_mk, good_proj]
    | dsimp only | split

theorem State.writeLcfg_good {s : State} (hs : State.Good p s) (c : Nat) (n : Nat) (v : Word) : (State.writeLcfg s c n v).Good p := by
  unfold State.writeLcfg
  try dsimp only
  repeat' first
    | with_reducible assumption | with_reducible apply good_ite | with_reducible intro _
    | with_reducible apply State.levelDisable_good | with_reducible apply State.levelEnable_good
    | with_reducible apply State.raise_good | with_reducible apply State.setReg_good | dsimp only | split

theorem State.tcwError_good {s : State} (hs : State.Good p s) (c : Nat) (n : Nat) (w : Nat) : (State.tcwError s c n w).Good p := by
  unfold State.tcwError
  try dsimp only
  repeat' first
    | with_reducible assumption | with_reducible apply good_ite | with_reducible intro _
    | with_reducible apply State.abandon_good | with_reducible apply State.modCell_good
    | with_reducible apply State.put_good | with_reducible apply State.raiseAsync_good
    | with_reducible apply State.setReg_good | with_reducible apply State.wakeLevel_good | simp only [good_mk, good_proj]
    | dsimp only | split

theorem State.loadingEnd_good {s : State} (hs : State.Good p s) (c : Nat) (n : Nat) : (State.loadingEnd s c n).Good p := by
  unfold State.loadingEnd
  try dsimp only
  repeat' first
    | with_reducible assumption | with_reducible apply good_ite | with_reducible intro _
    | with_reducible apply State.levelDone_good | with_reducible apply State.modBank_good
    | with_reducible apply State.modCell_good | with_reducible apply State.put_good
    | with_reducible apply State.readTcw_good | with_reducible apply State.tcwError_good | simp only [good_mk, good_proj]
    | (refine good_of_snd2 (by with_reducible assumption) ?_) | dsimp only | split

theorem State.sendPost_good {s : State} (hs : State.Good p s) (from_ : Nat) (target : Nat) (n : Nat) : (State.sendPost s from_ target n).Good p := by
  unfold State.sendPost
  try dsimp only
  repeat' first
    | with_reducible assumption | with_reducible apply good_ite | with_reducible intro _
    | with_reducible apply State.bump_good | simp only [good_mk, good_proj] | dsimp only | split

theorem State.postArrival_good {s : State} (hs : State.Good p s) (from_ : Nat) (target : Nat) (n : Nat) : (State.postArrival s from_ target n).Good p := by
  unfold State.postArrival
  try dsimp only
  repeat' first
    | with_reducible assumption | with_reducible apply good_ite | with_reducible intro _
    | with_reducible apply State.event_good | simp only [good_mk, good_proj] | dsimp only | split

theorem State.doorbellArrival_good {s : State} (hs : State.Good p s) (target : Nat) (n : Nat) : (State.doorbellArrival s target n).Good p := by
  unfold State.doorbellArrival
  try dsimp only
  repeat' first
    | with_reducible assumption | with_reducible apply good_ite | with_reducible intro _
    | with_reducible apply State.event_good | simp only [good_mk, good_proj] | dsimp only | split

theorem State.timerExpiry_good {s : State} (hs : State.Good p s) (c : Nat) (n : Nat) : (State.timerExpiry s c n).Good p := by
  unfold State.timerExpiry
  try dsimp only
  repeat' first
    | with_reducible assumption | with_reducible apply good_ite | with_reducible intro _
    | with_reducible apply State.event_good | with_reducible apply State.put_good | dsimp only | split

end Sys2Proof.Machine
end

