-- ==== Sys2Proof/Laws/GoodQueue.lean ====
section
/-! SUPPORT. GoodQueue.lean: every function of Queue.lean keeps the tables sound. -/

namespace Sys2Proof.Machine

open Sys2Proof

set_option linter.unusedTactic false
set_option linter.unreachableTactic false
set_option linter.unusedSimpArgs false
set_option linter.unusedVariables false

variable {p : List Instr}

theorem State.putDesc_good {s : State} (hs : State.Good p s) (q : Nat) (w : Nat) (lo : Nat) (len : Nat) (v : Nat) : (State.putDesc s q w lo len v).Good p := by
  unfold State.putDesc
  try dsimp only
  repeat' first
    | with_reducible assumption | with_reducible intro _ | with_reducible apply State.setWord_good | dsimp only

theorem State.setHead_good {s : State} (hs : State.Good p s) (q : Nat) (h : Nat) : (State.setHead s q h).Good p := by
  unfold State.setHead
  try dsimp only
  repeat' first
    | with_reducible assumption | with_reducible intro _ | with_reducible apply State.putDesc_good | dsimp only

theorem State.setCount_good {s : State} (hs : State.Good p s) (q : Nat) (n : Nat) : (State.setCount s q n).Good p := by
  unfold State.setCount
  try dsimp only
  repeat' first
    | with_reducible assumption | with_reducible intro _ | with_reducible apply State.putDesc_good | dsimp only

theorem State.countDrop_good {s : State} (hs : State.Good p s) (q : Nat) : (State.countDrop s q).Good p := by
  unfold State.countDrop
  try dsimp only
  repeat' first
    | with_reducible assumption | with_reducible intro _ | with_reducible apply State.putDesc_good | dsimp only

theorem State.refuseInstall_good {s : State} (hs : State.Good p s) (q : Nat) (cause : Nat) : (State.refuseInstall s q cause).Good p := by
  unfold State.refuseInstall
  try dsimp only
  repeat' first
    | with_reducible assumption | with_reducible intro _ | with_reducible apply State.put_good
    | with_reducible apply State.putDesc_good | with_reducible apply State.raise_good | dsimp only

theorem State.descCorrect_good {s : State} (hs : State.Good p s) (q : Nat) : (State.descCorrect s q).Good p := by
  unfold State.descCorrect
  try dsimp only
  repeat' first
    | with_reducible assumption | with_reducible apply good_ite | with_reducible intro _ | with_reducible apply good_foldl
    | with_reducible apply good_foldl_snd | with_reducible apply good_foldl_snd2 | with_reducible apply good_foldl_fst
    | with_reducible apply State.readWord_good | dsimp only | split

theorem State.stopSources_good {s : State} (hs : State.Good p s) (q : Nat) : (State.stopSources s q).Good p := by
  unfold State.stopSources
  try dsimp only
  repeat' first
    | with_reducible assumption | with_reducible apply good_ite | with_reducible intro _ | with_reducible apply good_foldl
    | with_reducible apply good_foldl_snd | with_reducible apply good_foldl_snd2 | with_reducible apply good_foldl_fst
    | with_reducible apply State.raise_good | simp only [good_mk, good_proj] | dsimp only | split

theorem State.touchDesc_good {s : State} (hs : State.Good p s) (q : Nat) : (State.touchDesc s q).Good p := by
  unfold State.touchDesc
  try dsimp only
  repeat' first
    | with_reducible assumption | with_reducible apply good_ite | with_reducible intro _
    | with_reducible apply State.descCorrect_good | with_reducible apply State.raise_good
    | with_reducible apply State.sendAddr_good | with_reducible apply State.stopSources_good
    | simp only [good_mk, good_proj] | dsimp only | split

theorem State.descWrite_good {s : State} (hs : State.Good p s) (q : Nat) (w : Nat) (v : Word) (en : BitVec 4) : (State.descWrite s q w v en).2.Good p := by
  unfold State.descWrite
  try dsimp only
  repeat' first
    | with_reducible assumption | with_reducible apply good_ite | with_reducible apply good_ite_snd
    | with_reducible apply good_ite_snd2 | with_reducible apply good_ite_fst | with_reducible intro _
    | with_reducible apply State.bump_good | with_reducible apply State.raise_good
    | with_reducible apply State.refuseInstall_good | with_reducible apply State.touchDesc_good
    | with_reducible apply State.writeWord_good | simp only [good_mk, good_proj]
    | (refine good_of_snd (by with_reducible assumption) ?_) | dsimp only | split

theorem State.ring_good {s : State} (hs : State.Good p s) (q : Nat) (before : Nat) (after : Nat) : (State.ring s q before after).Good p := by
  unfold State.ring
  try dsimp only
  repeat' first
    | with_reducible assumption | with_reducible apply good_ite | with_reducible intro _
    | with_reducible apply State.bump_good | simp only [good_mk, good_proj] | dsimp only | split

theorem State.enqRefuse_good {s : State} (hs : State.Good p s) (q : Nat) (st : Nat) : (State.enqRefuse s q st).Good p := by
  unfold State.enqRefuse
  try dsimp only
  repeat' first
    | with_reducible assumption | with_reducible apply good_ite | with_reducible intro _
    | with_reducible apply State.bump_good | with_reducible apply State.countDrop_good | dsimp only | split

theorem State.publish_good {s : State} (hs : State.Good p s) (q : Nat) (old : Bool) : (State.publish s q old).Good p := by
  unfold State.publish
  try dsimp only
  repeat' first
    | with_reducible assumption | with_reducible apply good_ite | with_reducible intro _
    | with_reducible apply State.countDrop_good | with_reducible apply State.ring_good
    | with_reducible apply State.setCount_good | with_reducible apply State.setHead_good | dsimp only | split

theorem State.release_good {s : State} (hs : State.Good p s) (q : Nat) : (State.release s q).Good p := by
  unfold State.release
  try dsimp only
  repeat' first
    | with_reducible assumption | with_reducible intro _ | with_reducible apply State.setCount_good
    | with_reducible apply State.setHead_good | dsimp only

theorem State.unreserve_good {s : State} (hs : State.Good p s) (q : Nat) (deq : Bool) (a : QAgent) : (State.unreserve s q deq a).Good p := by
  unfold State.unreserve
  try dsimp only
  repeat' first
    | with_reducible assumption | with_reducible intro _ | simp only [good_mk, good_proj] | dsimp only

theorem State.reserve_good {s : State} (hs : State.Good p s) (r : QReq) : (State.reserve s r).Good p := by
  unfold State.reserve
  try dsimp only
  repeat' first
    | with_reducible assumption | with_reducible intro _ | simp only [good_mk, good_proj] | dsimp only

theorem State.awaitGrant_good {s : State} (hs : State.Good p s) (r : QReq) : (State.awaitGrant s r).Good p := by
  unfold State.awaitGrant
  try dsimp only
  repeat' first
    | with_reducible assumption | with_reducible intro _ | simp only [good_mk, good_proj] | dsimp only

theorem State.ringWrite_good {s : State} (hs : State.Good p s) (q : Nat) (slot : Nat) (entry : List Word) : (State.ringWrite s q slot entry).Good p := by
  unfold State.ringWrite
  try dsimp only
  repeat' first
    | with_reducible assumption | with_reducible intro _ | with_reducible apply good_foldl
    | with_reducible apply good_foldl_snd | with_reducible apply good_foldl_snd2 | with_reducible apply good_foldl_fst
    | with_reducible apply State.writeRaw_good | dsimp only

theorem State.ringRead_good {s : State} (hs : State.Good p s) (q : Nat) (slot : Nat) : (State.ringRead s q slot).2.Good p := by
  unfold State.ringRead
  try dsimp only
  repeat' first
    | with_reducible assumption | with_reducible intro _ | with_reducible apply ex_ok | with_reducible apply ex_flt
    | with_reducible apply ex_stall | with_reducible apply ex_bind | with_reducible apply good_foldl
    | with_reducible apply good_foldl_snd | with_reducible apply good_foldl_snd2 | with_reducible apply good_foldl_fst
    | with_reducible apply State.readWord_good | (refine good_of_snd (by with_reducible assumption) ?_) | dsimp only | split

theorem State.enqueueAs_good {s : State} (hs : State.Good p s) (q : Nat) (entry : List Word) (plan : QPlan) : (State.enqueueAs s q entry plan).2.Good p := by
  unfold State.enqueueAs
  try dsimp only
  repeat' first
    | with_reducible assumption | with_reducible intro _ | with_reducible apply State.enqRefuse_good
    | with_reducible apply State.publish_good | with_reducible apply State.ringWrite_good
    | (refine good_of_snd (by with_reducible assumption) ?_) | dsimp only | split

theorem State.grantNext_good {s : State} (hs : State.Good p s) (q : Nat) (deq : Bool) : (State.grantNext s q deq).2.Good p := by
  unfold State.grantNext
  try dsimp only
  repeat' first
    | with_reducible assumption | with_reducible apply good_ite | with_reducible apply good_ite_snd
    | with_reducible apply good_ite_snd2 | with_reducible apply good_ite_fst | with_reducible intro _
    | simp only [good_mk, good_proj] | (refine good_of_snd (by with_reducible assumption) ?_) | dsimp only | split

theorem State.requestQueue_good {s : State} (hs : State.Good p s) (q : Nat) (deq : Bool) (a : QAgent) : (State.requestQueue s q deq a).Good p := by
  unfold State.requestQueue
  try dsimp only
  repeat' first
    | with_reducible assumption | with_reducible apply good_ite | with_reducible intro _
    | with_reducible apply State.awaitGrant_good | with_reducible apply State.reserve_good | dsimp only | split

theorem State.chEnd_good {s : State} (hs : State.Good p s) (ch : Nat) (st : Nat) : (State.chEnd s ch st).Good p := by
  unfold State.chEnd
  try dsimp only
  repeat' first
    | with_reducible assumption | with_reducible intro _ | with_reducible apply State.put_good | dsimp only

theorem State.channelIllegal_good {s : State} (hs : State.Good p s) (ch : Nat) : (State.channelIllegal s ch).Good p := by
  unfold State.channelIllegal
  try dsimp only
  repeat' first
    | with_reducible assumption | with_reducible apply good_ite | with_reducible intro _
    | with_reducible apply State.put_good | dsimp only | split

theorem State.channelStart_good {s : State} (hs : State.Good p s) (ch : Nat) (q : Nat) (deq : Bool) : (State.channelStart s ch q deq).Good p := by
  unfold State.channelStart
  try dsimp only
  repeat' first
    | with_reducible assumption | with_reducible apply good_ite | with_reducible intro _
    | with_reducible apply State.raise_good | with_reducible apply State.requestQueue_good
    | with_reducible apply State.reserve_good | with_reducible apply State.touchDesc_good | dsimp only | split

theorem State.channelComplete_good {s : State} (hs : State.Good p s) (ch : Nat) : (State.channelComplete s ch).Good p := by
  unfold State.channelComplete
  try dsimp only
  repeat' first
    | with_reducible assumption | with_reducible apply good_ite | with_reducible intro _ | with_reducible apply good_foldl
    | with_reducible apply good_foldl_snd | with_reducible apply good_foldl_snd2 | with_reducible apply good_foldl_fst
    | with_reducible apply State.chEnd_good | with_reducible apply State.enqRefuse_good
    | with_reducible apply State.enqueueAs_good | with_reducible apply State.release_good
    | with_reducible apply State.ringRead_good | with_reducible apply State.sendAddr_good
    | with_reducible apply State.setReg_good | with_reducible apply State.touchDesc_good
    | with_reducible apply State.unreserve_good | (refine good_of_snd (by with_reducible assumption) ?_) | dsimp only
    | split

end Sys2Proof.Machine
end

