-- ==== Sys2Proof/Laws/GoodRime.lean ====
section
/-! SUPPORT. GoodRime.lean: every function of Rime.lean keeps the tables sound. -/

namespace Sys2Proof.Machine

open Sys2Proof

set_option linter.unusedTactic false
set_option linter.unreachableTactic false
set_option linter.unusedSimpArgs false
set_option linter.unusedVariables false

variable {p : List Instr}

theorem State.setImg_good {s : State} (hs : State.Good p s) (off : Nat) (w : Word) : (State.setImg s off w).Good p := by
  unfold State.setImg
  try dsimp only
  repeat' first
    | with_reducible assumption | with_reducible intro _ | with_reducible apply State.setWord_good | dsimp only

theorem State.rimeStart_good {s : State} (hs : State.Good p s) : (State.rimeStart s).Good p := by
  unfold State.rimeStart
  try dsimp only
  repeat' first
    | with_reducible assumption | with_reducible apply good_ite | with_reducible intro _ | with_reducible apply good_foldl
    | with_reducible apply good_foldl_snd | with_reducible apply good_foldl_snd2 | with_reducible apply good_foldl_fst
    | with_reducible apply State.put_good | with_reducible apply State.raise_good
    | with_reducible apply State.touchDesc_good | simp only [good_mk, good_proj] | with_reducible apply sound_filter_mem
    | dsimp only | split

theorem State.latchEdge_good {s : State} (hs : State.Good p s) (missed : Option (Nat × Nat)) : (State.latchEdge s missed).Good p := by
  unfold State.latchEdge
  try dsimp only
  repeat' first
    | with_reducible assumption | with_reducible apply good_ite | with_reducible intro _ | with_reducible apply good_foldl
    | with_reducible apply good_foldl_snd | with_reducible apply good_foldl_snd2 | with_reducible apply good_foldl_fst
    | with_reducible apply State.put_good | simp only [good_mk, good_proj] | dsimp only | split

theorem State.commitEdge_good {s : State} (hs : State.Good p s) : (State.commitEdge s).Good p := by
  unfold State.commitEdge
  try dsimp only
  repeat' first
    | with_reducible assumption | with_reducible apply good_ite | with_reducible intro _
    | with_reducible apply State.put_good | simp only [good_mk, good_proj] | dsimp only | split

theorem State.journalPass_good {s : State} (hs : State.Good p s) (frame : Nat) : (State.journalPass s frame).Good p := by
  unfold State.journalPass
  try dsimp only
  repeat' first
    | with_reducible assumption | with_reducible apply good_ite | with_reducible intro _ | with_reducible apply good_foldl
    | with_reducible apply good_foldl_snd | with_reducible apply good_foldl_snd2 | with_reducible apply good_foldl_fst
    | with_reducible apply State.bump_good | with_reducible apply State.put_good | with_reducible apply State.setImg_good
    | dsimp only | split

theorem State.fillWrite_good {s : State} (hs : State.Good p s) (w : Nat) (ln : Option Nat) (v : Word) : (State.fillWrite s w ln v).Good p := by
  unfold State.fillWrite
  try dsimp only
  repeat' first
    | with_reducible assumption | with_reducible intro _ | with_reducible apply State.put_good
    | simp only [good_mk, good_proj] | dsimp only | split

theorem State.ingressEntry_good {s : State} (hs : State.Good p s) (src : Nat) : (State.ingressEntry s src).Good p := by
  unfold State.ingressEntry
  try dsimp only
  repeat' first
    | with_reducible assumption | with_reducible apply good_ite | with_reducible intro _
    | with_reducible apply State.bump_good | with_reducible apply State.fillWrite_good
    | with_reducible apply State.release_good | with_reducible apply State.ringRead_good
    | with_reducible apply State.sendAddr_good | with_reducible apply State.sendInfo_good
    | with_reducible apply State.touchDesc_good | with_reducible apply good_getD | simp only [good_mk, good_proj]
    | (refine good_of_snd (by with_reducible assumption) ?_) | dsimp only | split

theorem State.handWrite_good {s : State} (hs : State.Good p s) (h : Nat) (v : Bool) : (State.handWrite s h v).Good p := by
  unfold State.handWrite
  try dsimp only
  repeat' first
    | with_reducible assumption | with_reducible apply good_ite | with_reducible intro _
    | with_reducible apply State.bump_good | with_reducible apply State.fillWrite_good | dsimp only | split

theorem State.inputFlip_good {s : State} (hs : State.Good p s) (i : Nat) : (State.inputFlip s i).Good p := by
  unfold State.inputFlip
  try dsimp only
  repeat' first
    | with_reducible assumption | with_reducible intro _ | with_reducible apply State.putB_good
    | simp only [good_mk, good_proj] | dsimp only

theorem State.inputChange_good {s : State} (hs : State.Good p s) (i : Nat) (stamp : Nat) : (State.inputChange s i stamp).Good p := by
  unfold State.inputChange
  try dsimp only
  repeat' first
    | with_reducible assumption | with_reducible apply good_ite | with_reducible intro _
    | with_reducible apply State.bump_good | with_reducible apply State.handWrite_good
    | with_reducible apply State.inputFlip_good | with_reducible apply State.sendInfo_good | simp only [good_mk, good_proj]
    | dsimp only | split

theorem State.debounceChange_good {s : State} (hs : State.Good p s) (i : Nat) (sample : Bool) (stamp : Nat) : (State.debounceChange s i sample stamp).Good p := by
  unfold State.debounceChange
  try dsimp only
  repeat' first
    | with_reducible assumption | with_reducible apply good_ite | with_reducible intro _
    | with_reducible apply State.inputChange_good | simp only [good_mk, good_proj] | dsimp only | split

theorem State.debounceTick_good {s : State} (hs : State.Good p s) : (State.debounceTick s).Good p := by
  unfold State.debounceTick
  try dsimp only
  repeat' first
    | with_reducible assumption | with_reducible apply good_ite | with_reducible intro _ | with_reducible apply good_foldl
    | with_reducible apply good_foldl_snd | with_reducible apply good_foldl_snd2 | with_reducible apply good_foldl_fst
    | with_reducible apply State.inputFlip_good | simp only [good_mk, good_proj] | dsimp only | split

theorem State.afterLatch_good {s : State} (hs : State.Good p s) : (State.afterLatch s).Good p := by
  unfold State.afterLatch
  try dsimp only
  repeat' first
    | with_reducible assumption | with_reducible intro _ | with_reducible apply good_foldl
    | with_reducible apply good_foldl_snd | with_reducible apply good_foldl_snd2 | with_reducible apply good_foldl_fst
    | with_reducible apply State.handWrite_good | simp only [good_mk, good_proj] | dsimp only

theorem State.recordMismatch_good {s : State} (hs : State.Good p s) (k : Nat) (cause : Nat) (index : Nat) (ln : Nat) : (State.recordMismatch s k cause index ln).Good p := by
  unfold State.recordMismatch
  try dsimp only
  repeat' first
    | with_reducible assumption | with_reducible intro _ | with_reducible apply State.bump_good
    | with_reducible apply State.raise_good | with_reducible apply State.setReg_good | dsimp only

theorem State.startLocalise_good {s : State} (hs : State.Good p s) (k : Nat) : (State.startLocalise s k).Good p := by
  unfold State.startLocalise
  try dsimp only
  repeat' first
    | with_reducible assumption | with_reducible apply good_ite | with_reducible intro _ | simp only [good_mk, good_proj]
    | dsimp only | split

theorem State.pairFault_good {s : State} (hs : State.Good p s) (c : Nat) : (State.pairFault s c).Good p := by
  unfold State.pairFault
  try dsimp only
  repeat' first
    | with_reducible assumption | with_reducible intro _ | with_reducible apply State.raiseAsync_good | dsimp only

theorem State.pairMismatch_good {s : State} (hs : State.Good p s) (c : Nat) (cause : Nat) (index : Nat) (ln : Nat) : (State.pairMismatch s c cause index ln).Good p := by
  unfold State.pairMismatch
  try dsimp only
  repeat' first
    | with_reducible assumption | with_reducible apply good_ite | with_reducible intro _
    | with_reducible apply State.exclude_good | with_reducible apply State.pairFault_good
    | with_reducible apply State.recordMismatch_good | with_reducible apply State.sendInfo_good
    | with_reducible apply State.startLocalise_good | simp only [good_mk, good_proj] | dsimp only | split

theorem State.setUnmatched_good {s : State} (hs : State.Good p s) (c : Nat) (l : List PairStore) : (State.setUnmatched s c l).Good p := by
  unfold State.setUnmatched
  try dsimp only
  repeat' first
    | with_reducible assumption | with_reducible intro _ | simp only [good_mk, good_proj] | dsimp only

theorem State.compareStore_good {s : State} (hs : State.Good p s) (c : Nat) (z2 : PairStore) : (State.compareStore s c z2).Good p := by
  unfold State.compareStore
  try dsimp only
  repeat' first
    | with_reducible assumption | with_reducible apply good_ite | with_reducible intro _
    | with_reducible apply State.pairMismatch_good | with_reducible apply State.setUnmatched_good | dsimp only | split

theorem State.imageStore_good {s : State} (hs : State.Good p s) (c : Nat) (w : Nat) (ln : Option Nat) (v : Word) : (State.imageStore s c w ln v).2.Good p := by
  unfold State.imageStore
  try dsimp only
  repeat' first
    | with_reducible assumption | with_reducible apply good_ite | with_reducible apply good_ite_snd
    | with_reducible apply good_ite_snd2 | with_reducible apply good_ite_fst | with_reducible intro _
    | with_reducible apply State.bump_good | with_reducible apply State.compareStore_good | with_reducible apply good_getD
    | simp only [good_mk, good_proj] | (refine good_of_snd (by with_reducible assumption) ?_) | dsimp only | split

theorem State.pairEnd_good {s : State} (hs : State.Good p s) (c : Nat) : (State.pairEnd s c).Good p := by
  unfold State.pairEnd
  try dsimp only
  repeat' first
    | with_reducible assumption | with_reducible apply good_ite | with_reducible intro _
    | with_reducible apply State.pairMismatch_good | dsimp only | split

end Sys2Proof.Machine
end

