-- ==== Sys2Proof/Laws/GoodPorts.lean ====
section
/-! SUPPORT. GoodPorts.lean: every function of Ports.lean keeps the tables sound. -/

namespace Sys2Proof.Machine

open Sys2Proof

set_option linter.unusedTactic false
set_option linter.unreachableTactic false
set_option linter.unusedSimpArgs false
set_option linter.unusedVariables false

variable {p : List Instr}

theorem State.setPort_good {s : State} (hs : State.Good p s) (n : Nat) (z2 : Port) : (State.setPort s n z2).Good p := by
  unfold State.setPort
  try dsimp only
  repeat' first
    | with_reducible assumption | with_reducible intro _ | simp only [good_mk, good_proj] | dsimp only

theorem State.modPort_good {s : State} (hs : State.Good p s) (n : Nat) (f : Port → Port) : (State.modPort s n f).Good p := by
  unfold State.modPort
  try dsimp only
  repeat' first
    | with_reducible assumption | with_reducible intro _ | with_reducible apply State.setPort_good | dsimp only

theorem State.portIrq_good {s : State} (hs : State.Good p s) (n : Nat) (bit : Nat) : (State.portIrq s n bit).Good p := by
  unfold State.portIrq
  try dsimp only
  repeat' first
    | with_reducible assumption | with_reducible intro _ | with_reducible apply State.put_good | dsimp only

theorem State.endRequests_good {s : State} (hs : State.Good p s) (n : Nat) (code : Nat) : (State.endRequests s n code).Good p := by
  unfold State.endRequests
  try dsimp only
  repeat' first
    | with_reducible assumption | with_reducible apply good_ite | with_reducible intro _ | with_reducible apply good_foldl
    | with_reducible apply good_foldl_snd | with_reducible apply good_foldl_snd2 | with_reducible apply good_foldl_fst
    | with_reducible apply State.put_good | dsimp only | split

theorem State.portOff_good {s : State} (hs : State.Good p s) (n : Nat) : (State.portOff s n).Good p := by
  unfold State.portOff
  try dsimp only
  repeat' first
    | with_reducible assumption | with_reducible intro _ | with_reducible apply State.modPort_good
    | with_reducible apply State.put_good | simp only [good_mk, good_proj] | dsimp only

theorem State.busIdle_good {s : State} (hs : State.Good p s) (n : Nat) : (State.busIdle s n).Good p := by
  unfold State.busIdle
  try dsimp only
  repeat' first
    | with_reducible assumption | with_reducible apply good_ite | with_reducible intro _
    | with_reducible apply State.portOff_good | dsimp only | split

theorem State.portStop_good {s : State} (hs : State.Good p s) (n : Nat) : (State.portStop s n).Good p := by
  unfold State.portStop
  try dsimp only
  repeat' first
    | with_reducible assumption | with_reducible apply good_ite | with_reducible intro _
    | with_reducible apply State.busIdle_good | with_reducible apply State.endRequests_good
    | with_reducible apply State.modPort_good | with_reducible apply State.portOff_good
    | with_reducible apply State.put_good | with_reducible apply State.tickFresh_good | simp only [good_mk, good_proj]
    | dsimp only | split

theorem State.portStart_good {s : State} (hs : State.Good p s) (n : Nat) : (State.portStart s n).Good p := by
  unfold State.portStart
  try dsimp only
  repeat' first
    | with_reducible assumption | with_reducible apply good_ite | with_reducible intro _
    | with_reducible apply State.portOff_good | with_reducible apply State.put_good | with_reducible apply State.raise_good
    | dsimp only | split

theorem State.portRecover_good {s : State} (hs : State.Good p s) (n : Nat) : (State.portRecover s n).Good p := by
  unfold State.portRecover
  try dsimp only
  repeat' first
    | with_reducible assumption | with_reducible apply good_ite | with_reducible intro _
    | with_reducible apply State.modPort_good | simp only [good_mk, good_proj] | dsimp only | split

theorem State.writePortCtrl_good {s : State} (hs : State.Good p s) (n : Nat) (v : Word) : (State.writePortCtrl s n v).Good p := by
  unfold State.writePortCtrl
  try dsimp only
  repeat' first
    | with_reducible assumption | with_reducible apply good_ite | with_reducible intro _
    | with_reducible apply State.portRecover_good | with_reducible apply State.portStart_good
    | with_reducible apply State.portStop_good | with_reducible apply State.put_good | dsimp only | split

theorem State.busIntegration_good {s : State} (hs : State.Good p s) (n : Nat) : (State.busIntegration s n).Good p := by
  unfold State.busIntegration
  try dsimp only
  repeat' first
    | with_reducible assumption | with_reducible apply good_ite | with_reducible intro _
    | with_reducible apply State.put_good | with_reducible apply State.raise_good | dsimp only | split

theorem State.noteFilter_good {s : State} (hs : State.Good p s) (n : Nat) (o : Nat) : (State.noteFilter s n o).Good p := by
  unfold State.noteFilter
  try dsimp only
  repeat' first
    | with_reducible assumption | with_reducible apply good_ite | with_reducible intro _
    | with_reducible apply State.modPort_good | simp only [good_mk, good_proj] | dsimp only | split

theorem State.filtersBefore_good {s : State} (hs : State.Good p s) (n : Nat) (after : Nat) : (State.filtersBefore s n after).Good p := by
  unfold State.filtersBefore
  try dsimp only
  repeat' first
    | with_reducible assumption | with_reducible intro _ | with_reducible apply good_foldl
    | with_reducible apply good_foldl_snd | with_reducible apply good_foldl_snd2 | with_reducible apply good_foldl_fst
    | with_reducible apply State.setReg_good | dsimp only

theorem State.countOvr_good {s : State} (hs : State.Good p s) (n : Nat) (b : Nat) : (State.countOvr s n b).Good p := by
  unfold State.countOvr
  try dsimp only
  repeat' first
    | with_reducible assumption | with_reducible intro _ | with_reducible apply State.bump_good
    | with_reducible apply State.portIrq_good | with_reducible apply State.raise_good | dsimp only

theorem State.transfer_good {s : State} (hs : State.Good p s) (n : Nat) (b : Nat) : (State.transfer s n b).Good p := by
  unfold State.transfer
  try dsimp only
  repeat' first
    | with_reducible assumption | with_reducible apply good_ite | with_reducible intro _ | with_reducible apply good_foldl
    | with_reducible apply good_foldl_snd | with_reducible apply good_foldl_snd2 | with_reducible apply good_foldl_fst
    | with_reducible apply State.clearEcc_good | with_reducible apply State.countOvr_good
    | with_reducible apply State.modPort_good | with_reducible apply State.portIrq_good
    | with_reducible apply State.put_good | with_reducible apply State.putB_good | with_reducible apply State.raise_good
    | with_reducible apply State.setReg_good | simp only [good_mk, good_proj] | dsimp only | split

theorem State.tryTransfer_good {s : State} (hs : State.Good p s) (n : Nat) (b : Nat) : (State.tryTransfer s n b).Good p := by
  unfold State.tryTransfer
  try dsimp only
  repeat' first
    | with_reducible assumption | with_reducible apply good_ite | with_reducible intro _
    | with_reducible apply State.transfer_good | dsimp only | split

theorem State.forwardEntry_good {s : State} (hs : State.Good p s) (n : Nat) (q : Nat) (entry : List Word) : (State.forwardEntry s n q entry).Good p := by
  unfold State.forwardEntry
  try dsimp only
  repeat' first
    | with_reducible assumption | with_reducible apply good_ite | with_reducible intro _
    | with_reducible apply State.awaitGrant_good | with_reducible apply State.bump_good
    | with_reducible apply State.enqueueAs_good | with_reducible apply State.touchDesc_good
    | (refine good_of_snd (by with_reducible assumption) ?_) | dsimp only | split

theorem State.forward_good {s : State} (hs : State.Good p s) (n : Nat) (b : Nat) (x : CanFrame) (late : Bool) : (State.forward s n b x late).Good p := by
  unfold State.forward
  try dsimp only
  repeat' first
    | with_reducible assumption | with_reducible apply good_ite | with_reducible intro _ | with_reducible apply good_foldl
    | with_reducible apply good_foldl_snd | with_reducible apply good_foldl_snd2 | with_reducible apply good_foldl_fst
    | with_reducible apply State.forwardEntry_good | dsimp only | split

theorem State.easeError_good {s : State} (hs : State.Good p s) (n : Nat) : (State.easeError s n).Good p := by
  unfold State.easeError
  try dsimp only
  repeat' first
    | with_reducible assumption | with_reducible apply good_ite | with_reducible intro _
    | with_reducible apply State.put_good | dsimp only | split

theorem State.goodReception_good {s : State} (hs : State.Good p s) (n : Nat) : (State.goodReception s n).Good p := by
  unfold State.goodReception
  try dsimp only
  repeat' first
    | with_reducible assumption | with_reducible apply good_ite | with_reducible intro _
    | with_reducible apply State.easeError_good | with_reducible apply State.put_good
    | with_reducible apply State.tickFresh_good | dsimp only | split

theorem State.busOff_good {s : State} (hs : State.Good p s) (n : Nat) : (State.busOff s n).Good p := by
  unfold State.busOff
  try dsimp only
  repeat' first
    | with_reducible assumption | with_reducible apply good_ite | with_reducible intro _
    | with_reducible apply State.endRequests_good | with_reducible apply State.modPort_good
    | with_reducible apply State.portIrq_good | with_reducible apply State.portRecover_good
    | with_reducible apply State.put_good | with_reducible apply State.sendInfo_good | simp only [good_mk, good_proj]
    | dsimp only | split

theorem State.meetError_good {s : State} (hs : State.Good p s) (n : Nat) (lec : Nat) (tecInc : Nat) (recInc : Nat) : (State.meetError s n lec tecInc recInc).Good p := by
  unfold State.meetError
  try dsimp only
  repeat' first
    | with_reducible assumption | with_reducible apply good_ite | with_reducible intro _
    | with_reducible apply State.bump_good | with_reducible apply State.busOff_good
    | with_reducible apply State.modPort_good | with_reducible apply State.portIrq_good
    | with_reducible apply State.put_good | with_reducible apply State.sendInfo_good | simp only [good_mk, good_proj]
    | dsimp only | split

theorem State.errorFrame_good {s : State} (hs : State.Good p s) (n : Nat) (lec : Nat) (tecInc : Nat) (recInc : Nat) : (State.errorFrame s n lec tecInc recInc).Good p := by
  unfold State.errorFrame
  try dsimp only
  repeat' first
    | with_reducible assumption | with_reducible apply good_ite | with_reducible intro _
    | with_reducible apply State.busIdle_good | with_reducible apply State.meetError_good | dsimp only | split

theorem State.formError_good {s : State} (hs : State.Good p s) (n : Nat) : (State.formError s n).Good p := by
  unfold State.formError
  try dsimp only
  repeat' first
    | with_reducible assumption | with_reducible apply good_ite | with_reducible intro _
    | with_reducible apply State.meetError_good | with_reducible apply State.put_good | dsimp only | split

theorem State.dropFrame_good {s : State} (hs : State.Good p s) (n : Nat) : (State.dropFrame s n).Good p := by
  unfold State.dropFrame
  try dsimp only
  repeat' first
    | with_reducible assumption | with_reducible intro _ | with_reducible apply State.bump_good
    | with_reducible apply State.portIrq_good | dsimp only

theorem State.shadowFrame_good {s : State} (hs : State.Good p s) (n : Nat) (f : Nat) (b : Nat) (high : Bool) (x : CanFrame) : (State.shadowFrame s n f b high x).Good p := by
  unfold State.shadowFrame
  try dsimp only
  repeat' first
    | with_reducible assumption | with_reducible apply good_ite | with_reducible intro _
    | with_reducible apply State.bump_good | with_reducible apply State.countOvr_good
    | with_reducible apply State.forward_good | with_reducible apply State.modPort_good
    | with_reducible apply State.portIrq_good | with_reducible apply State.setLine_good | simp only [good_mk, good_proj]
    | dsimp only | split

theorem State.accept_good {s : State} (hs : State.Good p s) (n : Nat) (x : CanFrame) (target : Option (Nat × Nat × Bool)) : (State.accept s n x target).Good p := by
  unfold State.accept
  try dsimp only
  repeat' first
    | with_reducible assumption | with_reducible apply good_ite | with_reducible intro _
    | with_reducible apply State.dropFrame_good | with_reducible apply State.goodReception_good
    | with_reducible apply State.shadowFrame_good | dsimp only | split

theorem State.receive_good {s : State} (hs : State.Good p s) (n : Nat) (x : CanFrame) (after : Nat) : (State.receive s n x after).Good p := by
  unfold State.receive
  try dsimp only
  repeat' first
    | with_reducible assumption | with_reducible apply good_ite | with_reducible intro _
    | with_reducible apply State.accept_good | with_reducible apply State.busIdle_good
    | with_reducible apply State.filtersBefore_good | with_reducible apply State.formError_good
    | with_reducible apply State.modPort_good | simp only [good_mk, good_proj] | dsimp only | split

theorem State.lockBuffer_good {s : State} (hs : State.Good p s) (n : Nat) (b : Nat) : (State.lockBuffer s n b).Good p := by
  unfold State.lockBuffer
  try dsimp only
  repeat' first
    | with_reducible assumption | with_reducible apply good_ite | with_reducible intro _
    | with_reducible apply State.modPort_good | with_reducible apply State.tryTransfer_good | simp only [good_mk, good_proj]
    | dsimp only | split

theorem State.releaseLock_good {s : State} (hs : State.Good p s) (n : Nat) (b : Nat) : (State.releaseLock s n b).Good p := by
  unfold State.releaseLock
  try dsimp only
  repeat' first
    | with_reducible assumption | with_reducible apply good_ite | with_reducible intro _
    | with_reducible apply State.modPort_good | with_reducible apply State.transfer_good | simp only [good_mk, good_proj]
    | dsimp only | split

theorem State.lockTimeout_good {s : State} (hs : State.Good p s) (n : Nat) : (State.lockTimeout s n).Good p := by
  unfold State.lockTimeout
  try dsimp only
  repeat' first
    | with_reducible assumption | with_reducible intro _ | with_reducible apply State.raise_good
    | with_reducible apply State.releaseLock_good | dsimp only | split

theorem State.setAgain_good {s : State} (hs : State.Good p s) (n : Nat) (b : Nat) (on : Bool) : (State.setAgain s n b on).Good p := by
  unfold State.setAgain
  try dsimp only
  repeat' first
    | with_reducible assumption | with_reducible apply good_ite | with_reducible intro _
    | with_reducible apply State.modPort_good | simp only [good_mk, good_proj] | dsimp only | split

theorem State.holdRequests_good {s : State} (hs : State.Good p s) : (State.holdRequests s).Good p := by
  unfold State.holdRequests
  try dsimp only
  repeat' first
    | with_reducible assumption | with_reducible apply good_ite | with_reducible intro _ | with_reducible apply good_foldl
    | with_reducible apply good_foldl_snd | with_reducible apply good_foldl_snd2 | with_reducible apply good_foldl_fst
    | with_reducible apply State.put_good | with_reducible apply State.setAgain_good | dsimp only | split

theorem State.request_good {s : State} (hs : State.Good p s) (n : Nat) (b : Nat) : (State.request s n b).Good p := by
  unfold State.request
  try dsimp only
  repeat' first
    | with_reducible assumption | with_reducible apply good_ite | with_reducible intro _
    | with_reducible apply State.put_good | with_reducible apply State.raise_good | with_reducible apply State.setAgain_good
    | dsimp only | split

theorem State.withdraw_good {s : State} (hs : State.Good p s) (n : Nat) (b : Nat) : (State.withdraw s n b).Good p := by
  unfold State.withdraw
  try dsimp only
  repeat' first
    | with_reducible assumption | with_reducible apply good_ite | with_reducible intro _
    | with_reducible apply State.modPort_good | with_reducible apply State.put_good | simp only [good_mk, good_proj]
    | dsimp only | split

theorem State.refuseTx_good {s : State} (hs : State.Good p s) (n : Nat) (b : Nat) : (State.refuseTx s n b).Good p := by
  unfold State.refuseTx
  try dsimp only
  repeat' first
    | with_reducible assumption | with_reducible apply good_ite | with_reducible intro _
    | with_reducible apply State.put_good | with_reducible apply State.sendInfo_good | dsimp only | split

theorem State.startStatus_good {s : State} (hs : State.Good p s) (n : Nat) : (State.startStatus s n).Good p := by
  unfold State.startStatus
  try dsimp only
  repeat' first
    | with_reducible assumption | with_reducible apply good_ite | with_reducible intro _
    | with_reducible apply State.modPort_good | simp only [good_mk, good_proj] | dsimp only | split

theorem State.holdStatus_good {s : State} (hs : State.Good p s) (n : Nat) : (State.holdStatus s n).Good p := by
  unfold State.holdStatus
  try dsimp only
  repeat' first
    | with_reducible assumption | with_reducible apply good_ite | with_reducible intro _
    | with_reducible apply State.modPort_good | with_reducible apply State.startStatus_good | simp only [good_mk, good_proj]
    | dsimp only | split

theorem State.statusEnd_good {s : State} (hs : State.Good p s) (n : Nat) (e : TxEnd) : (State.statusEnd s n e).Good p := by
  unfold State.statusEnd
  try dsimp only
  repeat' first
    | with_reducible assumption | with_reducible apply good_ite | with_reducible intro _
    | with_reducible apply State.modPort_good | simp only [good_mk, good_proj] | dsimp only | split

theorem State.startRequest_good {s : State} (hs : State.Good p s) (n : Nat) (t : Nat) : (State.startRequest s n t).Good p := by
  unfold State.startRequest
  try dsimp only
  repeat' first
    | with_reducible assumption | with_reducible apply good_ite | with_reducible intro _ | with_reducible apply good_foldl
    | with_reducible apply good_foldl_snd | with_reducible apply good_foldl_snd2 | with_reducible apply good_foldl_fst
    | with_reducible apply State.modPort_good | with_reducible apply State.refuseTx_good | simp only [good_mk, good_proj]
    | dsimp only | split

theorem State.frameStart_good {s : State} (hs : State.Good p s) (n : Nat) (t : Nat) : (State.frameStart s n t).Good p := by
  unfold State.frameStart
  try dsimp only
  repeat' first
    | with_reducible assumption | with_reducible apply good_ite | with_reducible intro _
    | with_reducible apply State.portOff_good | with_reducible apply State.startRequest_good
    | with_reducible apply State.startStatus_good | dsimp only | split

theorem State.missWindow_good {s : State} (hs : State.Good p s) (n : Nat) (b : Nat) : (State.missWindow s n b).Good p := by
  unfold State.missWindow
  try dsimp only
  repeat' first
    | with_reducible assumption | with_reducible apply good_ite | with_reducible intro _
    | with_reducible apply State.bump_good | with_reducible apply State.portIrq_good | with_reducible apply State.put_good
    | dsimp only | split

theorem State.requestAgain_good {s : State} (hs : State.Good p s) (n : Nat) (t : TxNow) : (State.requestAgain s n t).Good p := by
  unfold State.requestAgain
  try dsimp only
  repeat' first
    | with_reducible assumption | with_reducible apply good_ite | with_reducible intro _
    | with_reducible apply State.put_good | with_reducible apply State.raise_good | dsimp only | split

theorem State.sentEnd_good {s : State} (hs : State.Good p s) (n : Nat) (t : TxNow) : (State.sentEnd s n t).Good p := by
  unfold State.sentEnd
  try dsimp only
  repeat' first
    | with_reducible assumption | with_reducible apply good_ite | with_reducible intro _
    | with_reducible apply State.missWindow_good | with_reducible apply State.portIrq_good
    | with_reducible apply State.put_good | with_reducible apply State.requestAgain_good | dsimp only | split

theorem State.unsentEnd_good {s : State} (hs : State.Good p s) (n : Nat) (t : TxNow) : (State.unsentEnd s n t).Good p := by
  unfold State.unsentEnd
  try dsimp only
  repeat' first
    | with_reducible assumption | with_reducible apply good_ite | with_reducible intro _
    | with_reducible apply State.missWindow_good | with_reducible apply State.put_good
    | with_reducible apply State.requestAgain_good | dsimp only | split

theorem State.noteEnd_good {s : State} (hs : State.Good p s) (n : Nat) (t : TxNow) (e : TxEnd) (tdcv : Option Nat) : (State.noteEnd s n t e tdcv).Good p := by
  unfold State.noteEnd
  try dsimp only
  repeat' first
    | with_reducible assumption | with_reducible apply good_ite | with_reducible intro _
    | with_reducible apply State.easeError_good | with_reducible apply State.put_good | dsimp only | split

theorem State.frameEnd_good {s : State} (hs : State.Good p s) (n : Nat) (e : TxEnd) (tdcv : Option Nat) : (State.frameEnd s n e tdcv).Good p := by
  unfold State.frameEnd
  try dsimp only
  repeat' first
    | with_reducible assumption | with_reducible apply good_ite | with_reducible intro _
    | with_reducible apply State.modPort_good | with_reducible apply State.noteEnd_good
    | with_reducible apply State.portOff_good | with_reducible apply State.sentEnd_good
    | with_reducible apply State.statusEnd_good | with_reducible apply State.unsentEnd_good | simp only [good_mk, good_proj]
    | dsimp only | split

theorem State.windowClose_good {s : State} (hs : State.Good p s) (n : Nat) (b : Nat) : (State.windowClose s n b).Good p := by
  unfold State.windowClose
  try dsimp only
  repeat' first
    | with_reducible assumption | with_reducible apply good_ite | with_reducible intro _
    | with_reducible apply State.missWindow_good | with_reducible apply State.modPort_good | simp only [good_mk, good_proj]
    | dsimp only | split

theorem State.recoveryEnd_good {s : State} (hs : State.Good p s) (n : Nat) : (State.recoveryEnd s n).Good p := by
  unfold State.recoveryEnd
  try dsimp only
  repeat' first
    | with_reducible assumption | with_reducible apply good_ite | with_reducible intro _
    | with_reducible apply State.modPort_good | with_reducible apply State.put_good | simp only [good_mk, good_proj]
    | dsimp only | split

theorem State.wroteNonets_good {s : State} (hs : State.Good p s) (key : Nat) (whole : Bool) : (State.wroteNonets s key whole).Good p := by
  unfold State.wroteNonets
  try dsimp only
  repeat' first
    | with_reducible assumption | with_reducible apply good_ite | with_reducible intro _
    | with_reducible apply State.clearEcc_good | dsimp only | split

theorem State.putBytes_good {s : State} (hs : State.Good p s) (n : Nat) (b : Nat) (k : Nat) (bytes : List Nat) : (State.putBytes s n b k bytes).Good p := by
  unfold State.putBytes
  try dsimp only
  repeat' first
    | with_reducible assumption | with_reducible apply good_ite | with_reducible intro _ | with_reducible apply good_foldl
    | with_reducible apply good_foldl_snd | with_reducible apply good_foldl_snd2 | with_reducible apply good_foldl_fst
    | with_reducible apply State.put_good | with_reducible apply State.wroteNonets_good | dsimp only | split

theorem State.placeWord_good {s : State} (hs : State.Good p s) (n : Nat) (b : Nat) (slot : Nat) (w : Word) : (State.placeWord s n b slot w).2.Good p := by
  unfold State.placeWord
  try dsimp only
  repeat' first
    | with_reducible assumption | with_reducible apply good_ite | with_reducible apply good_ite_snd
    | with_reducible apply good_ite_snd2 | with_reducible apply good_ite_fst | with_reducible intro _
    | with_reducible apply State.bump_good | with_reducible apply State.putBytes_good | dsimp only | split

theorem State.writePortRam_good {s : State} (hs : State.Good p s) (n : Nat) (off : Nat) (v : Word) (en : BitVec 4) : (State.writePortRam s n off v en).Good p := by
  unfold State.writePortRam
  try dsimp only
  repeat' first
    | with_reducible assumption | with_reducible apply good_ite | with_reducible intro _
    | with_reducible apply State.put_good | with_reducible apply State.request_good | with_reducible apply State.setReg_good
    | with_reducible apply State.withdraw_good | with_reducible apply State.wroteNonets_good | dsimp only | split

end Sys2Proof.Machine
end

