-- ==== Sys2Proof/Laws/GoodEgress.lean ====
section
/-! SUPPORT. GoodEgress.lean: every function of Egress.lean keeps the tables sound. -/

namespace Sys2Proof.Machine

open Sys2Proof

set_option linter.unusedTactic false
set_option linter.unreachableTactic false
set_option linter.unusedSimpArgs false
set_option linter.unusedVariables false

variable {p : List Instr}

theorem State.delivered_good {s : State} (hs : State.Good p s) (r : Nat) (frame : Nat) : (State.delivered s r frame).Good p := by
  unfold State.delivered
  try dsimp only
  repeat' first
    | with_reducible assumption | with_reducible intro _ | with_reducible apply State.setImg_good | dsimp only

theorem State.egressResult_good {s : State} (hs : State.Good p s) (r : Nat) (frame : Nat) (st : Nat) : (State.egressResult s r frame st).Good p := by
  unfold State.egressResult
  try dsimp only
  repeat' first
    | with_reducible assumption | with_reducible apply good_ite | with_reducible intro _
    | with_reducible apply State.delivered_good | dsimp only | split

theorem State.sendToQueue_good {s : State} (hs : State.Good p s) (z1 : EgressPass) (r : Nat) : (State.sendToQueue s z1 r).Good p := by
  unfold State.sendToQueue
  try dsimp only
  repeat' first
    | with_reducible assumption | with_reducible apply good_ite | with_reducible intro _
    | with_reducible apply State.awaitGrant_good | with_reducible apply State.bump_good
    | with_reducible apply State.egressResult_good | with_reducible apply State.enqueueAs_good
    | with_reducible apply State.touchDesc_good | (refine good_of_snd (by with_reducible assumption) ?_) | dsimp only
    | split

theorem State.sendToPort_good {s : State} (hs : State.Good p s) (z1 : EgressPass) (r : Nat) (got : List Nat) : (State.sendToPort s z1 r got).1.Good p := by
  unfold State.sendToPort
  try dsimp only
  repeat' first
    | with_reducible assumption | with_reducible apply good_ite | with_reducible apply good_ite_snd
    | with_reducible apply good_ite_snd2 | with_reducible apply good_ite_fst | with_reducible intro _
    | with_reducible apply State.delivered_good | with_reducible apply State.placeWord_good
    | (refine good_of_snd (by with_reducible assumption) ?_) | (refine good_of_fst (by with_reducible assumption) ?_)
    | dsimp only | split

theorem State.publishRecord_good {s : State} (hs : State.Good p s) (z1 : EgressPass) (r : Nat) (got : List Nat) (told : Bool) : (State.publishRecord s z1 r got told).1.Good p := by
  unfold State.publishRecord
  try dsimp only
  repeat' first
    | with_reducible assumption | with_reducible apply good_ite | with_reducible apply good_ite_snd
    | with_reducible apply good_ite_snd2 | with_reducible apply good_ite_fst | with_reducible intro _
    | with_reducible apply State.bump_good | with_reducible apply State.raise_good
    | with_reducible apply State.sendInfo_good | with_reducible apply State.sendToPort_good
    | with_reducible apply State.sendToQueue_good | (refine good_of_fst (by with_reducible assumption) ?_) | dsimp only
    | split

theorem State.egressPublish_good {s : State} (hs : State.Good p s) : (State.egressPublish s).Good p := by
  unfold State.egressPublish
  try dsimp only
  repeat' first
    | with_reducible assumption | with_reducible intro _ | with_reducible apply good_foldl
    | with_reducible apply good_foldl_snd | with_reducible apply good_foldl_snd2 | with_reducible apply good_foldl_fst
    | with_reducible apply State.publishRecord_good | with_reducible apply State.request_good
    | simp only [good_mk, good_proj] | (refine good_of_fst (by with_reducible assumption) ?_) | dsimp only | split

theorem State.grant_good {s : State} (hs : State.Good p s) (q : Nat) (deq : Bool) : (State.grant s q deq).Good p := by
  unfold State.grant
  try dsimp only
  repeat' first
    | with_reducible assumption | with_reducible apply good_ite | with_reducible intro _
    | with_reducible apply State.bump_good | with_reducible apply State.egressResult_good
    | with_reducible apply State.enqueueAs_good | with_reducible apply State.grantNext_good
    | with_reducible apply State.reserve_good | with_reducible apply State.touchDesc_good | simp only [good_mk, good_proj]
    | (refine good_of_snd (by with_reducible assumption) ?_) | dsimp only | split

end Sys2Proof.Machine
end

