-- ==== Sys2Proof/Laws/GoodFirn.lean ====
section
/-! SUPPORT. GoodFirn.lean: every function of Firn.lean keeps the tables sound. -/

namespace Sys2Proof.Machine

open Sys2Proof

set_option linter.unusedTactic false
set_option linter.unreachableTactic false
set_option linter.unusedSimpArgs false
set_option linter.unusedVariables false

variable {p : List Instr}

theorem State.noteHotTime_good {s : State} (hs : State.Good p s) : (State.noteHotTime s).Good p := by
  unfold State.noteHotTime
  try dsimp only
  repeat' first
    | with_reducible assumption | with_reducible intro _ | with_reducible apply State.put_good
    | with_reducible apply State.putB_good | dsimp only | split

theorem State.setBlock_good {s : State} (hs : State.Good p s) (b : FlashBlock) : (State.setBlock s b).Good p := by
  unfold State.setBlock
  try dsimp only
  repeat' first
    | with_reducible assumption | with_reducible intro _ | simp only [good_mk, good_proj] | dsimp only

theorem State.reindex_good {s : State} (hs : State.Good p s) : (State.reindex s).Good p := by
  unfold State.reindex
  try dsimp only
  repeat' first
    | with_reducible assumption | with_reducible intro _ | simp only [good_mk, good_proj] | dsimp only

theorem State.noteFlash_good {s : State} (hs : State.Good p s) : (State.noteFlash s).Good p := by
  unfold State.noteFlash
  try dsimp only
  repeat' first
    | with_reducible assumption | with_reducible intro _ | with_reducible apply good_foldl
    | with_reducible apply good_foldl_snd | with_reducible apply good_foldl_snd2 | with_reducible apply good_foldl_fst
    | with_reducible apply State.put_good | dsimp only

theorem State.takeSeq_good {s : State} (hs : State.Good p s) (n : Nat) : (State.takeSeq s n).Good p := by
  unfold State.takeSeq
  try dsimp only
  repeat' first
    | with_reducible assumption | with_reducible intro _ | with_reducible apply State.setReg_good | dsimp only

theorem State.skipPage_good {s : State} (hs : State.Good p s) (page : Nat) : (State.skipPage s page).Good p := by
  unfold State.skipPage
  try dsimp only
  repeat' first
    | with_reducible assumption | with_reducible intro _ | with_reducible apply State.bump_good
    | with_reducible apply State.sendInfo_good | dsimp only

theorem State.eraseBlock_good {s : State} (hs : State.Good p s) (n : Nat) : (State.eraseBlock s n).Good p := by
  unfold State.eraseBlock
  try dsimp only
  repeat' first
    | with_reducible assumption | with_reducible intro _ | with_reducible apply State.setBlock_good
    | simp only [good_mk, good_proj] | dsimp only

theorem State.openBlock_good {s : State} (hs : State.Good p s) (h : Bool) (blank : Bool) : (State.openBlock s h blank).Good p := by
  unfold State.openBlock
  try dsimp only
  repeat' first
    | with_reducible assumption | with_reducible apply good_ite | with_reducible intro _
    | with_reducible apply State.eraseBlock_good | with_reducible apply State.setBlock_good
    | with_reducible apply State.skipPage_good | with_reducible apply State.takeSeq_good | simp only [good_mk, good_proj]
    | dsimp only | split

theorem State.writePage_good {s : State} (hs : State.Good p s) (w : FlashWrite) (blank : Bool) : (State.writePage s w blank).1.Good p := by
  unfold State.writePage
  try dsimp only
  repeat' first
    | with_reducible assumption | with_reducible apply good_ite | with_reducible apply good_ite_snd
    | with_reducible apply good_ite_snd2 | with_reducible apply good_ite_fst | with_reducible intro _
    | with_reducible apply State.openBlock_good | with_reducible apply State.reindex_good
    | with_reducible apply State.setBlock_good | with_reducible apply State.skipPage_good | simp only [good_mk, good_proj]
    | (refine good_of_fst (by with_reducible assumption) ?_) | dsimp only | split

theorem State.writeNext_good {s : State} (hs : State.Good p s) (todo : List FlashWrite) (blank : Bool) : (State.writeNext s todo blank).1.Good p := by
  unfold State.writeNext
  try dsimp only
  repeat' first
    | with_reducible assumption | with_reducible intro _ | with_reducible apply State.writePage_good
    | (refine good_of_fst (by with_reducible assumption) ?_) | dsimp only | split

theorem State.keepEnd_good {s : State} (hs : State.Good p s) (st : Nat) : (State.keepEnd s st).Good p := by
  unfold State.keepEnd
  try dsimp only
  repeat' first
    | with_reducible assumption | with_reducible apply good_ite | with_reducible intro _
    | with_reducible apply State.put_good | with_reducible apply State.raise_good | dsimp only | split

theorem State.keepRead_good {s : State} (hs : State.Good p s) (key : Nat) (badA : Bool) (badB : Bool) : (State.keepRead s key badA badB).Good p := by
  unfold State.keepRead
  try dsimp only
  repeat' first
    | with_reducible assumption | with_reducible apply good_ite | with_reducible intro _ | with_reducible apply good_foldl
    | with_reducible apply good_foldl_snd | with_reducible apply good_foldl_snd2 | with_reducible apply good_foldl_fst
    | with_reducible apply State.bump_good | with_reducible apply State.keepEnd_good
    | with_reducible apply State.sendInfo_good | with_reducible apply State.writeRaw_good | dsimp only | split

theorem State.startCommit_good {s : State} (hs : State.Good p s) (entries : List (Nat × List Word)) : (State.startCommit s entries).Good p := by
  unfold State.startCommit
  try dsimp only
  repeat' first
    | with_reducible assumption | with_reducible intro _ | with_reducible apply State.raise_good
    | with_reducible apply State.takeSeq_good | simp only [good_mk, good_proj] | dsimp only

theorem State.tryCommit_good {s : State} (hs : State.Good p s) (entries : List (Nat × List Word)) : (State.tryCommit s entries).Good p := by
  unfold State.tryCommit
  try dsimp only
  repeat' first
    | with_reducible assumption | with_reducible apply good_ite | with_reducible intro _
    | with_reducible apply State.bump_good | with_reducible apply State.keepEnd_good
    | with_reducible apply State.startCommit_good | dsimp only | split

theorem State.keepCommit_good {s : State} (hs : State.Good p s) (glen : Nat) : (State.keepCommit s glen).Good p := by
  unfold State.keepCommit
  try dsimp only
  repeat' first
    | with_reducible assumption | with_reducible apply good_ite | with_reducible intro _
    | with_reducible apply State.keepEnd_good | with_reducible apply State.tryCommit_good | dsimp only | split

theorem State.keepSetPassword_good {s : State} (hs : State.Good p s) (write : Bool) : (State.keepSetPassword s write).Good p := by
  unfold State.keepSetPassword
  try dsimp only
  repeat' first
    | with_reducible assumption | with_reducible apply good_ite | with_reducible intro _
    | with_reducible apply State.keepEnd_good | with_reducible apply State.tryCommit_good | dsimp only | split

theorem State.keepUnlock_good {s : State} (hs : State.Good p s) (write : Bool) : (State.keepUnlock s write).Good p := by
  unfold State.keepUnlock
  try dsimp only
  repeat' first
    | with_reducible assumption | with_reducible apply good_ite | with_reducible intro _
    | with_reducible apply State.keepEnd_good | with_reducible apply State.put_good | with_reducible apply State.raise_good
    | dsimp only | split

theorem State.keepLock_good {s : State} (hs : State.Good p s) : (State.keepLock s).Good p := by
  unfold State.keepLock
  try dsimp only
  repeat' first
    | with_reducible assumption | with_reducible intro _ | with_reducible apply State.keepEnd_good
    | with_reducible apply State.put_good | dsimp only

theorem State.requestSave_good {s : State} (hs : State.Good p s) : (State.requestSave s).Good p := by
  unfold State.requestSave
  try dsimp only
  repeat' first
    | with_reducible assumption | with_reducible apply good_ite | with_reducible intro _ | simp only [good_mk, good_proj]
    | dsimp only | split

theorem State.keepHotsave_good {s : State} (hs : State.Good p s) : (State.keepHotsave s).Good p := by
  unfold State.keepHotsave
  try dsimp only
  repeat' first
    | with_reducible assumption | with_reducible apply good_ite | with_reducible intro _
    | with_reducible apply State.keepEnd_good | with_reducible apply State.raise_good
    | with_reducible apply State.requestSave_good | simp only [good_mk, good_proj] | dsimp only | split

theorem State.keepFormat_good {s : State} (hs : State.Good p s) : (State.keepFormat s).Good p := by
  unfold State.keepFormat
  try dsimp only
  repeat' first
    | with_reducible assumption | with_reducible apply good_ite | with_reducible intro _
    | with_reducible apply State.keepEnd_good | with_reducible apply State.raise_good | simp only [good_mk, good_proj]
    | dsimp only | split

theorem State.keepRun_good {s : State} (hs : State.Good p s) (c : FirnHeld) : (State.keepRun s c).Good p := by
  unfold State.keepRun
  try dsimp only
  repeat' first
    | with_reducible assumption | with_reducible intro _ | with_reducible apply State.keepCommit_good
    | with_reducible apply State.keepEnd_good | with_reducible apply State.keepFormat_good
    | with_reducible apply State.keepHotsave_good | with_reducible apply State.keepLock_good
    | with_reducible apply State.keepRead_good | with_reducible apply State.keepSetPassword_good
    | with_reducible apply State.keepUnlock_good | dsimp only | split

theorem State.writeKeep_good {s : State} (hs : State.Good p s) (c : FirnHeld) : (State.writeKeep s c).Good p := by
  unfold State.writeKeep
  try dsimp only
  repeat' first
    | with_reducible assumption | with_reducible apply good_ite | with_reducible intro _
    | with_reducible apply State.keepEnd_good | with_reducible apply State.keepRun_good
    | with_reducible apply State.raise_good | simp only [good_mk, good_proj] | dsimp only | split

theorem State.writeKeepCmd_good {s : State} (hs : State.Good p s) (op : Nat) (arg : Nat) : (State.writeKeepCmd s op arg).Good p := by
  unfold State.writeKeepCmd
  try dsimp only
  repeat' first
    | with_reducible assumption | with_reducible intro _ | with_reducible apply State.writeKeep_good | dsimp only

theorem State.commitPage_good {s : State} (hs : State.Good p s) (todo : List FlashWrite) (blank : Bool) : (State.commitPage s todo blank).Good p := by
  unfold State.commitPage
  try dsimp only
  repeat' first
    | with_reducible assumption | with_reducible intro _ | with_reducible apply State.keepEnd_good
    | with_reducible apply State.writeNext_good | simp only [good_mk, good_proj]
    | (refine good_of_fst (by with_reducible assumption) ?_) | dsimp only | split

theorem State.formatBlock_good {s : State} (hs : State.Good p s) (n : Nat) : (State.formatBlock s n).Good p := by
  unfold State.formatBlock
  try dsimp only
  repeat' first
    | with_reducible assumption | with_reducible apply good_ite | with_reducible intro _
    | with_reducible apply State.eraseBlock_good | with_reducible apply State.keepEnd_good
    | with_reducible apply State.reindex_good | simp only [good_mk, good_proj] | dsimp only | split

theorem State.taskPage_good {s : State} (hs : State.Good p s) (task : FirnTask) (blank : Bool) : (State.taskPage s task blank).Good p := by
  unfold State.taskPage
  try dsimp only
  repeat' first
    | with_reducible assumption | with_reducible intro _ | with_reducible apply State.eraseBlock_good
    | with_reducible apply State.reindex_good | with_reducible apply State.writeNext_good | simp only [good_mk, good_proj]
    | (refine good_of_fst (by with_reducible assumption) ?_) | dsimp only | split

theorem State.hotSupply_good {s : State} (hs : State.Good p s) : (State.hotSupply s).Good p := by
  unfold State.hotSupply
  try dsimp only
  repeat' first
    | with_reducible assumption | with_reducible apply good_ite | with_reducible intro _ | simp only [good_mk, good_proj]
    | dsimp only | split

theorem State.hotPrepare_good {s : State} (hs : State.Good p s) (blank : Bool) : (State.hotPrepare s blank).Good p := by
  unfold State.hotPrepare
  try dsimp only
  repeat' first
    | with_reducible assumption | with_reducible apply good_ite | with_reducible intro _
    | with_reducible apply State.hotSupply_good | with_reducible apply State.skipPage_good | simp only [good_mk, good_proj]
    | dsimp only | split

theorem State.takeSlot_good {s : State} (hs : State.Good p s) (w : HotWrite) : (State.takeSlot s w).Good p := by
  unfold State.takeSlot
  try dsimp only
  repeat' first
    | with_reducible assumption | with_reducible intro _ | simp only [good_mk, good_proj] | dsimp only | split

theorem State.hotPage_good {s : State} (hs : State.Good p s) (w : HotWrite) (blank : Bool) : (State.hotPage s w blank).Good p := by
  unfold State.hotPage
  try dsimp only
  repeat' first
    | with_reducible assumption | with_reducible apply good_ite | with_reducible intro _
    | with_reducible apply State.hotPrepare_good | with_reducible apply State.hotSupply_good
    | with_reducible apply State.keepEnd_good | with_reducible apply State.raise_good
    | with_reducible apply State.takeSlot_good | simp only [good_mk, good_proj] | dsimp only | split

theorem State.runHeld_good {s : State} (hs : State.Good p s) : (State.runHeld s).Good p := by
  unfold State.runHeld
  try dsimp only
  repeat' first
    | with_reducible assumption | with_reducible intro _ | with_reducible apply State.keepRun_good
    | with_reducible apply State.put_good | simp only [good_mk, good_proj] | dsimp only | split

theorem State.flashOp_good {s : State} (hs : State.Good p s) (blank : Bool) : (State.flashOp s blank).Good p := by
  unfold State.flashOp
  try dsimp only
  repeat' first
    | with_reducible assumption | with_reducible apply good_ite | with_reducible intro _
    | with_reducible apply State.commitPage_good | with_reducible apply State.formatBlock_good
    | with_reducible apply State.hotPage_good | with_reducible apply State.hotPrepare_good
    | with_reducible apply State.noteFlash_good | with_reducible apply State.runHeld_good
    | with_reducible apply State.taskPage_good | dsimp only | split

theorem State.flashDone_good {s : State} (hs : State.Good p s) (blank : Bool) : (State.flashDone s blank).Good p := by
  unfold State.flashDone
  try dsimp only
  repeat' first
    | with_reducible assumption | with_reducible apply good_ite | with_reducible intro _
    | with_reducible apply State.flashOp_good | simp only [good_mk, good_proj] | dsimp only | split

theorem State.writeKeepCfg_good {s : State} (hs : State.Good p s) (v : Word) : (State.writeKeepCfg s v).Good p := by
  unfold State.writeKeepCfg
  try dsimp only
  repeat' first
    | with_reducible assumption | with_reducible apply good_ite | with_reducible intro _
    | with_reducible apply State.noteHotTime_good | with_reducible apply State.put_good
    | with_reducible apply State.raise_good | simp only [good_mk, good_proj] | dsimp only | split

theorem State.storeReady_good {s : State} (hs : State.Good p s) : (State.storeReady s).Good p := by
  unfold State.storeReady
  try dsimp only
  repeat' first
    | with_reducible assumption | with_reducible apply good_ite | with_reducible intro _ | with_reducible apply good_foldl
    | with_reducible apply good_foldl_snd | with_reducible apply good_foldl_snd2 | with_reducible apply good_foldl_fst
    | with_reducible apply State.noteFlash_good | with_reducible apply State.raise_good
    | with_reducible apply State.reindex_good | with_reducible apply State.setReg_good | simp only [good_mk, good_proj]
    | dsimp only | split

theorem State.pfWarnRise_good {s : State} (hs : State.Good p s) : (State.pfWarnRise s).Good p := by
  unfold State.pfWarnRise
  try dsimp only
  repeat' first
    | with_reducible assumption | with_reducible apply good_ite | with_reducible intro _
    | with_reducible apply State.requestSave_good | simp only [good_mk, good_proj] | dsimp only | split

theorem State.pfWarnFall_good {s : State} (hs : State.Good p s) : (State.pfWarnFall s).Good p := by
  unfold State.pfWarnFall
  try dsimp only
  repeat' first
    | with_reducible assumption | with_reducible intro _ | simp only [good_mk, good_proj] | dsimp only

theorem State.pfOkSet_good {s : State} (hs : State.Good p s) (b : Bool) : (State.pfOkSet s b).Good p := by
  unfold State.pfOkSet
  try dsimp only
  repeat' first
    | with_reducible assumption | with_reducible intro _ | simp only [good_mk, good_proj] | dsimp only

theorem State.hotSave_good {s : State} (hs : State.Good p s) : (State.hotSave s).Good p := by
  unfold State.hotSave
  try dsimp only
  repeat' first
    | with_reducible assumption | with_reducible apply good_ite | with_reducible intro _
    | with_reducible apply State.takeSeq_good | with_reducible apply State.takeSlot_good | simp only [good_mk, good_proj]
    | dsimp only | split

theorem State.reclaim_good {s : State} (hs : State.Good p s) (h : Bool) : (State.reclaim s h).Good p := by
  unfold State.reclaim
  try dsimp only
  repeat' first
    | with_reducible assumption | with_reducible apply good_ite | with_reducible intro _ | simp only [good_mk, good_proj]
    | dsimp only | split

theorem State.twinRewrite_good {s : State} (hs : State.Good p s) (key : Nat) : (State.twinRewrite s key).Good p := by
  unfold State.twinRewrite
  try dsimp only
  repeat' first
    | with_reducible assumption | with_reducible apply good_ite | with_reducible intro _
    | with_reducible apply State.takeSeq_good | simp only [good_mk, good_proj] | dsimp only | split

theorem State.loseRecord_good {s : State} (hs : State.Good p s) (w : Word) : (State.loseRecord s w).Good p := by
  unfold State.loseRecord
  try dsimp only
  repeat' first
    | with_reducible assumption | with_reducible intro _ | with_reducible apply State.raise_good
    | with_reducible apply State.sendInfo_good | dsimp only

theorem State.handRecord_good {s : State} (hs : State.Good p s) (w : Word) : (State.handRecord s w).Good p := by
  unfold State.handRecord
  try dsimp only
  repeat' first
    | with_reducible assumption | with_reducible apply good_ite | with_reducible intro _
    | with_reducible apply State.loseRecord_good | simp only [good_mk, good_proj] | dsimp only | split

theorem State.appendRecord_good {s : State} (hs : State.Good p s) (blank : Bool) : (State.appendRecord s blank).Good p := by
  unfold State.appendRecord
  try dsimp only
  repeat' first
    | with_reducible assumption | with_reducible apply good_ite | with_reducible intro _
    | with_reducible apply State.loseRecord_good | with_reducible apply State.skipPage_good | simp only [good_mk, good_proj]
    | dsimp only | split

end Sys2Proof.Machine
end

