-- ==== Sys2Proof/Laws/GoodRepair.lean ====
section
/-! SUPPORT. GoodRepair.lean: every function of Repair.lean keeps the tables sound. -/

namespace Sys2Proof.Machine

open Sys2Proof

set_option linter.unusedTactic false
set_option linter.unreachableTactic false
set_option linter.unusedSimpArgs false
set_option linter.unusedVariables false

variable {p : List Instr}

theorem State.coldEntry_good {s : State} (hs : State.Good p s) (c : Nat) (info : Nat) : (State.coldEntry s c info).Good p := by
  unfold State.coldEntry
  try dsimp only
  repeat' first
    | with_reducible assumption | with_reducible intro _ | with_reducible apply good_foldl
    | with_reducible apply good_foldl_snd | with_reducible apply good_foldl_snd2 | with_reducible apply good_foldl_fst
    | with_reducible apply State.modCell_good | with_reducible apply State.put_good
    | with_reducible apply State.retireLoad_good | with_reducible apply State.setReg_good | simp only [good_mk, good_proj]
    | dsimp only | split

theorem State.dropPin_good {s : State} (hs : State.Good p s) (src : Nat) : (State.dropPin s src).Good p := by
  unfold State.dropPin
  try dsimp only
  repeat' first
    | with_reducible assumption | with_reducible intro _ | simp only [good_mk, good_proj] | dsimp only

theorem State.spareIdle_good {s : State} (hs : State.Good p s) (k : Nat) : (State.spareIdle s k).Good p := by
  unfold State.spareIdle
  try dsimp only
  repeat' first
    | with_reducible assumption | with_reducible apply good_ite | with_reducible intro _
    | with_reducible apply State.put_good | simp only [good_mk, good_proj] | dsimp only | split

theorem State.rprIrq_good {s : State} (hs : State.Good p s) (bit : Nat) : (State.rprIrq s bit).Good p := by
  unfold State.rprIrq
  try dsimp only
  repeat' first
    | with_reducible assumption | with_reducible intro _ | with_reducible apply State.put_good | dsimp only

theorem State.cmdEnd_good {s : State} (hs : State.Good p s) (st : Nat) : (State.cmdEnd s st).Good p := by
  unfold State.cmdEnd
  try dsimp only
  repeat' first
    | with_reducible assumption | with_reducible intro _ | with_reducible apply State.put_good | dsimp only

theorem State.abortMigration_good {s : State} (hs : State.Good p s) (k : Nat) : (State.abortMigration s k).Good p := by
  unfold State.abortMigration
  try dsimp only
  repeat' first
    | with_reducible assumption | with_reducible intro _ | with_reducible apply State.endMigration_good
    | with_reducible apply State.raise_good | with_reducible apply State.rprIrq_good
    | with_reducible apply State.sendInfo_good | with_reducible apply State.spareIdle_good | dsimp only | split

theorem State.warmNow_good {s : State} (hs : State.Good p s) (c : Nat) : (State.warmNow s c).Good p := by
  unfold State.warmNow
  try dsimp only
  repeat' first
    | with_reducible assumption | with_reducible apply good_ite | with_reducible intro _
    | with_reducible apply State.abortMigration_good | with_reducible apply State.cancelQueues_good
    | with_reducible apply State.coldEntry_good | with_reducible apply State.dropPin_good
    | with_reducible apply State.irqComplete_good | with_reducible apply State.modCell_good
    | with_reducible apply State.put_good | with_reducible apply State.retireLoad_good | simp only [good_mk, good_proj]
    | dsimp only | split

theorem State.warmReset_good {s : State} (hs : State.Good p s) (c : Nat) : (State.warmReset s c).Good p := by
  unfold State.warmReset
  try dsimp only
  repeat' first
    | with_reducible assumption | with_reducible apply good_ite | with_reducible intro _
    | with_reducible apply State.modCell_good | with_reducible apply State.put_good
    | with_reducible apply State.warmNow_good | simp only [good_mk, good_proj] | dsimp only | split

theorem State.afterDrain_good {s : State} (hs : State.Good p s) (c : Nat) : (State.afterDrain s c).Good p := by
  unfold State.afterDrain
  try dsimp only
  repeat' first
    | with_reducible assumption | with_reducible apply good_ite | with_reducible intro _
    | with_reducible apply State.warmNow_good | dsimp only | split

theorem State.snapshot_good {s : State} (hs : State.Good p s) (c : Nat) : (State.snapshot s c).Good p := by
  unfold State.snapshot
  try dsimp only
  repeat' first
    | with_reducible assumption | with_reducible apply good_ite | with_reducible intro _ | simp only [good_mk, good_proj]
    | dsimp only | split

theorem State.snapshotDrained_good {s : State} (hs : State.Good p s) (k : Nat) : (State.snapshotDrained s k).Good p := by
  unfold State.snapshotDrained
  try dsimp only
  repeat' first
    | with_reducible assumption | with_reducible intro _ | simp only [good_mk, good_proj] | dsimp only | split

theorem State.copyStore_good {s : State} (hs : State.Good p s) (k : Nat) (a : Nat) (b : Nat) : (State.copyStore s k a b).Good p := by
  unfold State.copyStore
  exact { hs with
    mem := swf_copy (g := fun x => x - storeKey k a 0 + storeKey k b 0) (swf_filter _ hs.mem)
      (fun e he => swf_ne hs.mem e (List.mem_filter.1 he).1)
    tagA := setWf_copy (g := fun x => x - storeKey k a 0 + storeKey k b 0) (setWf_filter _ hs.tagA)
    tagB := setWf_copy (g := fun x => x - storeKey k a 0 + storeKey k b 0) (setWf_filter _ hs.tagB) }

theorem State.spareArmed_good {s : State} (hs : State.Good p s) (k : Nat) : (State.spareArmed s k).Good p := by
  unfold State.spareArmed
  try dsimp only
  repeat' first
    | with_reducible assumption | with_reducible apply good_ite | with_reducible intro _
    | with_reducible apply State.copyStore_good | with_reducible apply State.put_good | dsimp only | split

theorem State.writeSpare_good {s : State} (hs : State.Good p s) (k : Nat) (v : Word) : (State.writeSpare s k v).Good p := by
  unfold State.writeSpare
  try dsimp only
  repeat' first
    | with_reducible assumption | with_reducible apply good_ite | with_reducible intro _
    | with_reducible apply State.put_good | with_reducible apply State.spareIdle_good | dsimp only | split

theorem State.clearEntryTags_good {s : State} (hs : State.Good p s) (c : Nat) : (State.clearEntryTags s c).Good p :=
  { hs with ctlTagA := setWf_filter _ hs.ctlTagA, ctlTagB := setWf_filter _ hs.ctlTagB }

theorem State.loadSnapshot_good {s : State} (hs : State.Good p s) (c : Nat) (snap : Snapshot) : (State.loadSnapshot s c snap).Good p := by
  unfold State.loadSnapshot
  try dsimp only
  repeat' first
    | with_reducible assumption | with_reducible apply good_ite | with_reducible intro _ | with_reducible apply good_foldl
    | with_reducible apply good_foldl_snd | with_reducible apply good_foldl_snd2 | with_reducible apply good_foldl_fst
    | with_reducible apply State.clearEntryTags_good | with_reducible apply State.irqComplete_good
    | with_reducible apply State.modCell_good | with_reducible apply State.setEntryTag_good
    | with_reducible apply State.setReg_good | simp only [good_mk, good_proj] | dsimp only | split

theorem State.wakeAll_good {s : State} (hs : State.Good p s) (c : Nat) : (State.wakeAll s c).Good p := by
  unfold State.wakeAll
  try dsimp only
  repeat' first
    | with_reducible assumption | with_reducible intro _ | with_reducible apply good_foldl
    | with_reducible apply good_foldl_snd | with_reducible apply good_foldl_snd2 | with_reducible apply good_foldl_fst
    | with_reducible apply State.wakeLevel_good | dsimp only

theorem State.completeMigration_good {s : State} (hs : State.Good p s) (m : Migration) : (State.completeMigration s m).Good p := by
  unfold State.completeMigration
  try dsimp only
  repeat' first
    | with_reducible assumption | with_reducible apply good_ite | with_reducible intro _ | with_reducible apply good_foldl
    | with_reducible apply good_foldl_snd | with_reducible apply good_foldl_snd2 | with_reducible apply good_foldl_fst
    | with_reducible apply State.abandon_good | with_reducible apply State.bump_good
    | with_reducible apply State.cmdEnd_good | with_reducible apply State.dropPin_good
    | with_reducible apply State.handRecord_good | with_reducible apply State.loadSnapshot_good
    | with_reducible apply State.modCell_good | with_reducible apply State.noteSpares_good
    | with_reducible apply State.put_good | with_reducible apply State.retireLoad_good
    | with_reducible apply State.retireSlot_good | with_reducible apply State.rprIrq_good
    | with_reducible apply State.sendInfo_good | with_reducible apply State.setReg_good
    | with_reducible apply State.spareIdle_good | with_reducible apply State.wakeAll_good | simp only [good_mk, good_proj]
    | dsimp only | split

theorem State.moveAllFailed_good {s : State} (hs : State.Good p s) : (State.moveAllFailed s).Good p := by
  unfold State.moveAllFailed
  try dsimp only
  repeat' first
    | with_reducible assumption | with_reducible apply good_ite | with_reducible intro _ | with_reducible apply good_foldl
    | with_reducible apply good_foldl_snd | with_reducible apply good_foldl_snd2 | with_reducible apply good_foldl_fst
    | with_reducible apply State.moveFailed_good | dsimp only | split

theorem State.migrateDue_good {s : State} (hs : State.Good p s) : (State.migrateDue s).1.Good p := by
  unfold State.migrateDue
  try dsimp only
  repeat' first
    | with_reducible assumption | with_reducible intro _ | with_reducible apply good_foldl
    | with_reducible apply good_foldl_snd | with_reducible apply good_foldl_snd2 | with_reducible apply good_foldl_fst
    | with_reducible apply State.completeMigration_good | dsimp only

theorem State.migrateIdle_good {s : State} (hs : State.Good p s) : (State.migrateIdle s).Good p := by
  unfold State.migrateIdle
  try dsimp only
  repeat' first
    | with_reducible assumption | with_reducible apply good_ite | with_reducible intro _
    | with_reducible apply State.migrateDue_good | dsimp only | split

theorem State.copyEnd_good {s : State} (hs : State.Good p s) (k : Nat) : (State.copyEnd s k).Good p := by
  unfold State.copyEnd
  try dsimp only
  repeat' first
    | with_reducible assumption | with_reducible apply good_ite | with_reducible intro _
    | with_reducible apply State.copyStore_good | with_reducible apply State.migrateIdle_good
    | simp only [good_mk, good_proj] | dsimp only | split

theorem State.markDefective_good {s : State} (hs : State.Good p s) (k : Nat) : (State.markDefective s k).Good p := by
  unfold State.markDefective
  try dsimp only
  repeat' first
    | with_reducible assumption | with_reducible apply good_ite | with_reducible intro _ | with_reducible apply good_foldl
    | with_reducible apply good_foldl_snd | with_reducible apply good_foldl_snd2 | with_reducible apply good_foldl_fst
    | with_reducible apply State.dropPresented_good | with_reducible apply State.endMigration_good
    | with_reducible apply State.failCell_good | with_reducible apply State.noteSpares_good
    | with_reducible apply State.put_good | with_reducible apply State.raise_good
    | with_reducible apply State.retireLoad_good | with_reducible apply State.rprIrq_good
    | with_reducible apply State.sendInfo_good | with_reducible apply State.spareIdle_good | simp only [good_mk, good_proj]
    | dsimp only | split

theorem State.markDoomed_good {s : State} (hs : State.Good p s) : (State.markDoomed s).Good p := by
  unfold State.markDoomed
  try dsimp only
  repeat' first
    | with_reducible assumption | with_reducible intro _ | with_reducible apply good_foldl
    | with_reducible apply good_foldl_snd | with_reducible apply good_foldl_snd2 | with_reducible apply good_foldl_fst
    | with_reducible apply State.markDefective_good | simp only [good_mk, good_proj] | dsimp only

theorem State.checkError_good {s : State} (hs : State.Good p s) (k : Nat) (slot : Nat) : (State.checkError s k slot).Good p := by
  unfold State.checkError
  try dsimp only
  repeat' first
    | with_reducible assumption | with_reducible apply good_ite | with_reducible intro _
    | with_reducible apply State.failureEvent_good | with_reducible apply State.migrateIdle_good
    | with_reducible apply State.retireSpare_good | with_reducible apply State.send_good | simp only [good_mk, good_proj]
    | dsimp only | split

theorem State.rprCommand_good {s : State} (hs : State.Good p s) (f : State → State) (hf : ∀ v0, State.Good p v0 → (f v0).Good p) : (State.rprCommand s f).Good p := by
  unfold State.rprCommand
  try dsimp only
  repeat' first
    | with_reducible assumption | with_reducible apply good_ite | with_reducible intro _ | with_reducible apply hf
    | with_reducible apply State.raise_good | dsimp only | split

theorem State.cmdMigrate_good {s : State} (hs : State.Good p s) (c : Nat) : (State.cmdMigrate s c).Good p := by
  unfold State.cmdMigrate
  try dsimp only
  repeat' first
    | with_reducible assumption | with_reducible apply good_ite | with_reducible intro _
    | with_reducible apply State.beginMigration_good | with_reducible apply State.cmdEnd_good
    | with_reducible apply State.migrateIdle_good | with_reducible apply State.raise_good
    | with_reducible apply State.rprCommand_good | dsimp only | split

theorem State.cmdTest_good {s : State} (hs : State.Good p s) (k : Nat) (slot : Nat) : (State.cmdTest s k slot).Good p := by
  unfold State.cmdTest
  try dsimp only
  repeat' first
    | with_reducible assumption | with_reducible apply good_ite | with_reducible intro _
    | with_reducible apply State.cmdEnd_good | with_reducible apply State.put_good | with_reducible apply State.raise_good
    | with_reducible apply State.rprCommand_good | simp only [good_mk, good_proj] | dsimp only | split

theorem State.cmdRestore_good {s : State} (hs : State.Good p s) (k : Nat) (slot : Nat) : (State.cmdRestore s k slot).Good p := by
  unfold State.cmdRestore
  try dsimp only
  repeat' first
    | with_reducible assumption | with_reducible apply good_ite | with_reducible intro _
    | with_reducible apply State.cmdEnd_good | with_reducible apply State.handRecord_good
    | with_reducible apply State.noteSpares_good | with_reducible apply State.put_good
    | with_reducible apply State.rprCommand_good | with_reducible apply State.spareIdle_good
    | simp only [good_mk, good_proj] | dsimp only | split

theorem State.writeRprCmd_good {s : State} (hs : State.Good p s) (op : Nat) (arg : Nat) : (State.writeRprCmd s op arg).Good p := by
  unfold State.writeRprCmd
  try dsimp only
  repeat' first
    | with_reducible assumption | with_reducible intro _ | with_reducible apply State.cmdEnd_good
    | with_reducible apply State.cmdMigrate_good | with_reducible apply State.cmdRestore_good
    | with_reducible apply State.cmdTest_good | with_reducible apply State.rprCommand_good | dsimp only | split

theorem State.locResult_good {s : State} (hs : State.Good p s) (l : Localise) (k : Nat) (slot : Nat) (pass : Bool) : (State.locResult s l k slot pass).Good p := by
  unfold State.locResult
  try dsimp only
  repeat' first
    | with_reducible assumption | with_reducible apply good_ite | with_reducible intro _
    | with_reducible apply State.failureEvent_good | with_reducible apply State.migrateIdle_good
    | simp only [good_mk, good_proj] | dsimp only | split

theorem State.testEnd_good {s : State} (hs : State.Good p s) (k : Nat) (slot : Nat) (pass : Bool) : (State.testEnd s k slot pass).Good p := by
  unfold State.testEnd
  try dsimp only
  repeat' first
    | with_reducible assumption | with_reducible apply good_ite | with_reducible intro _
    | with_reducible apply State.cmdEnd_good | with_reducible apply State.locResult_good
    | with_reducible apply State.sendInfo_good | with_reducible apply State.spareIdle_good | simp only [good_mk, good_proj]
    | dsimp only | split

theorem State.missFrame_good {s : State} (hs : State.Good p s) (c : Nat) : (State.missFrame s c).Good p := by
  unfold State.missFrame
  try dsimp only
  repeat' first
    | with_reducible assumption | with_reducible intro _ | with_reducible apply State.countOverrun_good
    | with_reducible apply State.modCell_good | simp only [good_mk, good_proj] | dsimp only

theorem State.localise_good {s : State} (hs : State.Good p s) (l : Localise) : (State.localise s l).Good p := by
  unfold State.localise
  try dsimp only
  repeat' first
    | with_reducible assumption | with_reducible apply good_ite | with_reducible intro _ | with_reducible apply good_foldl
    | with_reducible apply good_foldl_snd | with_reducible apply good_foldl_snd2 | with_reducible apply good_foldl_fst
    | with_reducible apply State.abandon_good | with_reducible apply State.failureEvent_good
    | with_reducible apply State.missFrame_good | with_reducible apply State.put_good
    | with_reducible apply State.rprIrq_good | with_reducible apply State.sendInfo_good | simp only [good_mk, good_proj]
    | dsimp only | split

theorem State.localiseAll_good {s : State} (hs : State.Good p s) : (State.localiseAll s).Good p := by
  unfold State.localiseAll
  try dsimp only
  repeat' first
    | with_reducible assumption | with_reducible intro _ | with_reducible apply good_foldl
    | with_reducible apply good_foldl_snd | with_reducible apply good_foldl_snd2 | with_reducible apply good_foldl_fst
    | with_reducible apply State.localise_good | dsimp only

theorem State.rotateSent_good {s : State} (hs : State.Good p s) : (State.rotateSent s).Good p := by
  unfold State.rotateSent
  try dsimp only
  repeat' first
    | with_reducible assumption | with_reducible intro _ | simp only [good_mk, good_proj] | dsimp only

theorem State.mendHidden_good {s : State} (hs : State.Good p s) (m : Nat) (row : Nat) : (State.mendHidden s m row).Good p := by
  unfold State.mendHidden
  try dsimp only
  repeat' first
    | with_reducible assumption | with_reducible intro _ | with_reducible apply State.modCell_good
    | with_reducible apply State.put_good | simp only [good_mk, good_proj] | dsimp only | split

theorem State.rowRepair_good {s : State} (hs : State.Good p s) : (State.rowRepair s).Good p := by
  unfold State.rowRepair
  try dsimp only
  repeat' first
    | with_reducible assumption | with_reducible apply good_ite | with_reducible intro _
    | with_reducible apply State.bump_good | with_reducible apply State.handRecord_good
    | with_reducible apply State.mendHidden_good | with_reducible apply State.migrateIdle_good
    | with_reducible apply State.noRow_good | with_reducible apply State.raise_good | with_reducible apply State.rprIrq_good
    | with_reducible apply State.sendRow_good | simp only [good_mk, good_proj]
    | with_reducible exact sound_tail_if (by assumption) (good_proj.2 hs) | dsimp only | split

theorem State.measure_good {s : State} (hs : State.Good p s) (k : Nat) (margin : Nat) (temp : Nat) : (State.measure s k margin temp).Good p := by
  unfold State.measure
  try dsimp only
  repeat' first
    | with_reducible assumption | with_reducible apply good_ite | with_reducible intro _
    | with_reducible apply State.put_good | dsimp only | split

theorem State.noteLimits_good {s : State} (hs : State.Good p s) (k : Nat) : (State.noteLimits s k).Good p := by
  unfold State.noteLimits
  try dsimp only
  repeat' first
    | with_reducible assumption | with_reducible apply good_ite | with_reducible intro _
    | with_reducible apply State.dropPin_good | with_reducible apply State.putB_good | dsimp only | split

theorem State.checkCritical_good {s : State} (hs : State.Good p s) (k : Nat) (temp : Nat) : (State.checkCritical s k temp).Good p := by
  unfold State.checkCritical
  try dsimp only
  repeat' first
    | with_reducible assumption | with_reducible apply good_ite | with_reducible intro _
    | with_reducible apply State.noteLimits_good | with_reducible apply State.send_good | simp only [good_mk, good_proj]
    | dsimp only | split

theorem State.limits_good {s : State} (hs : State.Good p s) (k : Nat) (margin : Nat) (temp : Nat) : (State.limits s k margin temp).Good p := by
  unfold State.limits
  try dsimp only
  repeat' first
    | with_reducible assumption | with_reducible apply good_ite | with_reducible intro _
    | with_reducible apply State.checkCritical_good | with_reducible apply State.noteLimits_good
    | simp only [good_mk, good_proj] | dsimp only | split

theorem State.lowerStep_good {s : State} (hs : State.Good p s) (k : Nat) (margin : Nat) (temp : Nat) : (State.lowerStep s k margin temp).Good p := by
  unfold State.lowerStep
  try dsimp only
  repeat' first
    | with_reducible assumption | with_reducible apply good_ite | with_reducible intro _
    | with_reducible apply State.bump_good | with_reducible apply State.limits_good
    | with_reducible apply State.measure_good | with_reducible apply State.noteLimits_good
    | with_reducible apply State.put_good | with_reducible apply State.rprIrq_good | with_reducible apply State.send_good
    | with_reducible apply State.sendInfo_good | simp only [good_mk, good_proj] | dsimp only | split

theorem State.monitorRecovery_good {s : State} (hs : State.Good p s) (k : Nat) (margin : Nat) (temp : Nat) : (State.monitorRecovery s k margin temp).Good p := by
  unfold State.monitorRecovery
  try dsimp only
  repeat' first
    | with_reducible assumption | with_reducible intro _ | with_reducible apply State.limits_good
    | with_reducible apply State.measure_good | dsimp only

theorem State.calibrate_good {s : State} (hs : State.Good p s) (k : Nat) (completed : Bool) : (State.calibrate s k completed).Good p := by
  unfold State.calibrate
  try dsimp only
  repeat' first
    | with_reducible assumption | with_reducible apply good_ite | with_reducible intro _
    | with_reducible apply State.bump_good | with_reducible apply State.sendInfo_good | dsimp only | split

theorem State.writeClk_good {s : State} (hs : State.Good p s) (k : Nat) (v : Word) : (State.writeClk s k v).Good p := by
  unfold State.writeClk
  try dsimp only
  repeat' first
    | with_reducible assumption | with_reducible apply good_ite | with_reducible intro _
    | with_reducible apply State.put_good | with_reducible apply State.raise_good | dsimp only | split

end Sys2Proof.Machine
end

