-- ==== Sys2Proof/Laws/GoodRun.lean ====
section
/-! SUPPORT. GoodRun.lean: every function of Run.lean keeps the tables sound. -/

namespace Sys2Proof.Machine

open Sys2Proof

set_option linter.unusedTactic false
set_option linter.unreachableTactic false
set_option linter.unusedSimpArgs false
set_option linter.unusedVariables false

variable {p : List Instr}

theorem State.readTimer_good {s : State} (hs : State.Good p s) (c : Nat) (n : Nat) : (State.readTimer s c n).Good p := by
  unfold State.readTimer
  try dsimp only
  repeat' first
    | with_reducible assumption | with_reducible apply good_ite | with_reducible intro _
    | with_reducible apply State.put_good | with_reducible apply State.tickFresh_good | dsimp only | split

theorem State.readTimers_good {s : State} (hs : State.Good p s) (k : Nat) : (State.readTimers s k).Good p := by
  unfold State.readTimers
  try dsimp only
  repeat' first
    | with_reducible assumption | with_reducible intro _ | with_reducible apply good_foldl
    | with_reducible apply good_foldl_snd | with_reducible apply good_foldl_snd2 | with_reducible apply good_foldl_fst
    | with_reducible apply State.eachCell_good | with_reducible apply State.readTimer_good | dsimp only

theorem State.noteOut_good {s : State} (hs : State.Good p s) (k : Nat) : (State.noteOut s k).Good p := by
  unfold State.noteOut
  try dsimp only
  repeat' first
    | with_reducible assumption | with_reducible intro _ | simp only [good_mk, good_proj] | dsimp only

theorem State.stopCluster_good {s : State} (hs : State.Good p s) (k : Nat) : (State.stopCluster s k).Good p := by
  unfold State.stopCluster
  try dsimp only
  repeat' first
    | with_reducible assumption | with_reducible apply good_ite | with_reducible intro _
    | with_reducible apply State.abortMigration_good | with_reducible apply State.eachCell_good
    | with_reducible apply State.noteOut_good | with_reducible apply State.put_good
    | with_reducible apply State.retireLoad_good | dsimp only | split

theorem State.stoppedReached_good {s : State} (hs : State.Good p s) (k : Nat) : (State.stoppedReached s k).Good p := by
  unfold State.stoppedReached
  try dsimp only
  repeat' first
    | with_reducible assumption | with_reducible apply good_ite | with_reducible intro _
    | with_reducible apply State.put_good | with_reducible apply State.readTimers_good | dsimp only | split

theorem State.dropLinks_good {s : State} (hs : State.Good p s) (c : Nat) : (State.dropLinks s c).Good p := by
  unfold State.dropLinks
  try dsimp only
  repeat' first
    | with_reducible assumption | with_reducible intro _ | with_reducible apply good_foldl
    | with_reducible apply good_foldl_snd | with_reducible apply good_foldl_snd2 | with_reducible apply good_foldl_fst
    | with_reducible apply State.modBank_good | with_reducible apply State.put_good | simp only [good_mk, good_proj]
    | dsimp only

theorem State.startCell_good {s : State} (hs : State.Good p s) (c : Nat) : (State.startCell s c).Good p := by
  unfold State.startCell
  try dsimp only
  repeat' first
    | with_reducible assumption | with_reducible apply good_ite | with_reducible intro _ | with_reducible apply good_foldl
    | with_reducible apply good_foldl_snd | with_reducible apply good_foldl_snd2 | with_reducible apply good_foldl_fst
    | with_reducible apply State.consume_good | with_reducible apply State.dropLinks_good
    | with_reducible apply State.irqComplete_good | with_reducible apply State.modCell_good
    | with_reducible apply State.put_good | with_reducible apply State.retireLoad_good
    | with_reducible apply State.setReg_good | simp only [good_mk, good_proj] | dsimp only | split

theorem State.startCluster_good {s : State} (hs : State.Good p s) (k : Nat) : (State.startCluster s k).Good p := by
  unfold State.startCluster
  try dsimp only
  repeat' first
    | with_reducible assumption | with_reducible apply good_ite | with_reducible intro _
    | with_reducible apply State.eachCell_good | with_reducible apply State.put_good | with_reducible apply State.raise_good
    | with_reducible apply State.startCell_good | dsimp only | split

theorem State.setMode_good {s : State} (hs : State.Good p s) (k : Nat) (mode : Nat) : (State.setMode s k mode).Good p := by
  unfold State.setMode
  try dsimp only
  repeat' first
    | with_reducible assumption | with_reducible apply good_ite | with_reducible intro _
    | with_reducible apply State.eachCell_good | with_reducible apply State.modCell_good
    | with_reducible apply State.put_good | with_reducible apply State.raise_good | simp only [good_mk, good_proj]
    | dsimp only | split

theorem State.writeRunCtl_good {s : State} (hs : State.Good p s) (k : Nat) (v : Word) : (State.writeRunCtl s k v).Good p := by
  unfold State.writeRunCtl
  try dsimp only
  repeat' first
    | with_reducible assumption | with_reducible apply good_ite | with_reducible intro _
    | with_reducible apply State.setMode_good | with_reducible apply State.startCluster_good
    | with_reducible apply State.stopCluster_good | dsimp only | split

theorem State.ldvLost_good {s : State} (hs : State.Good p s) (k : Nat) : (State.ldvLost s k).Good p := by
  unfold State.ldvLost
  try dsimp only
  repeat' first
    | with_reducible assumption | with_reducible apply good_ite | with_reducible intro _
    | with_reducible apply State.put_good | simp only [good_mk, good_proj] | dsimp only | split

theorem State.dropReports_good {s : State} (hs : State.Good p s) (k : Nat) : (State.dropReports s k).Good p := by
  unfold State.dropReports
  try dsimp only
  repeat' first
    | with_reducible assumption | with_reducible intro _ | simp only [good_mk, good_proj]
    | with_reducible apply sound_filter_msgs | dsimp only

theorem State.wipeCluster_good {s : State} (hs : State.Good p s) (k : Nat) : (State.wipeCluster s k).Good p := by
  unfold State.wipeCluster
  dsimp only
  apply State.dropReports_good
  have key : ∀ t : State, t.Good p →
      ((({ t.ldvLost k with ldv := { (t.ldvLost k).ldv with stores := serase k (t.ldvLost k).ldv.stores } } : State).put
        ⟨Reg.LDV_VALID_V.off, k, 1⟩ 0).setReg (cluBase k + 0x30) 0).Good p := by
    intro t ht
    apply State.setReg_good
    apply State.put_good
    simp only [good_mk, good_proj]
    exact State.ldvLost_good ht k
  have base : ∀ t : State, t.Good p → ((t.dropPresented k)).Good p := fun t ht => State.dropPresented_good ht k
  have all := key _ (base _ ({ hs with
    mem := swf_filter _ hs.mem, tagA := setWf_filter _ hs.tagA, tagB := setWf_filter _ hs.tagB, ctl := swf_filter _ hs.ctl,
    ctlTagA := setWf_filter _ hs.ctlTagA, ctlTagB := setWf_filter _ hs.ctlTagB,
    cells := swf_filter _ hs.cells } : State.Good p { s with
    mem := s.mem.filter (fun e => !inCluster k e.1), ecc := s.ecc.filter (fun e => !inCluster k e.1),
    tagA := s.tagA.filter (fun e => !inCluster k e), tagB := s.tagB.filter (fun e => !inCluster k e),
    ctl := s.ctl.filter (fun e => !inCellDomain k e.1), ctlTagA := s.ctlTagA.filter (fun e => !inCellDomain k e),
    ctlTagB := s.ctlTagB.filter (fun e => !inCellDomain k e),
    cells := s.cells.filter (fun e => decide (clusterOf e.1 ≠ k)) }))
  split
  · exact State.spareIdle_good all k
  · exact all

theorem State.freezeCycles_good {s : State} (hs : State.Good p s) (k : Nat) : (State.freezeCycles s k).Good p := by
  unfold State.freezeCycles
  try dsimp only
  repeat' first
    | with_reducible assumption | with_reducible apply good_ite | with_reducible intro _
    | with_reducible apply State.takeCycles_good | dsimp only | split

theorem State.enterOff_good {s : State} (hs : State.Good p s) (k : Nat) : (State.enterOff s k).Good p := by
  unfold State.enterOff
  try dsimp only
  repeat' first
    | with_reducible assumption | with_reducible apply good_ite | with_reducible intro _
    | with_reducible apply State.abortMigration_good | with_reducible apply State.cancelQueues_good
    | with_reducible apply State.eachCell_good | with_reducible apply State.freezeCycles_good
    | with_reducible apply State.irqComplete_good | with_reducible apply State.put_good
    | with_reducible apply State.raise_good | with_reducible apply State.wipeCluster_good | simp only [good_mk, good_proj]
    | dsimp only | split

theorem State.requestOff_good {s : State} (hs : State.Good p s) (k : Nat) : (State.requestOff s k).Good p := by
  unfold State.requestOff
  try dsimp only
  repeat' first
    | with_reducible assumption | with_reducible apply good_ite | with_reducible intro _
    | with_reducible apply State.enterOff_good | with_reducible apply State.put_good | with_reducible apply State.raise_good
    | simp only [good_mk, good_proj] | dsimp only | split

theorem State.requestRetain_good {s : State} (hs : State.Good p s) (k : Nat) : (State.requestRetain s k).Good p := by
  unfold State.requestRetain
  try dsimp only
  repeat' first
    | with_reducible assumption | with_reducible apply good_ite | with_reducible intro _
    | with_reducible apply State.put_good | simp only [good_mk, good_proj] | dsimp only | split

theorem State.retainEntry_good {s : State} (hs : State.Good p s) (k : Nat) : (State.retainEntry s k).Good p := by
  unfold State.retainEntry
  try dsimp only
  repeat' first
    | with_reducible assumption | with_reducible apply good_ite | with_reducible intro _
    | with_reducible apply State.leaveRetain_good | with_reducible apply State.put_good
    | with_reducible apply State.raise_good | with_reducible apply State.readTimers_good
    | with_reducible apply State.setReg_good | with_reducible apply State.takeCycles_good | simp only [good_mk, good_proj]
    | dsimp only | split

theorem State.wakeCluster_good {s : State} (hs : State.Good p s) (k : Nat) : (State.wakeCluster s k).Good p := by
  unfold State.wakeCluster
  try dsimp only
  repeat' first
    | with_reducible assumption | with_reducible apply good_ite | with_reducible intro _
    | with_reducible apply State.leaveRetain_good | with_reducible apply State.put_good | simp only [good_mk, good_proj]
    | dsimp only | split

theorem State.powerUp_good {s : State} (hs : State.Good p s) (k : Nat) : (State.powerUp s k).Good p := by
  unfold State.powerUp
  try dsimp only
  repeat' first
    | with_reducible assumption | with_reducible apply good_ite | with_reducible intro _
    | with_reducible apply State.eachCell_good | with_reducible apply State.present_good
    | with_reducible apply State.pump_good | with_reducible apply State.put_good
    | with_reducible apply State.wipeCluster_good | simp only [good_mk, good_proj] | dsimp only | split

theorem State.dozeEntry_good {s : State} (hs : State.Good p s) (k : Nat) : (State.dozeEntry s k).Good p := by
  unfold State.dozeEntry
  try dsimp only
  repeat' first
    | with_reducible assumption | with_reducible apply good_ite | with_reducible intro _
    | with_reducible apply State.put_good | dsimp only | split

theorem State.warmCluster_good {s : State} (hs : State.Good p s) (k : Nat) : (State.warmCluster s k).Good p := by
  unfold State.warmCluster
  try dsimp only
  repeat' first
    | with_reducible assumption | with_reducible intro _ | with_reducible apply State.eachCell_good
    | with_reducible apply State.ldvLost_good | with_reducible apply State.warmReset_good | dsimp only

theorem State.writePwrCtl_good {s : State} (hs : State.Good p s) (k : Nat) (v : Word) : (State.writePwrCtl s k v).Good p := by
  unfold State.writePwrCtl
  try dsimp only
  repeat' first
    | with_reducible assumption | with_reducible apply good_ite | with_reducible intro _
    | with_reducible apply State.put_good | with_reducible apply State.putB_good
    | with_reducible apply State.requestOff_good | with_reducible apply State.requestRetain_good
    | with_reducible apply State.wakeCluster_good | with_reducible apply State.warmCluster_good | dsimp only | split

theorem State.endEmulation_good {s : State} (hs : State.Good p s) : (State.endEmulation s).Good p := by
  unfold State.endEmulation
  try dsimp only
  repeat' first
    | with_reducible assumption | with_reducible apply good_ite | with_reducible intro _ | with_reducible apply good_foldl
    | with_reducible apply good_foldl_snd | with_reducible apply good_foldl_snd2 | with_reducible apply good_foldl_fst
    | with_reducible apply State.put_good | with_reducible apply State.wipeCluster_good | dsimp only | split

theorem State.afterStore_good {s : State} (hs : State.Good p s) (c : Nat) : (State.afterStore s c).Good p := by
  unfold State.afterStore
  try dsimp only
  repeat' first
    | with_reducible assumption | with_reducible apply good_ite | with_reducible intro _
    | with_reducible apply State.afterDrain_good | with_reducible apply State.enterOff_good | dsimp only | split

theorem State.noteLine_good {s : State} (hs : State.Good p s) (pa : Nat) : (State.noteLine s pa).Good p := by
  unfold State.noteLine
  try dsimp only
  repeat' first
    | with_reducible assumption | with_reducible intro _ | with_reducible apply State.bump_good
    | simp only [good_mk, good_proj] | dsimp only | split

theorem State.noteRetained_good {s : State} (hs : State.Good p s) (via : Option Nat) (pa : Nat) : (State.noteRetained s via pa).Good p := by
  unfold State.noteRetained
  try dsimp only
  repeat' first
    | with_reducible assumption | with_reducible apply good_ite | with_reducible intro _
    | with_reducible apply State.noteLine_good | dsimp only | split

theorem State.syncLines_good {s : State} (hs : State.Good p s) : (State.syncLines s).Good p := by
  unfold State.syncLines
  try dsimp only
  repeat' first
    | with_reducible assumption | with_reducible apply good_ite | with_reducible intro _ | with_reducible apply good_foldl
    | with_reducible apply good_foldl_snd | with_reducible apply good_foldl_snd2 | with_reducible apply good_foldl_fst
    | simp only [good_mk, good_proj] | dsimp only | split

end Sys2Proof.Machine
end

