-- ==== Sys2Proof/Laws/GoodEdit.lean ====
section
/-! SUPPORT. GoodEdit.lean: every function of Edit.lean keeps the tables sound. -/

namespace Sys2Proof.Machine

open Sys2Proof

set_option linter.unusedTactic false
set_option linter.unreachableTactic false
set_option linter.unusedSimpArgs false
set_option linter.unusedVariables false

variable {p : List Instr}

theorem winBind_good {α β : Type} {r : Win α} {f : α → State → Win β} (hr : r.2.Good p) (hf : ∀ a s, s.Good p → (f a s).2.Good p) :
    (winBind r f).2.Good p := by
  unfold winBind
  split
  · exact hf _ _ hr
  · exact hr

theorem State.wakeLevels_good {s : State} (hs : State.Good p s) (c : Nat) : (State.wakeLevels s c).Good p := by
  unfold State.wakeLevels
  try dsimp only
  repeat' first
    | with_reducible assumption | with_reducible intro _ | with_reducible apply good_foldl
    | with_reducible apply good_foldl_snd | with_reducible apply good_foldl_snd2 | with_reducible apply good_foldl_fst
    | with_reducible apply State.wakeLevel_good | dsimp only

theorem State.takeTick_good {s : State} (hs : State.Good p s) (c : Nat) : (State.takeTick s c).Good p := by
  unfold State.takeTick
  try dsimp only
  repeat' first
    | with_reducible assumption | with_reducible apply good_ite | with_reducible intro _ | with_reducible apply good_foldl
    | with_reducible apply good_foldl_snd | with_reducible apply good_foldl_snd2 | with_reducible apply good_foldl_fst
    | with_reducible apply State.coldEntry_good | with_reducible apply State.levelTick_good
    | with_reducible apply State.wakeLevels_good | dsimp only | split

theorem State.cellTick_good {s : State} (hs : State.Good p s) (c : Nat) : (State.cellTick s c).Good p := by
  unfold State.cellTick
  try dsimp only
  repeat' first
    | with_reducible assumption | with_reducible apply good_ite | with_reducible intro _
    | with_reducible apply State.modCell_good | with_reducible apply State.takeTick_good | simp only [good_mk, good_proj]
    | dsimp only | split

theorem State.lateTick_good {s : State} (hs : State.Good p s) (c : Nat) : (State.lateTick s c).Good p := by
  unfold State.lateTick
  try dsimp only
  repeat' first
    | with_reducible assumption | with_reducible apply good_ite | with_reducible intro _
    | with_reducible apply State.modCell_good | with_reducible apply State.takeTick_good | simp only [good_mk, good_proj]
    | dsimp only | split

theorem State.editMap_good {s : State} (hs : State.Good p s) (c : Nat) (levels : Nat) (at_ : Nat) (y0 : Nat) : (State.editMap s c levels at_ y0).2.Good p := by
  induction y0 generalizing s c levels at_ hs with
  | zero =>
    unfold State.editMap
    try dsimp only
    repeat' first
      | with_reducible assumption | with_reducible apply good_ite | with_reducible apply good_ite_snd
      | with_reducible apply good_ite_snd2 | with_reducible apply good_ite_fst | with_reducible intro _
      | with_reducible apply State.readWord_good | (refine good_of_snd (by with_reducible assumption) ?_) | dsimp only | split
  | succ n ih =>
    unfold State.editMap
    try dsimp only
    repeat' first
      | with_reducible apply ih
      | with_reducible assumption | with_reducible apply good_ite | with_reducible apply good_ite_snd
      | with_reducible apply good_ite_snd2 | with_reducible apply good_ite_fst | with_reducible intro _
      | with_reducible apply State.readWord_good | (refine good_of_snd (by with_reducible assumption) ?_) | dsimp only | split

theorem State.editStat_good {s : State} (hs : State.Good p s) (c : Nat) (state : Nat) (cause : Nat) : (State.editStat s c state cause).Good p := by
  unfold State.editStat
  try dsimp only
  repeat' first
    | with_reducible assumption | with_reducible intro _ | with_reducible apply good_foldl
    | with_reducible apply good_foldl_snd | with_reducible apply good_foldl_snd2 | with_reducible apply good_foldl_fst
    | with_reducible apply State.put_good | dsimp only

theorem State.editRefuse_good {s : State} (hs : State.Good p s) (c : Nat) (cause : Nat) : (State.editRefuse s c cause).Good p := by
  unfold State.editRefuse
  try dsimp only
  repeat' first
    | with_reducible assumption | with_reducible apply good_ite | with_reducible intro _
    | with_reducible apply State.editStat_good | with_reducible apply State.put_good | dsimp only | split

theorem State.editSwap_good {s : State} (hs : State.Good p s) (c : Nat) : (State.editSwap s c).Good p := by
  unfold State.editSwap
  try dsimp only
  repeat' first
    | with_reducible assumption | with_reducible apply good_ite | with_reducible intro _ | with_reducible apply good_foldl
    | with_reducible apply good_foldl_snd | with_reducible apply good_foldl_snd2 | with_reducible apply good_foldl_fst
    | with_reducible apply State.editMap_good | with_reducible apply State.editRefuse_good
    | with_reducible apply State.editStat_good | with_reducible apply State.put_good
    | (refine good_of_snd (by with_reducible assumption) ?_) | dsimp only | split

theorem State.markWindow_good {s : State} (hs : State.Good p s) (own : Nat) (b : Bool) : (State.markWindow s own b).Good p := by
  unfold State.markWindow
  try dsimp only
  repeat' first
    | with_reducible assumption | with_reducible intro _ | with_reducible apply good_foldl
    | with_reducible apply good_foldl_snd | with_reducible apply good_foldl_snd2 | with_reducible apply good_foldl_fst
    | with_reducible apply State.modCell_good | simp only [good_mk, good_proj] | dsimp only

theorem State.endWindow_good {s : State} (hs : State.Good p s) (own : Nat) : (State.endWindow s own).Good p := by
  unfold State.endWindow
  try dsimp only
  repeat' first
    | with_reducible assumption | with_reducible intro _ | with_reducible apply good_foldl
    | with_reducible apply good_foldl_snd | with_reducible apply good_foldl_snd2 | with_reducible apply good_foldl_fst
    | with_reducible apply State.lateTick_good | with_reducible apply State.markWindow_good | dsimp only

theorem State.editCancel_good {s : State} (hs : State.Good p s) (c : Nat) : (State.editCancel s c).Good p := by
  unfold State.editCancel
  try dsimp only
  repeat' first
    | with_reducible assumption | with_reducible apply good_ite | with_reducible intro _
    | with_reducible apply State.editStat_good | with_reducible apply State.endWindow_good | dsimp only | split

theorem State.writeEditCtrl_good {s : State} (hs : State.Good p s) (c : Nat) (v : Word) : (State.writeEditCtrl s c v).Good p := by
  unfold State.writeEditCtrl
  try dsimp only
  repeat' first
    | with_reducible assumption | with_reducible apply good_ite | with_reducible intro _
    | with_reducible apply State.editCancel_good | with_reducible apply State.editSwap_good
    | with_reducible apply State.put_good | dsimp only | split

theorem State.editTimeout_good {s : State} (hs : State.Good p s) (c : Nat) : (State.editTimeout s c).Good p := by
  unfold State.editTimeout
  try dsimp only
  repeat' first
    | with_reducible assumption | with_reducible apply good_ite | with_reducible intro _
    | with_reducible apply State.editStat_good | with_reducible apply State.sendInfo_good | dsimp only | split

theorem winEach_good {α : Type} {s : State} (hs : State.Good p s) (l : List α) (f : α → State → Win Unit) (hf : ∀ v0 v1, State.Good p v1 → (f v0 v1).2.Good p) : (winEach (α := α) l f s).2.Good p := by
  unfold winEach
  try dsimp only
  repeat' first
    | with_reducible assumption | with_reducible intro _ | with_reducible apply good_foldl
    | with_reducible apply good_foldl_snd | with_reducible apply good_foldl_snd2 | with_reducible apply good_foldl_fst
    | with_reducible apply hf | with_reducible apply winBind_good | dsimp only

theorem State.winRead_good {s : State} (hs : State.Good p s) (c : Nat) (pa : Nat) : (State.winRead s c pa).2.Good p := by
  unfold State.winRead
  try dsimp only
  repeat' first
    | with_reducible assumption | with_reducible intro _ | with_reducible apply State.readWord_good
    | with_reducible apply State.sendAddr_good | (refine good_of_snd (by with_reducible assumption) ?_) | dsimp only | split

theorem State.winAddr_good {s : State} (hs : State.Good p s) (c : Nat) (dom : Nat) (va : Nat) : (State.winAddr s c dom va).2.Good p := by
  unfold State.winAddr
  try dsimp only
  repeat' first
    | with_reducible assumption | with_reducible intro _ | (refine good_of_snd (by with_reducible assumption) ?_)
    | dsimp only | split

theorem State.winWrite_good {s : State} (hs : State.Good p s) (c : Nat) (z2 : Phys) (w : Word) : (State.winWrite s c z2 w).Good p := by
  unfold State.winWrite
  try dsimp only
  repeat' first
    | with_reducible assumption | with_reducible intro _ | with_reducible apply State.coherent_good
    | with_reducible apply State.noteRetained_good | with_reducible apply State.writeWord_good | dsimp only

theorem State.winWord_good {s : State} (hs : State.Good p s) (c : Nat) (old : Nat) (new : Nat) (e : EditOp) (i : Nat) : (State.winWord c old new e i s).2.Good p := by
  unfold State.winWord
  try dsimp only
  repeat' first
    | with_reducible assumption | with_reducible apply good_ite | with_reducible intro _
    | with_reducible apply State.put_good | with_reducible apply State.winAddr_good
    | with_reducible apply State.winRead_good | with_reducible apply State.winWrite_good | with_reducible apply winBind_good
    | dsimp only | split

theorem State.winMoves_good {s0 : State} {s : State} (hs0 : State.Good p s0) (hs : State.Good p s) (c : Nat) (ops : List EditOp) : (State.winMoves s0 c ops s).2.Good p := by
  unfold State.winMoves
  try dsimp only
  repeat' first
    | with_reducible assumption | with_reducible intro _ | with_reducible apply State.winWord_good
    | with_reducible apply winEach_good | dsimp only

theorem State.winTcw_good {s : State} (hs : State.Good p s) (c : Nat) (n : Nat) (j : Nat) (o : Nat) : (State.winTcw s c n j o).2.Good p := by
  unfold State.winTcw
  try dsimp only
  repeat' first
    | with_reducible assumption | with_reducible intro _ | with_reducible apply State.winRead_good | dsimp only

theorem State.winPlan_good {s0 : State} {s : State} (hs0 : State.Good p s0) (hs : State.Good p s) (c : Nat) (ops : List EditOp) (e : EditOp) : (State.winPlan s0 c ops e s).2.Good p := by
  unfold State.winPlan
  try dsimp only
  repeat' first
    | with_reducible assumption | with_reducible intro _ | with_reducible apply good_foldl
    | with_reducible apply good_foldl_snd | with_reducible apply good_foldl_snd2 | with_reducible apply good_foldl_fst
    | with_reducible apply State.tagCheck_good | with_reducible apply State.winAddr_good
    | with_reducible apply State.winRead_good | with_reducible apply State.winTcw_good | with_reducible apply winBind_good
    | (refine good_of_snd (by with_reducible assumption) ?_) | dsimp only | split

theorem State.winTcwWrite_good {s : State} (hs : State.Good p s) (c : Nat) (n : Nat) (j : Nat) (o : Nat) (w : Word) (tag : Bool) : (State.winTcwWrite s c n j o w tag).Good p := by
  unfold State.winTcwWrite
  try dsimp only
  repeat' first
    | with_reducible assumption | with_reducible apply good_ite | with_reducible intro _
    | with_reducible apply State.writeWord_good | dsimp only | split

theorem State.winCommit_good {s : State} (hs : State.Good p s) (c : Nat) (x : Commit) : (State.winCommit s c x).Good p := by
  unfold State.winCommit
  try dsimp only
  repeat' first
    | with_reducible assumption | with_reducible apply good_ite | with_reducible intro _
    | with_reducible apply State.modBank_good | with_reducible apply State.modCell_good
    | with_reducible apply State.winTcwWrite_good | simp only [good_mk, good_proj] | dsimp only | split

theorem State.winFlush_good {s : State} (hs : State.Good p s) (c : Nat) : (State.winFlush s c).Good p := by
  unfold State.winFlush
  try dsimp only
  repeat' first
    | with_reducible assumption | with_reducible intro _ | with_reducible apply State.modCell_good
    | with_reducible apply State.retireLoad_good | simp only [good_mk, good_proj] | dsimp only

theorem State.winRecords_good {s : State} (hs : State.Good p s) (c : Nat) (own : Nat) : (State.winRecords s c own).2.Good p := by
  unfold State.winRecords
  try dsimp only
  repeat' first
    | with_reducible assumption | with_reducible intro _ | with_reducible apply good_foldl
    | with_reducible apply good_foldl_snd | with_reducible apply good_foldl_snd2 | with_reducible apply good_foldl_fst
    | with_reducible apply State.editMap_good | with_reducible apply State.sendAddr_good
    | with_reducible apply State.winMoves_good | with_reducible apply State.winPlan_good | with_reducible apply winBind_good
    | (refine good_of_snd (by with_reducible assumption) ?_) | dsimp only | split

theorem State.winCharge_good {s : State} (hs : State.Good p s) (c : Nat) (own : Nat) (aborted : Bool) : (State.winCharge s c own aborted).Good p := by
  unfold State.winCharge
  try dsimp only
  repeat' first
    | with_reducible assumption | with_reducible apply good_ite | with_reducible intro _
    | with_reducible apply State.bumpBy_good | with_reducible apply State.tickFresh_good | dsimp only | split

theorem State.winStaging_good {s : State} (hs : State.Good p s) (c : Nat) (own : Nat) : (State.winStaging s c own).Good p := by
  unfold State.winStaging
  try dsimp only
  repeat' first
    | with_reducible assumption | with_reducible apply good_ite | with_reducible intro _
    | with_reducible apply State.modCell_good | simp only [good_mk, good_proj] | dsimp only | split

theorem State.swapOne_good {s : State} (hs : State.Good p s) (c : Nat) (own : Nat) : (State.swapOne s c own).2.Good p := by
  unfold State.swapOne
  try dsimp only
  repeat' first
    | with_reducible assumption | with_reducible intro _ | with_reducible apply good_foldl
    | with_reducible apply good_foldl_snd | with_reducible apply good_foldl_snd2 | with_reducible apply good_foldl_fst
    | with_reducible apply State.winCharge_good | with_reducible apply State.winCommit_good
    | with_reducible apply State.winFlush_good | with_reducible apply State.winRecords_good
    | with_reducible apply State.winStaging_good | (refine good_of_snd (by with_reducible assumption) ?_) | dsimp only
    | split

theorem State.swapWindow_good {s : State} (hs : State.Good p s) (own : Nat) : (State.swapWindow s own).Good p := by
  unfold State.swapWindow
  try dsimp only
  repeat' first
    | with_reducible assumption | with_reducible intro _ | with_reducible apply good_foldl
    | with_reducible apply good_foldl_snd | with_reducible apply good_foldl_snd2 | with_reducible apply good_foldl_fst
    | with_reducible apply State.editStat_good | with_reducible apply State.endWindow_good
    | with_reducible apply State.swapOne_good | (refine good_of_snd (by with_reducible assumption) ?_) | dsimp only | split

theorem State.tryWindow_good {s : State} (hs : State.Good p s) (own : Nat) : (State.tryWindow s own).Good p := by
  unfold State.tryWindow
  try dsimp only
  repeat' first
    | with_reducible assumption | with_reducible apply good_ite | with_reducible intro _
    | with_reducible apply State.swapWindow_good | dsimp only | split

theorem State.beginWindow_good {s : State} (hs : State.Good p s) (own : Nat) : (State.beginWindow s own).Good p := by
  unfold State.beginWindow
  try dsimp only
  repeat' first
    | with_reducible assumption | with_reducible intro _ | with_reducible apply State.markWindow_good
    | with_reducible apply State.tryWindow_good | dsimp only

theorem State.openWindows_good {s : State} (hs : State.Good p s) : (State.openWindows s).Good p := by
  unfold State.openWindows
  try dsimp only
  repeat' first
    | with_reducible assumption | with_reducible intro _ | with_reducible apply good_foldl
    | with_reducible apply good_foldl_snd | with_reducible apply good_foldl_snd2 | with_reducible apply good_foldl_fst
    | with_reducible apply State.tryWindow_good | dsimp only

theorem State.editWaits_good {s : State} (hs : State.Good p s) (own : Nat) : (State.editWaits s own).Good p := by
  unfold State.editWaits
  try dsimp only
  repeat' first
    | with_reducible assumption | with_reducible intro _ | with_reducible apply good_foldl
    | with_reducible apply good_foldl_snd | with_reducible apply good_foldl_snd2 | with_reducible apply good_foldl_fst
    | with_reducible apply State.bump_good | dsimp only

theorem State.editTick_good {s : State} (hs : State.Good p s) (moved : List Nat) : (State.editTick s moved).2.Good p := by
  unfold State.editTick
  try dsimp only
  repeat' first
    | with_reducible assumption | with_reducible apply good_ite | with_reducible apply good_ite_snd
    | with_reducible apply good_ite_snd2 | with_reducible apply good_ite_fst | with_reducible intro _
    | with_reducible apply good_foldl | with_reducible apply good_foldl_snd | with_reducible apply good_foldl_snd2
    | with_reducible apply good_foldl_fst | with_reducible apply State.beginWindow_good
    | with_reducible apply State.editWaits_good | dsimp only | split

end Sys2Proof.Machine
end

