-- ==== Sys2Proof/Laws/GoodStandby.lean ====
section
/-! SUPPORT. GoodStandby.lean: every function of Standby.lean keeps the tables sound. -/

namespace Sys2Proof.Machine

open Sys2Proof

set_option linter.unusedTactic false
set_option linter.unreachableTactic false
set_option linter.unusedSimpArgs false
set_option linter.unusedVariables false

variable {p : List Instr}

theorem State.setStby_good {s : State} (hs : State.Good p s) (f : Standby → Standby) : (State.setStby s f).Good p := by
  unfold State.setStby
  try dsimp only
  repeat' first
    | with_reducible assumption | with_reducible intro _ | simp only [good_mk, good_proj] | dsimp only

theorem State.enterRole_good {s : State} (hs : State.Good p s) (st : Nat) : (State.enterRole s st).Good p := by
  unfold State.enterRole
  try dsimp only
  repeat' first
    | with_reducible assumption | with_reducible intro _ | with_reducible apply State.put_good
    | with_reducible apply State.setStby_good | simp only [good_mk, good_proj] | dsimp only

theorem State.writeRole_good {s : State} (hs : State.Good p s) (role : Nat) : (State.writeRole s role).Good p := by
  unfold State.writeRole
  try dsimp only
  repeat' first
    | with_reducible assumption | with_reducible apply good_ite | with_reducible intro _
    | with_reducible apply State.enterRole_good | with_reducible apply State.holdRequests_good
    | with_reducible apply State.put_good | with_reducible apply State.raise_good | with_reducible apply State.setStby_good
    | simp only [good_mk, good_proj] | dsimp only | split

theorem State.writeStbyCtrl_good {s : State} (hs : State.Good p s) (v : Word) : (State.writeStbyCtrl s v).Good p := by
  unfold State.writeStbyCtrl
  try dsimp only
  repeat' first
    | with_reducible assumption | with_reducible apply good_ite | with_reducible intro _
    | with_reducible apply State.putB_good | with_reducible apply State.syncLines_good
    | with_reducible apply State.writeRole_good | dsimp only | split

theorem State.loseTracking_good {s : State} (hs : State.Good p s) (why : Nat) : (State.loseTracking s why).Good p := by
  unfold State.loseTracking
  try dsimp only
  repeat' first
    | with_reducible assumption | with_reducible intro _ | with_reducible apply State.put_good
    | with_reducible apply State.sendInfo_good | dsimp only

theorem State.setRx_good {s : State} (hs : State.Good p s) (f : StreamRx → StreamRx) : (State.setRx s f).Good p := by
  unfold State.setRx
  try dsimp only
  repeat' first
    | with_reducible assumption | with_reducible intro _ | with_reducible apply State.setStby_good
    | simp only [good_mk, good_proj] | dsimp only

theorem State.loseBeat_good {s : State} (hs : State.Good p s) : (State.loseBeat s).Good p := by
  unfold State.loseBeat
  try dsimp only
  repeat' first
    | with_reducible assumption | with_reducible apply good_ite | with_reducible intro _
    | with_reducible apply State.setRx_good | simp only [good_mk, good_proj] | dsimp only | split

theorem State.frameRecord_good {s : State} (hs : State.Good p s) (n : Nat) (agrees : Bool) : (State.frameRecord s n agrees).Good p := by
  unfold State.frameRecord
  try dsimp only
  repeat' first
    | with_reducible assumption | with_reducible apply good_ite | with_reducible intro _
    | with_reducible apply State.loseTracking_good | with_reducible apply State.raise_good
    | with_reducible apply State.setRx_good | simp only [good_mk, good_proj] | dsimp only | split

theorem State.inputRecord_good {s : State} (hs : State.Good p s) (first : Nat) (ws : List Word) : (State.inputRecord s first ws).Good p := by
  unfold State.inputRecord
  try dsimp only
  repeat' first
    | with_reducible assumption | with_reducible apply good_ite | with_reducible intro _ | with_reducible apply good_foldl
    | with_reducible apply good_foldl_snd | with_reducible apply good_foldl_snd2 | with_reducible apply good_foldl_fst
    | with_reducible apply State.fillWrite_good | with_reducible apply State.setRx_good | simp only [good_mk, good_proj]
    | dsimp only | split

theorem State.lineRecord_good {s : State} (hs : State.Good p s) (line : Nat) (ws : List Word) : (State.lineRecord s line ws).Good p := by
  unfold State.lineRecord
  try dsimp only
  repeat' first
    | with_reducible assumption | with_reducible apply good_ite | with_reducible intro _
    | with_reducible apply State.setRx_good | simp only [good_mk, good_proj] | dsimp only | split

theorem State.editRecord_good {s : State} (hs : State.Good p s) (c : Nat) (tag : Word) : (State.editRecord s c tag).Good p := by
  unfold State.editRecord
  try dsimp only
  repeat' first
    | with_reducible assumption | with_reducible apply good_ite | with_reducible intro _
    | with_reducible apply State.setRx_good | simp only [good_mk, good_proj] | dsimp only | split

theorem State.heartbeat_good {s : State} (hs : State.Good p s) (pause : Bool) (incomplete : Bool) (lines : Word) (crc : Nat) (synced : Bool) : (State.heartbeat s pause incomplete lines crc synced).Good p := by
  unfold State.heartbeat
  try dsimp only
  repeat' first
    | with_reducible assumption | with_reducible apply good_ite | with_reducible intro _
    | with_reducible apply State.bump_good | with_reducible apply State.put_good | with_reducible apply State.setRx_good
    | with_reducible apply good_getD | simp only [good_mk, good_proj] | dsimp only | split

theorem State.heartbeatMiss_good {s : State} (hs : State.Good p s) : (State.heartbeatMiss s).Good p := by
  unfold State.heartbeatMiss
  try dsimp only
  repeat' first
    | with_reducible assumption | with_reducible apply good_ite | with_reducible intro _
    | with_reducible apply State.bump_good | with_reducible apply State.loseTracking_good | dsimp only | split

theorem State.takeover_good {s : State} (hs : State.Good p s) : (State.takeover s).Good p := by
  unfold State.takeover
  try dsimp only
  repeat' first
    | with_reducible assumption | with_reducible intro _ | with_reducible apply State.put_good
    | with_reducible apply State.raise_good | with_reducible apply State.sendInfo_good
    | with_reducible apply State.setStby_good | simp only [good_mk, good_proj] | dsimp only

theorem State.judgeStream_good {s : State} (hs : State.Good p s) : (State.judgeStream s).2.Good p := by
  unfold State.judgeStream
  try dsimp only
  repeat' first
    | with_reducible assumption | with_reducible apply good_ite | with_reducible apply good_ite_snd
    | with_reducible apply good_ite_snd2 | with_reducible apply good_ite_fst | with_reducible intro _
    | with_reducible apply State.heartbeatMiss_good | with_reducible apply State.setStby_good
    | with_reducible apply State.takeover_good | simp only [good_mk, good_proj] | dsimp only | split

theorem State.applyLines_good {s : State} (hs : State.Good p s) (t : StreamTick) : (State.applyLines s t).Good p := by
  unfold State.applyLines
  try dsimp only
  repeat' first
    | with_reducible assumption | with_reducible apply good_ite | with_reducible intro _ | with_reducible apply good_foldl
    | with_reducible apply good_foldl_snd | with_reducible apply good_foldl_snd2 | with_reducible apply good_foldl_fst
    | with_reducible apply State.bumpBy_good | with_reducible apply State.put_good
    | with_reducible apply State.writeRaw_good | dsimp only | split

theorem State.readLine_good {s : State} (hs : State.Good p s) (l : Nat) : (State.readLine s l).2.Good p := by
  unfold State.readLine
  try dsimp only
  repeat' first
    | with_reducible assumption | with_reducible intro _ | with_reducible apply good_foldl
    | with_reducible apply good_foldl_snd | with_reducible apply good_foldl_snd2 | with_reducible apply good_foldl_fst
    | with_reducible apply State.readWord_good | (refine good_of_snd (by with_reducible assumption) ?_) | dsimp only | split

theorem State.sendLine_good {f n : Nat} {acc : List Word × List Nat × Nat × State} (h : acc.2.2.2.Good p) (l : Nat) :
    (State.sendLine f n acc l).2.2.2.Good p := by
  unfold State.sendLine
  dsimp only
  split
  · exact h
  · have h := State.readLine_good h l
    split
    · exact h
    · exact State.bump_good h _

theorem State.sendLines_good {s : State} (hs : State.Good p s) (ls : List Nat) : (State.sendLines s ls).2.2.2.Good p :=
  good_foldl_snd3 hs (fun _ _ h => State.sendLine_good h _)

theorem State.streamSend_good {s : State} (hs : State.Good p s) (set : List Nat) (edits : List Nat) : (State.streamSend s set edits).Good p := by
  unfold State.streamSend
  try dsimp only
  repeat' first
    | with_reducible assumption | with_reducible intro _ | with_reducible apply good_foldl
    | with_reducible apply good_foldl_snd | with_reducible apply good_foldl_snd2 | with_reducible apply good_foldl_fst
    | with_reducible apply State.put_good | with_reducible apply State.sendLines_good
    | with_reducible apply State.setStby_good | with_reducible apply State.tickFresh_good | simp only [good_mk, good_proj]
    | (refine good_of_snd3 (by with_reducible assumption) ?_) | dsimp only | split

end Sys2Proof.Machine
end

