-- ==== Sys2Proof/Laws/GoodLdv.lean ====
section
/-! SUPPORT. GoodLdv.lean: every function of Ldv.lean keeps the tables sound. -/

namespace Sys2Proof.Machine

open Sys2Proof

set_option linter.unusedTactic false
set_option linter.unreachableTactic false
set_option linter.unusedSimpArgs false
set_option linter.unusedVariables false

variable {p : List Instr}

theorem State.ldvRejected_good {s : State} (hs : State.Good p s) (code : Nat) : (State.ldvRejected s code).Good p := by
  unfold State.ldvRejected
  try dsimp only
  repeat' first
    | with_reducible assumption | with_reducible intro _ | with_reducible apply State.put_good | dsimp only

theorem State.ldvBegin_good {s : State} (hs : State.Good p s) : (State.ldvBegin s).Good p := by
  unfold State.ldvBegin
  try dsimp only
  repeat' first
    | with_reducible assumption | with_reducible apply good_ite | with_reducible intro _
    | with_reducible apply State.put_good | simp only [good_mk, good_proj] | dsimp only | split

theorem State.ldvCancel_good {s : State} (hs : State.Good p s) : (State.ldvCancel s).Good p := by
  unfold State.ldvCancel
  try dsimp only
  repeat' first
    | with_reducible assumption | with_reducible apply good_ite | with_reducible intro _
    | with_reducible apply State.ldvRejected_good | dsimp only | split

theorem State.writeLdvCtrl_good {s : State} (hs : State.Good p s) (v : Word) : (State.writeLdvCtrl s v).Good p := by
  unfold State.writeLdvCtrl
  try dsimp only
  repeat' first
    | with_reducible assumption | with_reducible apply good_ite | with_reducible intro _
    | with_reducible apply State.ldvBegin_good | with_reducible apply State.ldvCancel_good
    | with_reducible apply State.put_good | dsimp only | split

theorem State.ldvReceive_good {s : State} (hs : State.Good p s) (w : Word) : (State.ldvReceive s w).Good p := by
  unfold State.ldvReceive
  try dsimp only
  repeat' first
    | with_reducible assumption | with_reducible apply good_ite | with_reducible intro _
    | with_reducible apply State.ldvRejected_good | with_reducible apply State.put_good | simp only [good_mk, good_proj]
    | dsimp only | split

theorem State.ldvReads_good {s : State} (hs : State.Good p s) : (State.ldvReads s).Good p := by
  unfold State.ldvReads
  try dsimp only
  repeat' first
    | with_reducible assumption | with_reducible apply good_ite | with_reducible intro _ | with_reducible apply good_foldl
    | with_reducible apply good_foldl_snd | with_reducible apply good_foldl_snd2 | with_reducible apply good_foldl_fst
    | with_reducible apply State.sendInfo_good | dsimp only | split

theorem State.ldvVerify_good {s : State} (hs : State.Good p s) : (State.ldvVerify s).Good p := by
  unfold State.ldvVerify
  try dsimp only
  repeat' first
    | with_reducible assumption | with_reducible apply good_ite | with_reducible intro _
    | with_reducible apply State.ldvReads_good | with_reducible apply State.ldvRejected_good
    | with_reducible apply State.put_good | dsimp only | split

theorem State.ldvWrite_good {s : State} (hs : State.Good p s) : (State.ldvWrite s).Good p := by
  unfold State.ldvWrite
  try dsimp only
  repeat' first
    | with_reducible assumption | with_reducible apply good_ite | with_reducible intro _ | with_reducible apply good_foldl
    | with_reducible apply good_foldl_snd | with_reducible apply good_foldl_snd2 | with_reducible apply good_foldl_fst
    | with_reducible apply State.ldvRejected_good | with_reducible apply State.put_good | simp only [good_mk, good_proj]
    | dsimp only | split

theorem State.keyDelivery_good {s : State} (hs : State.Good p s) (sel : Bool) (ws : List (BitVec 32)) : (State.keyDelivery s sel ws).Good p := by
  unfold State.keyDelivery
  try dsimp only
  repeat' first
    | with_reducible assumption | with_reducible apply good_ite | with_reducible intro _
    | with_reducible apply State.putB_good | simp only [good_mk, good_proj] | dsimp only | split

end Sys2Proof.Machine
end

