-- ==== Sys2Proof/Laws/GoodMoraine.lean ====
section
/-! SUPPORT. GoodMoraine.lean: every function of Moraine.lean keeps the tables sound. -/

namespace Sys2Proof.Machine

open Sys2Proof

set_option linter.unusedTactic false
set_option linter.unreachableTactic false
set_option linter.unusedSimpArgs false
set_option linter.unusedVariables false

variable {p : List Instr}

theorem State.countClass_good {s : State} (hs : State.Good p s) (cls : Nat) : (State.countClass s cls).Good p := by
  unfold State.countClass
  try dsimp only
  repeat' first
    | with_reducible assumption | with_reducible apply good_ite | with_reducible intro _
    | with_reducible apply State.bump_good | dsimp only | split

theorem State.logEntry_good {s : State} (hs : State.Good p s) (m : Msg) (cls : Nat) : (State.logEntry s m cls).Good p := by
  unfold State.logEntry
  try dsimp only
  repeat' first
    | with_reducible assumption | with_reducible apply good_ite | with_reducible intro _
    | with_reducible apply State.bump_good | with_reducible apply State.clearEcc_good | with_reducible apply State.put_good
    | with_reducible apply State.setReg_good | dsimp only | split

theorem State.logPop_good {s : State} (hs : State.Good p s) (n : Nat) : (State.logPop s n).Good p := by
  unfold State.logPop
  try dsimp only
  repeat' first
    | with_reducible assumption | with_reducible intro _ | with_reducible apply State.put_good | dsimp only

theorem State.reactF_good {s : State} (hs : State.Good p s) (m : Msg) : (State.reactF s m).Good p := by
  unfold State.reactF
  try dsimp only
  repeat' first
    | with_reducible assumption | with_reducible apply good_ite | with_reducible intro _
    | with_reducible apply State.failureEvent_good | dsimp only | split

theorem State.faultState_good {s : State} (hs : State.Good p s) (src : Nat) : (State.faultState s src).Good p := by
  unfold State.faultState
  try dsimp only
  repeat' first
    | with_reducible assumption | with_reducible intro _ | with_reducible apply State.put_good | dsimp only

theorem State.latchFirst_good {s : State} (hs : State.Good p s) (m : Msg) (cls : Nat) : (State.latchFirst s m cls).Good p := by
  unfold State.latchFirst
  try dsimp only
  repeat' first
    | with_reducible assumption | with_reducible apply good_ite | with_reducible intro _
    | with_reducible apply State.put_good | with_reducible apply State.raise_good | with_reducible apply State.setReg_good
    | dsimp only | split

theorem State.record_good {s : State} (hs : State.Good p s) (m : Msg) : (State.record s m).Good p := by
  unfold State.record
  try dsimp only
  repeat' first
    | with_reducible assumption | with_reducible apply good_ite | with_reducible intro _
    | with_reducible apply State.countClass_good | with_reducible apply State.faultState_good
    | with_reducible apply State.latchFirst_good | with_reducible apply State.logEntry_good
    | with_reducible apply State.put_good | with_reducible apply State.raise_good | with_reducible apply State.reactF_good
    | with_reducible apply State.setReg_good | dsimp only | split

theorem State.takeMessage_good {s : State} (hs : State.Good p s) : (State.takeMessage s).Good p := by
  unfold State.takeMessage
  try dsimp only
  repeat' first
    | with_reducible assumption | with_reducible apply good_ite | with_reducible intro _ | with_reducible apply good_foldl
    | with_reducible apply good_foldl_snd | with_reducible apply good_foldl_snd2 | with_reducible apply good_foldl_fst
    | with_reducible apply State.record_good | simp only [good_mk, good_proj] | with_reducible apply sound_taken
    | dsimp only | split

theorem State.ackSource_good {s : State} (hs : State.Good p s) (src : Nat) : (State.ackSource s src).Good p := by
  unfold State.ackSource
  try dsimp only
  repeat' first
    | with_reducible assumption | with_reducible intro _ | with_reducible apply State.put_good | dsimp only

theorem State.ackAll_good {s : State} (hs : State.Good p s) : (State.ackAll s).Good p := by
  unfold State.ackAll
  try dsimp only
  repeat' first
    | with_reducible assumption | with_reducible intro _ | with_reducible apply good_foldl
    | with_reducible apply good_foldl_snd | with_reducible apply good_foldl_snd2 | with_reducible apply good_foldl_fst
    | with_reducible apply State.ackSource_good | dsimp only

theorem State.ackFirst_good {s : State} (hs : State.Good p s) : (State.ackFirst s).Good p := by
  unfold State.ackFirst
  try dsimp only
  repeat' first
    | with_reducible assumption | with_reducible intro _ | with_reducible apply State.put_good | dsimp only

theorem State.writeAck_good {s : State} (hs : State.Good p s) (v : Word) : (State.writeAck s v).Good p := by
  unfold State.writeAck
  try dsimp only
  repeat' first
    | with_reducible assumption | with_reducible apply good_ite | with_reducible intro _
    | with_reducible apply State.ackAll_good | with_reducible apply State.ackFirst_good
    | with_reducible apply State.ackSource_good | dsimp only | split

theorem State.quietExit_good {s : State} (hs : State.Good p s) (src : Nat) : (State.quietExit s src).Good p := by
  unfold State.quietExit
  try dsimp only
  repeat' first
    | with_reducible assumption | with_reducible apply good_ite | with_reducible intro _
    | with_reducible apply State.bump_good | with_reducible apply State.put_good | with_reducible apply State.raise_good
    | dsimp only | split

theorem State.quietTick_good {s : State} (hs : State.Good p s) : (State.quietTick s).Good p := by
  unfold State.quietTick
  try dsimp only
  repeat' first
    | with_reducible assumption | with_reducible apply good_ite | with_reducible intro _ | with_reducible apply good_foldl
    | with_reducible apply good_foldl_snd | with_reducible apply good_foldl_snd2 | with_reducible apply good_foldl_fst
    | with_reducible apply State.bump_good | dsimp only | split

theorem State.readFirst0_good {s : State} (hs : State.Good p s) : (State.readFirst0 s).Good p := by
  unfold State.readFirst0
  try dsimp only
  repeat' first
    | with_reducible assumption | with_reducible intro _ | with_reducible apply State.raise_good | dsimp only

end Sys2Proof.Machine
end

