-- ==== Sys2Proof/Laws/GoodThaw.lean ====
section
/-! SUPPORT. GoodThaw.lean: every function of Thaw.lean keeps the tables sound. -/

namespace Sys2Proof.Machine

open Sys2Proof

set_option linter.unusedTactic false
set_option linter.unreachableTactic false
set_option linter.unusedSimpArgs false
set_option linter.unusedVariables false

variable {p : List Instr}

theorem State.thawLock_good {s : State} (hs : State.Good p s) : (State.thawLock s).Good p := by
  unfold State.thawLock
  try dsimp only
  repeat' first
    | with_reducible assumption | with_reducible intro _ | with_reducible apply State.putB_good | dsimp only

theorem State.enterHold_good {s : State} (hs : State.Good p s) (cause : Nat) (unit : Nat) (detail : Nat) : (State.enterHold s cause unit detail).Good p := by
  unfold State.enterHold
  try dsimp only
  repeat' first
    | with_reducible assumption | with_reducible intro _ | with_reducible apply State.put_good
    | with_reducible apply State.raise_good | with_reducible apply State.send_good
    | with_reducible apply State.thawLock_good | simp only [good_mk, good_proj] | dsimp only

theorem State.holdPlain_good {s : State} (hs : State.Good p s) (cause : Nat) : (State.holdPlain s cause).Good p := by
  unfold State.holdPlain
  try dsimp only
  repeat' first
    | with_reducible assumption | with_reducible intro _ | with_reducible apply State.enterHold_good
    | with_reducible apply State.tickFresh_good | dsimp only

theorem State.endPhase_good {s : State} (hs : State.Good p s) (i : Nat) : (State.endPhase s i).Good p := by
  unfold State.endPhase
  try dsimp only
  repeat' first
    | with_reducible assumption | with_reducible intro _ | with_reducible apply State.put_good
    | with_reducible apply State.tickFresh_good | dsimp only

theorem State.thawStart_good {s : State} (hs : State.Good p s) : (State.thawStart s).Good p := by
  unfold State.thawStart
  try dsimp only
  repeat' first
    | with_reducible assumption | with_reducible apply good_ite | with_reducible intro _ | simp only [good_mk, good_proj]
    | dsimp only | split

theorem State.fuseWord_good {s : State} (hs : State.Good p s) (w : Word) : (State.fuseWord s w).Good p := by
  unfold State.fuseWord
  try dsimp only
  repeat' first
    | with_reducible assumption | with_reducible apply good_ite | with_reducible intro _ | simp only [good_mk, good_proj]
    | dsimp only | split

theorem State.fuseTimeout_good {s : State} (hs : State.Good p s) : (State.fuseTimeout s).Good p := by
  unfold State.fuseTimeout
  try dsimp only
  repeat' first
    | with_reducible assumption | with_reducible apply good_ite | with_reducible intro _
    | with_reducible apply State.enterHold_good | dsimp only | split

theorem State.useSpares_good {s : State} (hs : State.Good p s) (m : Nat) (r : Nat) (c : Nat) : (State.useSpares s m r c).Good p := by
  unfold State.useSpares
  try dsimp only
  repeat' first
    | with_reducible assumption | with_reducible intro _ | simp only [good_mk, good_proj] | dsimp only

theorem State.applyRow_good {s : State} (hs : State.Good p s) (w : Word) : (State.applyRow s w).Good p := by
  unfold State.applyRow
  try dsimp only
  repeat' first
    | with_reducible assumption | with_reducible intro _ | with_reducible apply State.useSpares_good | dsimp only | split

theorem State.unusable_good {s : State} (hs : State.Good p s) (k : Nat) (slot : Nat) (why : Nat) (phase : Nat) : (State.unusable s k slot why phase).Good p := by
  unfold State.unusable
  try dsimp only
  repeat' first
    | with_reducible assumption | with_reducible apply good_ite | with_reducible intro _
    | with_reducible apply State.put_good | with_reducible apply State.retireSlot_good
    | with_reducible apply State.sendInfo_good | dsimp only | split

theorem State.applyRepairs_good {s : State} (hs : State.Good p s) (l : List (Option Word)) : (State.applyRepairs s l).Good p := by
  unfold State.applyRepairs
  try dsimp only
  repeat' first
    | with_reducible assumption | with_reducible apply good_ite | with_reducible intro _ | with_reducible apply good_foldl
    | with_reducible apply good_foldl_snd | with_reducible apply good_foldl_snd2 | with_reducible apply good_foldl_fst
    | with_reducible apply State.applyRow_good | with_reducible apply State.sendInfo_good
    | with_reducible apply State.unusable_good | dsimp only | split

theorem State.loadHot_good {s : State} (hs : State.Good p s) : (State.loadHot s).Good p := by
  unfold State.loadHot
  try dsimp only
  repeat' first
    | with_reducible assumption | with_reducible intro _ | with_reducible apply good_foldl
    | with_reducible apply good_foldl_snd | with_reducible apply good_foldl_snd2 | with_reducible apply good_foldl_fst
    | with_reducible apply State.hotSupply_good | with_reducible apply State.raise_good
    | with_reducible apply State.setReg_good | with_reducible apply State.setWord_good | simp only [good_mk, good_proj]
    | dsimp only | split

theorem State.takeDevice_good {s : State} (hs : State.Good p s) (img : FlashImage) : (State.takeDevice s img).Good p := by
  unfold State.takeDevice
  try dsimp only
  repeat' first
    | with_reducible assumption | with_reducible apply good_ite | with_reducible intro _
    | with_reducible apply State.applyRepairs_good | with_reducible apply State.noteHotTime_good
    | with_reducible apply State.raise_good | with_reducible apply State.sendInfo_good | simp only [good_mk, good_proj]
    | dsimp only | split

theorem State.badMacro_good {s : State} (hs : State.Good p s) (m : MacroId) : (State.badMacro s m).Good p := by
  unfold State.badMacro
  try dsimp only
  repeat' first
    | with_reducible assumption | with_reducible apply good_ite | with_reducible intro _
    | with_reducible apply State.sendInfo_good | with_reducible apply State.unusable_good | simp only [good_mk, good_proj]
    | dsimp only | split

theorem State.allotSpares_good {s : State} (hs : State.Good p s) (l : List (MacroId × Nat × Nat)) : (State.allotSpares s l).Good p := by
  unfold State.allotSpares
  try dsimp only
  repeat' first
    | with_reducible assumption | with_reducible intro _ | with_reducible apply good_foldl
    | with_reducible apply good_foldl_snd | with_reducible apply good_foldl_snd2 | with_reducible apply good_foldl_fst
    | with_reducible apply State.useSpares_good | dsimp only

theorem State.holdMacros_good {s : State} (hs : State.Good p s) (units : List Nat) (unit : Nat) (detail : Nat) : (State.holdMacros s units unit detail).Good p := by
  unfold State.holdMacros
  try dsimp only
  repeat' first
    | with_reducible assumption | with_reducible intro _ | with_reducible apply State.enterHold_good
    | simp only [good_mk, good_proj] | dsimp only

theorem State.cleared_good {s : State} (hs : State.Good p s) (keep : Nat → Bool) : (State.cleared s keep).Good p := by
  unfold State.cleared
  exact { hs with mem := swf_filter _ hs.mem, tagA := setWf_filter _ hs.tagA, tagB := setWf_filter _ hs.tagB }

theorem State.phase1End_good {s : State} (hs : State.Good p s) (img : FlashImage) (bad : List MacroId) (spares : List (MacroId × Nat × Nat)) : (State.phase1End s img bad spares).Good p := by
  unfold State.phase1End
  try dsimp only
  repeat' first
    | with_reducible assumption | with_reducible apply good_ite | with_reducible intro _ | with_reducible apply good_foldl
    | with_reducible apply good_foldl_snd | with_reducible apply good_foldl_snd2 | with_reducible apply good_foldl_fst
    | with_reducible apply State.allotSpares_good | with_reducible apply State.applyRow_good
    | with_reducible apply State.badMacro_good | with_reducible apply State.cleared_good
    | with_reducible apply State.endPhase_good | with_reducible apply State.holdMacros_good
    | with_reducible apply State.loadHot_good | with_reducible apply State.raise_good
    | with_reducible apply State.takeDevice_good | dsimp only | split

theorem State.badTables_good {s : State} (hs : State.Good p s) : (State.badTables s).Good p := by
  unfold State.badTables
  try dsimp only
  repeat' first
    | with_reducible assumption | with_reducible intro _ | with_reducible apply State.sendInfo_good
    | with_reducible apply State.tickFresh_good | dsimp only

theorem State.testedMemories_good {s : State} (hs : State.Good p s) : (State.testedMemories s).Good p := by
  unfold State.testedMemories
  have h := State.cleared_good hs inFirn
  refine { h with cells := swf_filterMap h.cells (fun e e' g => ?_) }
  dsimp only at g
  split at g
  · contradiction
  · cases g
    exact ⟨rfl, ‹_›⟩

theorem State.phase2End_good {s : State} (hs : State.Good p s) (bad : List MacroId) (spares : List (MacroId × Nat × Nat)) (irqTables : Bool) : (State.phase2End s bad spares irqTables).Good p := by
  unfold State.phase2End
  try dsimp only
  repeat' first
    | with_reducible assumption | with_reducible apply good_ite | with_reducible intro _ | with_reducible apply good_foldl
    | with_reducible apply good_foldl_snd | with_reducible apply good_foldl_snd2 | with_reducible apply good_foldl_fst
    | with_reducible apply State.allotSpares_good | with_reducible apply State.badMacro_good
    | with_reducible apply State.badTables_good | with_reducible apply State.endPhase_good
    | with_reducible apply State.holdMacros_good | with_reducible apply State.testedMemories_good | dsimp only | split

theorem State.buildMap_good {s : State} (hs : State.Good p s) (k : Nat) : (State.buildMap s k).Good p := by
  unfold State.buildMap
  try dsimp only
  repeat' first
    | with_reducible assumption | with_reducible apply good_ite | with_reducible intro _ | with_reducible apply good_foldl
    | with_reducible apply good_foldl_snd | with_reducible apply good_foldl_snd2 | with_reducible apply good_foldl_fst
    | with_reducible apply State.markDefective_good | with_reducible apply State.put_good
    | with_reducible apply State.spareIdle_good | dsimp only | split

theorem State.buildMaps_good {s : State} (hs : State.Good p s) : (State.buildMaps s).Good p := by
  unfold State.buildMaps
  try dsimp only
  repeat' first
    | with_reducible assumption | with_reducible apply good_ite | with_reducible intro _ | with_reducible apply good_foldl
    | with_reducible apply good_foldl_snd | with_reducible apply good_foldl_snd2 | with_reducible apply good_foldl_fst
    | with_reducible apply State.buildMap_good | with_reducible apply State.noteSpares_good | dsimp only | split

theorem State.phase3End_good {s : State} (hs : State.Good p s) (slots : List (Nat × Nat)) (clusters : List Nat) (units : List Nat) : (State.phase3End s slots clusters units).Good p := by
  unfold State.phase3End
  try dsimp only
  repeat' first
    | with_reducible assumption | with_reducible apply good_ite | with_reducible intro _ | with_reducible apply good_foldl
    | with_reducible apply good_foldl_snd | with_reducible apply good_foldl_snd2 | with_reducible apply good_foldl_fst
    | with_reducible apply State.buildMaps_good | with_reducible apply State.endPhase_good
    | with_reducible apply State.enterHold_good | with_reducible apply State.holdPlain_good
    | with_reducible apply State.unusable_good | simp only [good_mk, good_proj] | dsimp only | split

theorem State.microDone_good {s : State} (hs : State.Good p s) : (State.microDone s).Good p := by
  unfold State.microDone
  try dsimp only
  repeat' first
    | with_reducible assumption | with_reducible apply good_ite | with_reducible intro _
    | with_reducible apply State.endPhase_good | with_reducible apply State.holdPlain_good | dsimp only | split

theorem State.clearCells_good {s : State} (hs : State.Good p s) : (State.clearCells s).Good p := by
  unfold State.clearCells
  refine { hs with mem := swf_filter _ hs.mem, tagA := setWf_filter _ hs.tagA, tagB := setWf_filter _ hs.tagB, cells := ?_ }
  refine swf_filterMap hs.cells (fun e e' h => ?_)
  dsimp only at h
  split at h
  · contradiction
  · cases h
    exact ⟨rfl, ‹_›⟩

theorem State.phase5End_good {s : State} (hs : State.Good p s) (fails : List (Nat × Nat × Nat)) : (State.phase5End s fails).Good p := by
  unfold State.phase5End
  try dsimp only
  repeat' first
    | with_reducible assumption | with_reducible apply good_ite | with_reducible intro _ | with_reducible apply good_foldl
    | with_reducible apply good_foldl_snd | with_reducible apply good_foldl_snd2 | with_reducible apply good_foldl_fst
    | with_reducible apply State.buildMaps_good | with_reducible apply State.clearCells_good
    | with_reducible apply State.endPhase_good | with_reducible apply State.enterHold_good
    | with_reducible apply State.holdPlain_good | with_reducible apply State.moveAllFailed_good
    | with_reducible apply State.thawLock_good | with_reducible apply State.unusable_good | dsimp only | split

theorem State.phaseTimeout_good {s : State} (hs : State.Good p s) : (State.phaseTimeout s).Good p := by
  unfold State.phaseTimeout
  try dsimp only
  repeat' first
    | with_reducible assumption | with_reducible apply good_ite | with_reducible intro _
    | with_reducible apply State.holdPlain_good | dsimp only | split

theorem State.dropPacket_good {s : State} (hs : State.Good p s) : (State.dropPacket s).Good p := by
  unfold State.dropPacket
  try dsimp only
  repeat' first
    | with_reducible assumption | with_reducible intro _ | with_reducible apply State.put_good
    | simp only [good_mk, good_proj] | dsimp only

theorem State.blockReset_good {s : State} (hs : State.Good p s) (drst : Bool) : (State.blockReset s drst).Good p := by
  have key : Sound p s.pending (s.ctl.filter (fun e => debugReg e.1)) [] [] [] [] [] [] [] [] [] :=
    { queue := hs.queue, ctl := swf_filter _ hs.ctl, ctlTagA := rfl, ctlTagB := rfl, mem := rfl, tagA := rfl, tagB := rfl, cells := rfl, msgs := by simp,
      corr := by simp, cands := by simp }
  unfold State.blockReset
  dsimp only
  apply good_ite
  · intro _
    apply State.dropPacket_good
    apply State.put_good
    apply State.put_good
    exact key
  · intro _
    apply State.put_good
    exact key

end Sys2Proof.Machine
end

