-- ==== Sys2Proof/Laws/GoodRegWrite.lean ====
section
/-! SUPPORT. GoodRegWrite.lean: every function of RegWrite.lean keeps the tables sound. -/

namespace Sys2Proof.Machine

open Sys2Proof

set_option linter.unusedTactic false
set_option linter.unreachableTactic false
set_option linter.unusedSimpArgs false
set_option linter.unusedVariables false

variable {p : List Instr}

theorem State.refresh_good {s : State} (hs : State.Good p s) (off : Nat) : (State.refresh s off).Good p := by
  unfold State.refresh
  try dsimp only
  repeat' first
    | with_reducible assumption | with_reducible apply good_ite | with_reducible intro _
    | with_reducible apply State.readTime_good | with_reducible apply State.readTimer_good
    | with_reducible apply State.takeCycles_good | dsimp only | split

theorem State.readEffect_good {s : State} (hs : State.Good p s) (off : Nat) : (State.readEffect s off).Good p := by
  unfold State.readEffect
  try dsimp only
  repeat' first
    | with_reducible assumption | with_reducible apply good_ite | with_reducible intro _
    | with_reducible apply State.lockBuffer_good | with_reducible apply State.readFirst0_good
    | with_reducible apply State.releaseLock_good | with_reducible apply State.setReg_good | dsimp only | split

theorem State.regRead_good {s : State} (hs : State.Good p s) (off : Nat) : (State.regRead s off).2.Good p := by
  unfold State.regRead
  try dsimp only
  repeat' first
    | with_reducible assumption | with_reducible intro _ | with_reducible apply State.readEffect_good
    | with_reducible apply State.refresh_good | dsimp only

theorem State.plainWrite_good {s : State} (hs : State.Good p s) (off : Nat) (v : Word) : (State.plainWrite s off v).Good p := by
  unfold State.plainWrite
  try dsimp only
  repeat' first
    | with_reducible assumption | with_reducible intro _ | with_reducible apply State.setReg_good | dsimp only | split

theorem State.holdPins_good {s : State} (hs : State.Good p s) : (State.holdPins s).Good p := by
  unfold State.holdPins
  try dsimp only
  repeat' first
    | with_reducible assumption | with_reducible intro _ | with_reducible apply good_foldl
    | with_reducible apply good_foldl_snd | with_reducible apply good_foldl_snd2 | with_reducible apply good_foldl_fst
    | with_reducible apply State.raise_good | dsimp only

theorem State.invalidate_good {s : State} (hs : State.Good p s) (r : Nat) : (State.invalidate s r).Good p := by
  unfold State.invalidate
  try dsimp only
  repeat' first
    | with_reducible assumption | with_reducible apply good_ite | with_reducible intro _ | with_reducible apply good_foldl
    | with_reducible apply good_foldl_snd | with_reducible apply good_foldl_snd2 | with_reducible apply good_foldl_fst
    | with_reducible apply State.setCell_good | simp only [good_mk, good_proj] | dsimp only | split

theorem State.regionInstall_good {s : State} (hs : State.Good p s) (r : Nat) (v : Word) : (State.regionInstall s r v).Good p := by
  unfold State.regionInstall
  try dsimp only
  repeat' first
    | with_reducible assumption | with_reducible apply good_ite | with_reducible intro _
    | with_reducible apply State.invalidate_good | with_reducible apply State.plainWrite_good
    | with_reducible apply State.put_good | with_reducible apply State.setReg_good | simp only [good_mk, good_proj]
    | dsimp only | split

theorem State.writeFrm_good {s : State} (hs : State.Good p s) (off : Nat) (v : Word) : (State.writeFrm s off v).Good p := by
  unfold State.writeFrm
  try dsimp only
  repeat' first
    | with_reducible assumption | with_reducible apply good_ite | with_reducible intro _
    | with_reducible apply State.plainWrite_good | with_reducible apply State.raise_good
    | with_reducible apply State.writeFrmCtrl_good | dsimp only | split

theorem State.writeMor_good {s : State} (hs : State.Good p s) (off : Nat) (v : Word) : (State.writeMor s off v).Good p := by
  unfold State.writeMor
  try dsimp only
  repeat' first
    | with_reducible assumption | with_reducible apply good_ite | with_reducible intro _
    | with_reducible apply State.logPop_good | with_reducible apply State.plainWrite_good
    | with_reducible apply State.writeAck_good | dsimp only | split

theorem State.writeRpr_good {s : State} (hs : State.Good p s) (off : Nat) (v : Word) : (State.writeRpr s off v).Good p := by
  unfold State.writeRpr
  try dsimp only
  repeat' first
    | with_reducible assumption | with_reducible apply good_ite | with_reducible intro _
    | with_reducible apply State.plainWrite_good | with_reducible apply State.writeClk_good
    | with_reducible apply State.writeRprCmd_good | with_reducible apply State.writeSpare_good | dsimp only | split

theorem State.writeImg_good {s : State} (hs : State.Good p s) (off : Nat) (v : Word) : (State.writeImg s off v).Good p := by
  unfold State.writeImg
  try dsimp only
  repeat' first
    | with_reducible assumption | with_reducible apply good_ite | with_reducible intro _
    | with_reducible apply State.plainWrite_good | with_reducible apply State.raise_good | dsimp only | split

theorem State.writeQm_good {s : State} (hs : State.Good p s) (off : Nat) (v : Word) : (State.writeQm s off v).Good p := by
  unfold State.writeQm
  try dsimp only
  repeat' first
    | with_reducible assumption | with_reducible apply good_ite | with_reducible intro _
    | with_reducible apply State.channelIllegal_good | with_reducible apply State.channelStart_good
    | with_reducible apply State.plainWrite_good | dsimp only | split

theorem State.writeKeepReg_good {s : State} (hs : State.Good p s) (off : Nat) (v : Word) : (State.writeKeepReg s off v).Good p := by
  unfold State.writeKeepReg
  try dsimp only
  repeat' first
    | with_reducible assumption | with_reducible apply good_ite | with_reducible intro _
    | with_reducible apply State.plainWrite_good | with_reducible apply State.setReg_good
    | with_reducible apply State.writeKeepCfg_good | with_reducible apply State.writeKeepCmd_good | dsimp only | split

theorem State.writePort_good {s : State} (hs : State.Good p s) (n : Nat) (o : Nat) (v : Word) : (State.writePort s n o v).Good p := by
  unfold State.writePort
  try dsimp only
  repeat' first
    | with_reducible assumption | with_reducible apply good_ite | with_reducible intro _
    | with_reducible apply State.noteFilter_good | with_reducible apply State.plainWrite_good
    | with_reducible apply State.put_good | with_reducible apply State.raise_good
    | with_reducible apply State.writePortCtrl_good | dsimp only | split

theorem State.writeStby_good {s : State} (hs : State.Good p s) (off : Nat) (v : Word) : (State.writeStby s off v).Good p := by
  unfold State.writeStby
  try dsimp only
  repeat' first
    | with_reducible assumption | with_reducible apply good_ite | with_reducible intro _
    | with_reducible apply State.plainWrite_good | with_reducible apply State.raise_good
    | with_reducible apply State.writeStbyCtrl_good | dsimp only | split

theorem State.writeThaw_good {s : State} (hs : State.Good p s) (off : Nat) (v : Word) : (State.writeThaw s off v).Good p := by
  unfold State.writeThaw
  try dsimp only
  repeat' first
    | with_reducible assumption | with_reducible apply good_ite | with_reducible intro _
    | with_reducible apply State.ldvReceive_good | with_reducible apply State.microDone_good
    | with_reducible apply State.plainWrite_good | with_reducible apply State.writeLdvCtrl_good | dsimp only | split

theorem State.writeIrq_good {s : State} (hs : State.Good p s) (off : Nat) (v : Word) : (State.writeIrq s off v).Good p := by
  unfold State.writeIrq
  try dsimp only
  repeat' first
    | with_reducible assumption | with_reducible apply good_ite | with_reducible intro _
    | with_reducible apply State.irqAssert_good | with_reducible apply State.irqConfigure_good
    | with_reducible apply State.irqDeassert_good | with_reducible apply State.irqPendclr_good
    | with_reducible apply State.irqPendset_good | with_reducible apply State.irqPulse_good
    | with_reducible apply State.plainWrite_good | dsimp only | split

theorem State.writeCluster_good {s : State} (hs : State.Good p s) (k : Nat) (o : Nat) (v : Word) : (State.writeCluster s k o v).Good p := by
  unfold State.writeCluster
  try dsimp only
  repeat' first
    | with_reducible assumption | with_reducible intro _ | with_reducible apply State.holdPins_good
    | with_reducible apply State.plainWrite_good | with_reducible apply State.writePwrCtl_good
    | with_reducible apply State.writeRunCtl_good | dsimp only | split

theorem State.writeCell_good {s : State} (hs : State.Good p s) (c : Nat) (o : Nat) (v : Word) : (State.writeCell s c o v).Good p := by
  unfold State.writeCell
  try dsimp only
  repeat' first
    | with_reducible assumption | with_reducible apply good_ite | with_reducible intro _
    | with_reducible apply State.plainWrite_good | with_reducible apply State.setEntryTag_good
    | with_reducible apply State.warmReset_good | with_reducible apply State.writeEditCtrl_good
    | with_reducible apply State.writeLcfg_good | simp only [good_mk, good_proj] | dsimp only | split

theorem State.regWrite_good {s : State} (hs : State.Good p s) (m : Master) (off : Nat) (v : Word) (en : BitVec 4) : (State.regWrite s m off v en).2.Good p := by
  unfold State.regWrite
  try dsimp only
  repeat' first
    | with_reducible assumption | with_reducible apply good_ite | with_reducible apply good_ite_snd
    | with_reducible apply good_ite_snd2 | with_reducible apply good_ite_fst | with_reducible intro _
    | with_reducible apply State.holdPins_good | with_reducible apply State.plainWrite_good
    | with_reducible apply State.regionInstall_good | with_reducible apply State.settle_good
    | with_reducible apply State.writeCell_good | with_reducible apply State.writeCluster_good
    | with_reducible apply State.writeFrm_good | with_reducible apply State.writeImg_good
    | with_reducible apply State.writeIrq_good | with_reducible apply State.writeKeepReg_good
    | with_reducible apply State.writeMor_good | with_reducible apply State.writePort_good
    | with_reducible apply State.writePortRam_good | with_reducible apply State.writeQm_good
    | with_reducible apply State.writeRpr_good | with_reducible apply State.writeStby_good
    | with_reducible apply State.writeThaw_good | dsimp only | split

theorem State.resetBlock_good {s : State} (hs : State.Good p s) (drst : Bool) : (State.resetBlock s drst).Good p := by
  unfold State.resetBlock
  try dsimp only
  repeat' first
    | with_reducible assumption | with_reducible intro _ | with_reducible apply good_foldl
    | with_reducible apply good_foldl_snd | with_reducible apply good_foldl_snd2 | with_reducible apply good_foldl_fst
    | with_reducible apply State.blockReset_good | with_reducible apply State.plainWrite_good
    | simp only [good_mk, good_proj] | dsimp only

end Sys2Proof.Machine
end

