-- ==== Sys2Proof/Laws/GoodBus.lean ====
section
/-! SUPPORT. GoodBus.lean: every function of Bus.lean keeps the tables sound. -/

namespace Sys2Proof.Machine

open Sys2Proof

set_option linter.unusedTactic false
set_option linter.unreachableTactic false
set_option linter.unusedSimpArgs false
set_option linter.unusedVariables false

variable {p : List Instr}

theorem State.busRead_good {s : State} (hs : State.Good p s) (pa : Nat) : (State.busRead s pa).2.Good p := by
  unfold State.busRead
  try dsimp only
  repeat' first
    | with_reducible assumption | with_reducible apply good_ite | with_reducible apply good_ite_snd
    | with_reducible apply good_ite_snd2 | with_reducible apply good_ite_fst | with_reducible intro _
    | with_reducible apply State.candidate_good | with_reducible apply State.corrected_good
    | with_reducible apply State.readWord_good | with_reducible apply State.regRead_good
    | with_reducible apply State.sendAddr_good | with_reducible apply State.touchDesc_good
    | (refine good_of_snd (by with_reducible assumption) ?_) | dsimp only | split

theorem State.readTag_good {s : State} (hs : State.Good p s) (pa : Nat) : (State.readTag s pa).Good p := by
  unfold State.readTag
  try dsimp only
  repeat' first
    | with_reducible assumption | with_reducible apply good_ite | with_reducible intro _
    | with_reducible apply State.entryCheck_good | with_reducible apply State.tagCheck_good | dsimp only | split

theorem State.busWrite_good {s : State} (hs : State.Good p s) (m : Master) (pa : Nat) (w : Word) (en : BitVec 4) (tag : Bool) (self : Option Nat) : (State.busWrite s m pa w en tag self).2.Good p := by
  unfold State.busWrite
  try dsimp only
  repeat' first
    | with_reducible assumption | with_reducible apply good_ite | with_reducible apply good_ite_snd
    | with_reducible apply good_ite_snd2 | with_reducible apply good_ite_fst | with_reducible intro _
    | with_reducible apply State.clearEcc_good | with_reducible apply State.coherent_good
    | with_reducible apply State.descWrite_good | with_reducible apply State.regWrite_good
    | with_reducible apply State.setEntryTag_good | with_reducible apply State.writeWord_good
    | (refine good_of_snd (by with_reducible assumption) ?_) | dsimp only | split

theorem State.answer_good {s : State} (hs : State.Good p s) (tag : BitVec 8) (a : Answer) : (State.answer s tag a).Good p := by
  unfold State.answer
  try dsimp only
  repeat' first
    | with_reducible assumption | with_reducible apply good_ite | with_reducible intro _
    | with_reducible apply State.bump_good | simp only [good_mk, good_proj] | dsimp only | split

theorem State.beatRead_good {s : State} (hs : State.Good p s) (pa : Nat) (en : BitVec 4) : (State.beatRead s pa en).2.Good p := by
  unfold State.beatRead
  try dsimp only
  repeat' first
    | with_reducible assumption | with_reducible apply good_ite | with_reducible apply good_ite_snd
    | with_reducible apply good_ite_snd2 | with_reducible apply good_ite_fst | with_reducible intro _
    | with_reducible apply State.busRead_good | (refine good_of_snd (by with_reducible assumption) ?_) | dsimp only | split

theorem State.beatWrite_good {s : State} (hs : State.Good p s) (pa : Nat) (w : Word) (en : BitVec 4) : (State.beatWrite s pa w en).2.Good p := by
  unfold State.beatWrite
  try dsimp only
  repeat' first
    | with_reducible assumption | with_reducible apply good_ite | with_reducible apply good_ite_snd
    | with_reducible apply good_ite_snd2 | with_reducible apply good_ite_fst | with_reducible intro _
    | with_reducible apply State.busWrite_good | (refine good_of_snd (by with_reducible assumption) ?_) | dsimp only | split

theorem State.readBeat_good {s : State} (hs : State.Good p s) (pa : Nat) (en : BitVec 8) : (State.readBeat s pa en).2.Good p := by
  unfold State.readBeat
  try dsimp only
  repeat' first
    | with_reducible assumption | with_reducible intro _ | with_reducible apply State.beatRead_good
    | (refine good_of_snd (by with_reducible assumption) ?_) | dsimp only | split

theorem State.writeBeat_good {s : State} (hs : State.Good p s) (pa : Nat) (en : BitVec 8) (d : DWord) : (State.writeBeat s pa en d).2.Good p := by
  unfold State.writeBeat
  try dsimp only
  repeat' first
    | with_reducible assumption | with_reducible apply good_ite | with_reducible apply good_ite_snd
    | with_reducible apply good_ite_snd2 | with_reducible apply good_ite_fst | with_reducible intro _
    | with_reducible apply State.beatWrite_good | with_reducible apply State.bump_good
    | with_reducible apply State.raise_good | with_reducible apply State.touchDesc_good | dsimp only | split

theorem State.slaveAccess_good {s : State} (hs : State.Good p s) (tag : BitVec 8) (addr : Nat) (wr : Bool) (beats : List (BitVec 8 × DWord)) : (State.slaveAccess s tag addr wr beats).Good p := by
  unfold State.slaveAccess
  try dsimp only
  repeat' first
    | with_reducible assumption | with_reducible apply good_ite | with_reducible intro _ | with_reducible apply good_foldl
    | with_reducible apply good_foldl_snd | with_reducible apply good_foldl_snd2 | with_reducible apply good_foldl_fst
    | with_reducible apply State.answer_good | with_reducible apply State.readBeat_good
    | with_reducible apply State.writeBeat_good | (refine good_of_snd (by with_reducible assumption) ?_) | dsimp only
    | split

theorem State.slaveWord_good {s : State} (hs : State.Good p s) (pa : Nat) (en : BitVec 4) (w : Option Word) : (State.slaveWord s pa en w).Good p := by
  unfold State.slaveWord
  try dsimp only
  repeat' first
    | with_reducible assumption | with_reducible apply good_ite | with_reducible intro _
    | with_reducible apply State.slaveAccess_good | with_reducible apply good_getD | dsimp only | split

end Sys2Proof.Machine
end

