-- ==== Sys2Proof/Laws/GoodData.lean ====
section
/-! SUPPORT. GoodData.lean: every function of Data.lean keeps the tables sound. -/

namespace Sys2Proof.Machine

open Sys2Proof

set_option linter.unusedTactic false
set_option linter.unreachableTactic false
set_option linter.unusedSimpArgs false
set_option linter.unusedVariables false

variable {p : List Instr}

theorem State.fault2_good {α : Type} {s : State} (hs : State.Good p s) (info : Nat) : (State.fault2 (α := α) s info).Good p := by
  unfold State.fault2
  try dsimp only
  repeat' first
    | with_reducible assumption | with_reducible intro _ | with_reducible apply ex_ok | with_reducible apply ex_flt
    | with_reducible apply ex_stall | with_reducible apply ex_bind | with_reducible apply State.tickFresh_good | dsimp only

theorem State.wait_good {s : State} (hs : State.Good p s) (c : Nat) : (State.wait s c).Good p := by
  unfold State.wait
  try dsimp only
  repeat' first
    | with_reducible assumption | with_reducible intro _ | with_reducible apply State.charge_good
    | with_reducible apply State.tickFresh_good | dsimp only

theorem State.openTx_good {s : State} (hs : State.Good p s) (c : Nat) (addr : Nat) (beats : Nat) (wr : Bool) (dev : Bool) (spec : Bool) (dw : Bool) (data : List (Word × BitVec 4)) (use : FabUse) : OptGood p (State.openTx s c addr beats wr dev spec dw data use) := by
  unfold State.openTx
  try dsimp only
  repeat' first
    | with_reducible assumption | with_reducible apply good_ite | with_reducible intro _
    | with_reducible apply State.pump_good | with_reducible apply opt_map | with_reducible apply opt_some
    | with_reducible apply opt_none | with_reducible apply opt_ite | simp only [good_mk, good_proj] | dsimp only | split

theorem State.readLine8_good {s : State} (hs : State.Good p s) (pa : Nat) : (State.readLine8 s pa).2.Good p := by
  unfold State.readLine8
  try dsimp only
  repeat' first
    | with_reducible assumption | with_reducible intro _ | with_reducible apply good_foldl
    | with_reducible apply good_foldl_snd | with_reducible apply good_foldl_snd2 | with_reducible apply good_foldl_fst
    | with_reducible apply State.readWord_good | dsimp only

theorem State.noteDet_good {s : State} (hs : State.Good p s) (c : Nat) (pa : Nat) : (State.noteDet s c pa).Good p := by
  unfold State.noteDet
  try dsimp only
  repeat' first
    | with_reducible assumption | with_reducible apply good_ite | with_reducible intro _
    | with_reducible apply State.raise_good | dsimp only | split

theorem State.storeError_good {s : State} (hs : State.Good p s) (c : Nat) (pa : Nat) : (State.storeError s c pa).Good p := by
  unfold State.storeError
  try dsimp only
  repeat' first
    | with_reducible assumption | with_reducible intro _ | with_reducible apply State.sendAddr_good | dsimp only

theorem State.drainFrom_good (c : Nat) (e : SbEntry) (l : List (Word × BitVec 4)) {s : State} (hs : s.Good p) (pa : Nat) :
    (State.drainFrom c e pa l s).2.Good p := by
  induction l generalizing s pa with
  | nil => exact hs
  | cons a l ih =>
    obtain ⟨w, en⟩ := a
    unfold State.drainFrom
    split
    · exact good_of_snd (by assumption) (State.busWrite_good hs _ _ _ _ _ _)
    · exact State.storeError_good (good_of_snd (by assumption) (State.busWrite_good hs _ _ _ _ _ _)) _ _
    · have h := good_of_snd (by assumption) (State.busWrite_good hs (.cell (BitVec.ofNat 8 c)) pa w en e.tag (some c))
      split
      · exact ih (State.noteLine_good h _) _
      · exact ih h _

theorem State.drainWords_good {s : State} (hs : State.Good p s) (c : Nat) (e : SbEntry) : (State.drainWords s c e).2.Good p := by
  unfold State.drainWords
  try dsimp only
  repeat' first
    | with_reducible assumption | with_reducible apply good_ite | with_reducible apply good_ite_snd
    | with_reducible apply good_ite_snd2 | with_reducible apply good_ite_fst | with_reducible intro _
    | with_reducible apply State.drainFrom_good | with_reducible apply State.storeError_good
    | with_reducible apply State.tickFresh_good | simp only [good_mk, good_proj] | dsimp only | split

theorem State.setSb_good {s : State} (hs : State.Good p s) (c : Nat) (l : List SbEntry) : (State.setSb s c l).Good p := by
  unfold State.setSb
  try dsimp only
  repeat' first
    | with_reducible assumption | with_reducible intro _ | with_reducible apply State.modCell_good
    | simp only [good_mk, good_proj] | dsimp only

theorem State.drainFabric_good {s : State} (hs : State.Good p s) (c : Nat) (e : SbEntry) (rest : List SbEntry) : (State.drainFabric s c e rest).Good p := by
  unfold State.drainFabric
  try dsimp only
  repeat' first
    | with_reducible assumption | with_reducible apply good_ite | with_reducible intro _
    | with_reducible apply State.openTx_good | with_reducible apply State.setSb_good | simp only [good_mk, good_proj]
    | (refine good_of_some (by with_reducible assumption) ?_) | dsimp only | split

theorem State.drainHead_good {s : State} (hs : State.Good p s) (c : Nat) : (State.drainHead s c).Good p := by
  unfold State.drainHead
  try dsimp only
  repeat' first
    | with_reducible assumption | with_reducible apply good_ite | with_reducible intro _
    | with_reducible apply State.afterStore_good | with_reducible apply State.drainFabric_good
    | with_reducible apply State.drainWords_good | with_reducible apply State.setSb_good
    | (refine good_of_snd (by with_reducible assumption) ?_) | dsimp only | split

theorem State.drainMany_good {s : State} (hs : State.Good p s) (c : Nat) (y0 : Nat) : (State.drainMany s c y0).Good p := by
  induction y0 generalizing s c hs with
  | zero =>
    unfold State.drainMany
    try dsimp only
    repeat' first
      | with_reducible assumption | with_reducible apply good_ite | with_reducible intro _
      | with_reducible apply State.drainHead_good | dsimp only | split
  | succ n ih =>
    unfold State.drainMany
    try dsimp only
    repeat' first
      | with_reducible apply ih
      | with_reducible assumption | with_reducible apply good_ite | with_reducible intro _
      | with_reducible apply State.drainHead_good | dsimp only | split

theorem State.drainAll_good {s : State} (hs : State.Good p s) (c : Nat) : (State.drainAll s c).Good p := by
  unfold State.drainAll
  try dsimp only
  repeat' first
    | with_reducible assumption | with_reducible apply ex_ite | with_reducible apply good_ite | with_reducible intro _
    | with_reducible apply ex_ok | with_reducible apply ex_flt | with_reducible apply ex_stall
    | with_reducible apply ex_bind | with_reducible apply State.drainMany_good | dsimp only | split

theorem State.drainOld_good {s : State} (hs : State.Good p s) (c : Nat) : (State.drainOld s c).Good p := by
  unfold State.drainOld
  try dsimp only
  repeat' first
    | with_reducible assumption | with_reducible apply ex_ite | with_reducible apply good_ite | with_reducible intro _
    | with_reducible apply ex_ok | with_reducible apply ex_flt | with_reducible apply ex_stall
    | with_reducible apply ex_bind | with_reducible apply State.drainAll_good | dsimp only | split

theorem State.locate_good {s : State} (hs : State.Good p s) (c : Nat) (k : Bank) (cap : Cap) (perm : Bool) (ea : Nat) (size : Nat) : (State.locate s c k cap perm ea size).Good p := by
  unfold State.locate
  try dsimp only
  repeat' first
    | with_reducible assumption | with_reducible intro _ | with_reducible apply ex_ok | with_reducible apply ex_flt
    | with_reducible apply ex_stall | with_reducible apply ex_bind | with_reducible apply ex_collect
    | with_reducible apply State.refill_good | simp only [good_mk, good_proj]
    | (refine good_of_ok (by with_reducible assumption) ?_) | (refine good_of_flt (by with_reducible assumption) ?_)
    | (refine good_of_stall (by with_reducible assumption) ?_) | dsimp only | split

theorem State.watchAccess_good {s : State} (hs : State.Good p s) (c : Nat) (wr : Bool) (vas : List Nat) : (State.watchAccess s c wr vas).Good p := by
  unfold State.watchAccess
  try dsimp only
  repeat' first
    | with_reducible assumption | with_reducible apply good_ite | with_reducible intro _
    | with_reducible apply State.modCell_good | simp only [good_mk, good_proj] | dsimp only | split

theorem State.cacheRead_good {s : State} (hs : State.Good p s) (c : Nat) (z2 : Phys) (l : CacheLine) : (State.cacheRead s c z2 l).2.Good p := by
  unfold State.cacheRead
  try dsimp only
  repeat' first
    | with_reducible assumption | with_reducible apply good_ite | with_reducible apply good_ite_snd
    | with_reducible apply good_ite_snd2 | with_reducible apply good_ite_fst | with_reducible intro _
    | with_reducible apply State.cacheError_good | with_reducible apply State.modCell_good | with_reducible apply good_getD
    | (refine good_of_snd (by with_reducible assumption) ?_) | dsimp only | split

theorem State.fillLine_good {s : State} (hs : State.Good p s) (c : Nat) (z2 : Phys) : (State.fillLine s c z2).2.Good p := by
  unfold State.fillLine
  try dsimp only
  repeat' first
    | with_reducible assumption | with_reducible apply good_ite | with_reducible apply good_ite_snd
    | with_reducible apply good_ite_snd2 | with_reducible apply good_ite_fst | with_reducible intro _
    | with_reducible apply State.modCell_good | with_reducible apply State.readLine8_good | with_reducible apply good_getD
    | dsimp only | split

theorem State.deviceTurn_good {s : State} (hs : State.Good p s) (c : Nat) (dev : Bool) : (State.deviceTurn s c dev).Good p := by
  unfold State.deviceTurn
  try dsimp only
  repeat' first
    | with_reducible assumption | with_reducible apply ex_ite | with_reducible apply good_ite | with_reducible intro _
    | with_reducible apply ex_ok | with_reducible apply ex_flt | with_reducible apply ex_stall
    | with_reducible apply ex_bind | with_reducible apply State.drainMany_good | dsimp only | split

theorem State.fetchFabric_good {s : State} (hs : State.Good p s) (c : Nat) (z2 : Phys) (va : Nat) (info : Nat) : (State.fetchFabric s c z2 va info).Good p := by
  unfold State.fetchFabric
  try dsimp only
  repeat' first
    | with_reducible assumption | with_reducible apply ex_ite | with_reducible apply good_ite | with_reducible intro _
    | with_reducible apply ex_ok | with_reducible apply ex_flt | with_reducible apply ex_stall
    | with_reducible apply ex_bind | with_reducible apply State.deviceTurn_good | with_reducible apply State.keepPlace_good
    | with_reducible apply State.modCell_good | with_reducible apply State.openTx_good | with_reducible apply good_getD
    | simp only [good_mk, good_proj] | (refine good_of_ok (by with_reducible assumption) ?_)
    | (refine good_of_flt (by with_reducible assumption) ?_) | (refine good_of_stall (by with_reducible assumption) ?_)
    | (refine good_of_some (by with_reducible assumption) ?_) | with_reducible apply opt_map_good | dsimp only | split

theorem State.readMemory_good {s : State} (hs : State.Good p s) (c : Nat) (va : Nat) (z3 : Phys) (info : Nat) : (State.readMemory s c va z3 info).Good p := by
  unfold State.readMemory
  try dsimp only
  repeat' first
    | with_reducible assumption | with_reducible apply ex_ite | with_reducible apply good_ite | with_reducible intro _
    | with_reducible apply ex_ok | with_reducible apply ex_flt | with_reducible apply ex_stall
    | with_reducible apply ex_bind | with_reducible apply State.busRead_good | with_reducible apply State.cacheRead_good
    | with_reducible apply State.fetchFabric_good | with_reducible apply State.fillLine_good
    | with_reducible apply State.noteDet_good | with_reducible apply good_getD | simp only [good_mk, good_proj]
    | (refine good_of_snd (by with_reducible assumption) ?_) | (refine good_of_ok (by with_reducible assumption) ?_)
    | (refine good_of_flt (by with_reducible assumption) ?_) | (refine good_of_stall (by with_reducible assumption) ?_)
    | dsimp only | split

theorem State.readLive_good {s : State} (hs : State.Good p s) (c : Nat) (at_ : Bool × Nat) : (State.readLive s c at_).Good p := by
  unfold State.readLive
  try dsimp only
  repeat' first
    | with_reducible assumption | with_reducible apply ex_ite | with_reducible apply good_ite | with_reducible intro _
    | with_reducible apply ex_ok | with_reducible apply ex_flt | with_reducible apply ex_stall
    | with_reducible apply ex_bind | (refine good_of_ok (by with_reducible assumption) ?_)
    | (refine good_of_flt (by with_reducible assumption) ?_) | (refine good_of_stall (by with_reducible assumption) ?_)
    | dsimp only | split

theorem State.drainPast_good (c pa : Nat) (need : BitVec 4) (n : Nat) {s : State} (hs : s.Good p) : (State.drainPast c pa need n s).Good p := by
  induction n generalizing s with
  | zero =>
    unfold State.drainPast
    split
    · exact ex_ok hs
    · exact ex_stall hs
  | succ n ih =>
    unfold State.drainPast
    split
    · exact ex_ok hs
    · dsimp only
      split
      · exact ex_stall (State.drainHead_good hs c)
      · exact ih (State.drainHead_good hs c)

theorem State.drainFor_good {s : State} (hs : State.Good p s) (c : Nat) (pa : Nat) (need : BitVec 4) : (State.drainFor s c pa need).Good p := by
  unfold State.drainFor
  try dsimp only
  repeat' first
    | with_reducible assumption | with_reducible intro _ | with_reducible apply ex_ok | with_reducible apply ex_flt
    | with_reducible apply ex_stall | with_reducible apply ex_bind | with_reducible apply State.drainPast_good | dsimp only

theorem State.readNow_good {s : State} (hs : State.Good p s) (c : Nat) (need : BitVec 4) (info : Nat) (a : Nat × Phys) : (State.readNow s c need info a).Good p := by
  unfold State.readNow
  try dsimp only
  repeat' first
    | with_reducible assumption | with_reducible apply ex_ite | with_reducible apply good_ite | with_reducible intro _
    | with_reducible apply ex_ok | with_reducible apply ex_flt | with_reducible apply ex_stall
    | with_reducible apply ex_bind | with_reducible apply State.drainFor_good | with_reducible apply State.readLive_good
    | with_reducible apply State.readMemory_good | (refine good_of_ok (by with_reducible assumption) ?_)
    | (refine good_of_flt (by with_reducible assumption) ?_) | (refine good_of_stall (by with_reducible assumption) ?_)
    | dsimp only | split

theorem State.readWords_good {s : State} (hs : State.Good p s) (c : Nat) (info : Nat) (l : List (Nat × Phys)) : (State.readWords s c info l).Good p := by
  unfold State.readWords
  try dsimp only
  repeat' first
    | with_reducible assumption | with_reducible intro _ | with_reducible apply ex_ok | with_reducible apply ex_flt
    | with_reducible apply ex_stall | with_reducible apply ex_bind | with_reducible apply ex_collect
    | with_reducible apply State.drainOld_good | with_reducible apply State.readNow_good
    | with_reducible apply State.watchAccess_good | dsimp only

theorem State.readTagOf_good {s : State} (hs : State.Good p s) (c : Nat) (pa : Nat) : (State.readTagOf s c pa).2.Good p := by
  unfold State.readTagOf
  try dsimp only
  repeat' first
    | with_reducible assumption | with_reducible apply good_ite | with_reducible apply good_ite_snd
    | with_reducible apply good_ite_snd2 | with_reducible apply good_ite_fst | with_reducible intro _
    | with_reducible apply State.entryCheck_good | with_reducible apply State.readTag_good
    | (refine good_of_snd (by with_reducible assumption) ?_) | dsimp only | split

theorem State.pushStores_good {s : State} (hs : State.Good p s) (c : Nat) (ns : List SbEntry) : (State.pushStores s c ns).Good p := by
  unfold State.pushStores
  try dsimp only
  repeat' first
    | with_reducible assumption | with_reducible apply ex_ite | with_reducible apply good_ite | with_reducible intro _
    | with_reducible apply ex_ok | with_reducible apply ex_flt | with_reducible apply ex_stall
    | with_reducible apply ex_bind | with_reducible apply good_foldl | with_reducible apply good_foldl_snd
    | with_reducible apply good_foldl_snd2 | with_reducible apply good_foldl_fst | with_reducible apply State.drainHead_good
    | with_reducible apply State.setSb_good | (refine good_of_ok (by with_reducible assumption) ?_)
    | (refine good_of_flt (by with_reducible assumption) ?_) | (refine good_of_stall (by with_reducible assumption) ?_)
    | dsimp only | split

theorem State.maskStore_good {s : State} (hs : s.Good p) (c : Nat) (w : Word) (en : BitVec 4) : (State.maskStore s c w en).Good p := by
  unfold State.maskStore
  split
  · exact State.modCur_good hs _ _
  · exact State.storeError_good hs _ _

/-- An optional part of an instruction keeps the tables sound. -/
def OptExGood (p : List Instr) (x : Option (Ex Unit)) : Prop := ∀ e, x = some e → e.Good p

theorem optEx_getD {x : Option (Ex Unit)} {d : Ex Unit} (h : OptExGood p x) (hs : d.Good p) : (x.getD d).Good p := by
  cases x with
  | none => exact hs
  | some e => exact h e rfl

theorem State.storeLive_good {s : State} (hs : s.Good p) (c : Nat) (a : Bool × Nat) (home : Nat) (w : Word) (en : BitVec 4) :
    OptExGood p (State.storeLive s c a home w en) := by
  intro e h
  unfold State.storeLive at h
  dsimp only at h
  repeat' split at h
  all_goals first
    | (obtain rfl := Option.some.inj h; first | exact ex_stall hs | exact ex_ok (State.modCur_good hs _ _))
    | cases h

theorem State.storeOne_good {s : State} (hs : s.Good p) (c skip : Nat) (a : Nat × Phys) (w : Word) (en : BitVec 4) :
    OptExGood p (State.storeOne s c skip a w en) := by
  intro e h
  unfold State.storeOne at h
  repeat' split at h
  · exact State.storeLive_good hs _ _ _ _ _ e h
  · obtain rfl := Option.some.inj h
    exact ex_ok (State.maskStore_good hs _ _ _)
  · cases h

theorem State.storeWords_good {s : State} (hs : State.Good p s) (c : Nat) (l : List (Nat × Phys)) (ws : List Word) (en : BitVec 4) (tag : Bool) (dbl : Bool) (skip : Nat) : (State.storeWords s c l ws en tag dbl skip).Good p := by
  unfold State.storeWords
  try dsimp only
  repeat' first
    | with_reducible assumption | with_reducible apply ex_ite | with_reducible apply good_ite | with_reducible intro _
    | with_reducible apply ex_ok | with_reducible apply ex_flt | with_reducible apply ex_stall
    | with_reducible apply ex_bind | with_reducible apply ex_each | with_reducible apply good_foldl
    | with_reducible apply good_foldl_snd | with_reducible apply good_foldl_snd2 | with_reducible apply good_foldl_fst
    | with_reducible apply State.charge_good | with_reducible apply State.drainMany_good
    | with_reducible apply State.drainOld_good | with_reducible apply State.noteDet_good
    | with_reducible apply State.pushStores_good | with_reducible apply State.watchAccess_good
    | with_reducible apply good_getD | simp only [good_mk, good_proj]
    | (refine good_of_ok (by with_reducible assumption) ?_) | (refine good_of_flt (by with_reducible assumption) ?_)
    | (refine good_of_stall (by with_reducible assumption) ?_)
    | (refine optEx_getD (State.storeOne_good (by assumption) _ _ _ _ _) (ex_ok (by assumption))) | dsimp only | split

end Sys2Proof.Machine
end

