-- ==== Sys2Proof/Laws/GoodWindow.lean ====
section
/-! SUPPORT. GoodWindow.lean: every function of Window.lean keeps the tables sound. -/

namespace Sys2Proof.Machine

open Sys2Proof

set_option linter.unusedTactic false
set_option linter.unreachableTactic false
set_option linter.unusedSimpArgs false
set_option linter.unusedVariables false

variable {p : List Instr}

theorem State.chargeListed_good {s : State} (hs : State.Good p s) (c : Nat) (n : Nat) : (State.chargeListed s c n).Good p := by
  unfold State.chargeListed
  try dsimp only
  repeat' first
    | with_reducible assumption | with_reducible apply good_ite | with_reducible intro _
    | with_reducible apply State.charge_good | dsimp only | split

theorem State.chargeForced_good {s : State} (hs : State.Good p s) (c : Nat) (n : Nat) : (State.chargeForced s c n).Good p := by
  unfold State.chargeForced
  try dsimp only
  repeat' first
    | with_reducible assumption | with_reducible apply good_ite | with_reducible intro _
    | with_reducible apply State.charge_good | with_reducible apply State.wait_good | dsimp only | split

theorem State.fillRead_good {s : State} (hs : State.Good p s) (c : Nat) (va : Nat) : (State.fillRead s c va).Good p := by
  unfold State.fillRead
  try dsimp only
  repeat' first
    | with_reducible assumption | with_reducible intro _ | with_reducible apply ex_ok | with_reducible apply ex_flt
    | with_reducible apply ex_stall | with_reducible apply ex_bind | with_reducible apply State.drainFor_good
    | with_reducible apply State.readMemory_good | with_reducible apply State.refill_good | simp only [good_mk, good_proj]
    | (refine good_of_ok (by with_reducible assumption) ?_) | (refine good_of_flt (by with_reducible assumption) ?_)
    | (refine good_of_stall (by with_reducible assumption) ?_) | dsimp only | split

theorem State.fillOne_good {s : State} (hs : State.Good p s) (c : Nat) (r : Bool) : (State.fillOne s c r).Good p := by
  unfold State.fillOne
  try dsimp only
  repeat' first
    | with_reducible assumption | with_reducible intro _ | with_reducible apply ex_ok | with_reducible apply ex_flt
    | with_reducible apply ex_stall | with_reducible apply ex_bind | with_reducible apply State.fillRead_good
    | with_reducible apply State.modCur_good | dsimp only

theorem State.writeThrough_good {s : State} (hs : State.Good p s) (c : Nat) (z2 : Phys) (w : Word) (tag : Bool) : (State.writeThrough s c z2 w tag).Good p := by
  unfold State.writeThrough
  try dsimp only
  repeat' first
    | with_reducible assumption | with_reducible apply ex_ite | with_reducible apply good_ite | with_reducible intro _
    | with_reducible apply ex_ok | with_reducible apply ex_flt | with_reducible apply ex_stall
    | with_reducible apply ex_bind | with_reducible apply State.busWrite_good | with_reducible apply State.deviceTurn_good
    | with_reducible apply State.maskStore_good | with_reducible apply State.modCell_good
    | with_reducible apply State.noteDet_good | with_reducible apply State.noteLine_good
    | with_reducible apply State.openTx_good | with_reducible apply State.storeError_good
    | (refine good_of_snd (by with_reducible assumption) ?_) | (refine good_of_ok (by with_reducible assumption) ?_)
    | (refine good_of_flt (by with_reducible assumption) ?_) | (refine good_of_stall (by with_reducible assumption) ?_)
    | (refine good_of_some (by with_reducible assumption) ?_) | dsimp only | split

theorem State.spillOne_good {s : State} (hs : State.Good p s) (c : Nat) (r : Bool) : (State.spillOne s c r).Good p := by
  unfold State.spillOne
  try dsimp only
  repeat' first
    | with_reducible assumption | with_reducible apply ex_ite | with_reducible apply good_ite | with_reducible intro _
    | with_reducible apply ex_ok | with_reducible apply ex_flt | with_reducible apply ex_stall
    | with_reducible apply ex_bind | with_reducible apply State.drainFor_good | with_reducible apply State.modCur_good
    | with_reducible apply State.refill_good | with_reducible apply State.writeThrough_good | simp only [good_mk, good_proj]
    | (refine good_of_ok (by with_reducible assumption) ?_) | (refine good_of_flt (by with_reducible assumption) ?_)
    | (refine good_of_stall (by with_reducible assumption) ?_) | dsimp only | split

theorem State.fillTo_good {s : State} (hs : State.Good p s) (c : Nat) (r : Bool) (need : Nat) (y0 : Nat) : (State.fillTo s c r need y0).Good p := by
  induction y0 generalizing s c r need hs with
  | zero =>
    unfold State.fillTo
    try dsimp only
    repeat' first
      | with_reducible assumption | with_reducible apply good_ite | with_reducible intro _ | with_reducible apply ex_ok
      | with_reducible apply ex_flt | with_reducible apply ex_stall | with_reducible apply ex_bind
      | with_reducible apply State.chargeForced_good | with_reducible apply State.fillOne_good
      | (refine good_of_ok (by with_reducible assumption) ?_) | (refine good_of_flt (by with_reducible assumption) ?_)
      | (refine good_of_stall (by with_reducible assumption) ?_) | dsimp only | split
  | succ n ih =>
    unfold State.fillTo
    try dsimp only
    repeat' first
      | with_reducible apply ih
      | with_reducible assumption | with_reducible apply good_ite | with_reducible intro _ | with_reducible apply ex_ok
      | with_reducible apply ex_flt | with_reducible apply ex_stall | with_reducible apply ex_bind
      | with_reducible apply State.chargeForced_good | with_reducible apply State.fillOne_good
      | (refine good_of_ok (by with_reducible assumption) ?_) | (refine good_of_flt (by with_reducible assumption) ?_)
      | (refine good_of_stall (by with_reducible assumption) ?_) | dsimp only | split

theorem State.spillTo_good {s : State} (hs : State.Good p s) (c : Nat) (r : Bool) (most : Nat) (y0 : Nat) : (State.spillTo s c r most y0).Good p := by
  induction y0 generalizing s c r most hs with
  | zero =>
    unfold State.spillTo
    try dsimp only
    repeat' first
      | with_reducible assumption | with_reducible apply good_ite | with_reducible intro _ | with_reducible apply ex_ok
      | with_reducible apply ex_flt | with_reducible apply ex_stall | with_reducible apply ex_bind
      | with_reducible apply State.chargeForced_good | with_reducible apply State.spillOne_good
      | (refine good_of_ok (by with_reducible assumption) ?_) | (refine good_of_flt (by with_reducible assumption) ?_)
      | (refine good_of_stall (by with_reducible assumption) ?_) | dsimp only | split
  | succ n ih =>
    unfold State.spillTo
    try dsimp only
    repeat' first
      | with_reducible apply ih
      | with_reducible assumption | with_reducible apply good_ite | with_reducible intro _ | with_reducible apply ex_ok
      | with_reducible apply ex_flt | with_reducible apply ex_stall | with_reducible apply ex_bind
      | with_reducible apply State.chargeForced_good | with_reducible apply State.spillOne_good
      | (refine good_of_ok (by with_reducible assumption) ?_) | (refine good_of_flt (by with_reducible assumption) ?_)
      | (refine good_of_stall (by with_reducible assumption) ?_) | dsimp only | split

theorem State.ensure_good {s : State} (hs : State.Good p s) (c : Nat) (r : Bool) (need : Nat) (dropped : Nat) (pushes : Nat) : (State.ensure s c r need dropped pushes).Good p := by
  unfold State.ensure
  try dsimp only
  repeat' first
    | with_reducible assumption | with_reducible intro _ | with_reducible apply ex_ok | with_reducible apply ex_flt
    | with_reducible apply ex_stall | with_reducible apply ex_bind | with_reducible apply State.fillTo_good
    | with_reducible apply State.spillTo_good | dsimp only

theorem State.spillBelow_good {s : State} (hs : State.Good p s) (c : Nat) (keep : Nat) : (State.spillBelow s c keep).Good p := by
  unfold State.spillBelow
  try dsimp only
  repeat' first
    | with_reducible assumption | with_reducible intro _ | with_reducible apply ex_ok | with_reducible apply ex_flt
    | with_reducible apply ex_stall | with_reducible apply ex_bind | with_reducible apply State.spillTo_good | dsimp only

theorem State.backFill_good {s : State} (hs : State.Good p s) (c : Nat) (r : Bool) : (State.backFill s c r).Good p := by
  unfold State.backFill
  try dsimp only
  repeat' first
    | with_reducible assumption | with_reducible intro _ | with_reducible apply State.fillOne_good
    | with_reducible apply State.modCur_good | (refine good_of_ok (by with_reducible assumption) ?_)
    | (refine good_of_flt (by with_reducible assumption) ?_) | (refine good_of_stall (by with_reducible assumption) ?_)
    | dsimp only | split

theorem State.backSpill_good {s : State} (hs : State.Good p s) (c : Nat) (r : Bool) : (State.backSpill s c r).Good p := by
  unfold State.backSpill
  try dsimp only
  repeat' first
    | with_reducible assumption | with_reducible intro _ | with_reducible apply State.modCur_good
    | with_reducible apply State.spillOne_good | (refine good_of_ok (by with_reducible assumption) ?_)
    | (refine good_of_flt (by with_reducible assumption) ?_) | (refine good_of_stall (by with_reducible assumption) ?_)
    | dsimp only | split

theorem State.background_good {s : State} (hs : State.Good p s) (c : Nat) (r : Bool) : (State.background s c r).Good p := by
  unfold State.background
  try dsimp only
  repeat' first
    | with_reducible assumption | with_reducible apply good_ite | with_reducible intro _
    | with_reducible apply State.backFill_good | with_reducible apply State.backSpill_good | dsimp only | split

end Sys2Proof.Machine
end

