-- ==== Sys2Proof/Laws/GoodOperands.lean ====
section
/-! SUPPORT. GoodOperands.lean: every function of Operands.lean keeps the tables sound. -/

namespace Sys2Proof.Machine

open Sys2Proof

set_option linter.unusedTactic false
set_option linter.unreachableTactic false
set_option linter.unusedSimpArgs false
set_option linter.unusedVariables false

variable {p : List Instr}

theorem State.readCode_good {s : State} (hs : State.Good p s) (c : Nat) (va : Nat) (z3 : Phys) : (State.readCode s c va z3).Good p := by
  unfold State.readCode
  try dsimp only
  repeat' first
    | with_reducible assumption | with_reducible apply ex_ite | with_reducible apply good_ite | with_reducible intro _
    | with_reducible apply ex_ok | with_reducible apply ex_flt | with_reducible apply ex_stall
    | with_reducible apply ex_bind | with_reducible apply State.busRead_good | with_reducible apply State.cacheError_good
    | with_reducible apply State.charge_good | with_reducible apply State.fetchFabric_good
    | with_reducible apply State.keepPlace_good | with_reducible apply State.modCell_good
    | with_reducible apply State.noteDet_good | with_reducible apply State.openTx_good
    | with_reducible apply State.readLine8_good | with_reducible apply good_getD | simp only [good_mk, good_proj]
    | (refine good_of_snd (by with_reducible assumption) ?_) | (refine good_of_ok (by with_reducible assumption) ?_)
    | (refine good_of_flt (by with_reducible assumption) ?_) | (refine good_of_stall (by with_reducible assumption) ?_)
    | (refine good_of_some (by with_reducible assumption) ?_) | with_reducible apply opt_map_good | dsimp only | split

theorem State.fetchWord_good {s : State} (hs : State.Good p s) (c : Nat) (va : Nat) : (State.fetchWord c va s).Good p := by
  unfold State.fetchWord
  try dsimp only
  repeat' first
    | with_reducible assumption | with_reducible apply ex_ite | with_reducible apply good_ite | with_reducible intro _
    | with_reducible apply ex_ok | with_reducible apply ex_flt | with_reducible apply ex_stall
    | with_reducible apply ex_bind | with_reducible apply State.readCode_good | with_reducible apply State.refill_good
    | simp only [good_mk, good_proj] | (refine good_of_ok (by with_reducible assumption) ?_)
    | (refine good_of_flt (by with_reducible assumption) ?_) | (refine good_of_stall (by with_reducible assumption) ?_)
    | dsimp only | split

theorem State.fetch_good {s : State} (hs : State.Good p s) (c : Nat) (n : Nat) : (State.fetch s c n).Good p := by
  unfold State.fetch
  try dsimp only
  repeat' first
    | with_reducible assumption | with_reducible intro _ | with_reducible apply ex_ok | with_reducible apply ex_flt
    | with_reducible apply ex_stall | with_reducible apply ex_bind | with_reducible apply ex_each
    | with_reducible apply State.fetchWord_good | dsimp only

theorem State.close_good {s : State} (hs : State.Good p s) : (State.close s).Good p := by
  unfold State.close
  try dsimp only
  repeat' first
    | with_reducible assumption | with_reducible intro _ | with_reducible apply State.migrateIdle_good
    | with_reducible apply State.openWindows_good | with_reducible apply State.settle_good | dsimp only

theorem State.faultOut_good {s : State} (hs : State.Good p s) (c : Nat) (f : CellFault) : (State.faultOut s c f).Good p := by
  unfold State.faultOut
  try dsimp only
  repeat' first
    | with_reducible assumption | with_reducible apply good_ite | with_reducible intro _
    | with_reducible apply State.close_good | with_reducible apply State.failureEvent_good
    | with_reducible apply State.modCell_good | with_reducible apply State.takeFault_good | simp only [good_mk, good_proj]
    | dsimp only | split

theorem State.spend_good {s : State} (hs : State.Good p s) (c : Nat) (lvl : Option Nat) (n : Nat) (fixed : Bool) : (State.spend s c lvl n fixed).Good p := by
  unfold State.spend
  try dsimp only
  repeat' first
    | with_reducible assumption | with_reducible apply good_ite | with_reducible intro _
    | with_reducible apply State.bumpBy_good | with_reducible apply State.tickFresh_good | dsimp only | split

theorem State.faultAt_good {s : State} (hs : State.Good p s) (c : Nat) (lvl : Option Nat) (n : Nat) (f : CellFault) : (State.faultAt s c lvl n f).Good p := by
  unfold State.faultAt
  try dsimp only
  repeat' first
    | with_reducible assumption | with_reducible intro _ | with_reducible apply State.faultOut_good
    | with_reducible apply State.spend_good | dsimp only

theorem State.stackFault_good {s : State} (hs : State.Good p s) (c : Nat) (f : Form) : (State.stackFault s c f).Good p := by
  unfold State.stackFault
  try dsimp only
  repeat' first
    | with_reducible assumption | with_reducible apply ex_ite | with_reducible apply good_ite | with_reducible intro _
    | with_reducible apply ex_ok | with_reducible apply ex_flt | with_reducible apply ex_stall
    | with_reducible apply ex_bind | with_reducible apply State.fault2_good | dsimp only | split

theorem State.operand_good {s : State} (hs : State.Good p s) (c : Nat) (i : Nat) : (State.operand s c i).Good p := by
  unfold State.operand
  try dsimp only
  repeat' first
    | with_reducible assumption | with_reducible intro _ | with_reducible apply ex_ok | with_reducible apply ex_flt
    | with_reducible apply ex_stall | with_reducible apply ex_bind | (refine good_of_ok (by with_reducible assumption) ?_)
    | (refine good_of_flt (by with_reducible assumption) ?_) | (refine good_of_stall (by with_reducible assumption) ?_)
    | dsimp only | split

theorem State.operands_good {s : State} (hs : State.Good p s) (c : Nat) (ixs : List Nat) : (State.operands s c ixs).Good p := by
  unfold State.operands
  try dsimp only
  repeat' first
    | with_reducible assumption | with_reducible intro _ | with_reducible apply ex_ok | with_reducible apply ex_flt
    | with_reducible apply ex_stall | with_reducible apply ex_bind | with_reducible apply ex_collect
    | with_reducible apply State.operand_good | dsimp only

theorem State.complete_good {s : State} (hs : State.Good p s) (c : Nat) (b : Nat) (lvl : Option Nat) (f : Form) (next : SylAddr) (cost : Nat) (last : Bool) (jumped : Bool) : (State.complete s c b lvl f next cost last jumped).Good p := by
  unfold State.complete
  try dsimp only
  repeat' first
    | with_reducible assumption | with_reducible apply good_ite | with_reducible intro _
    | with_reducible apply State.modBank_good | with_reducible apply State.modCell_good
    | with_reducible apply State.spend_good | simp only [good_mk, good_proj] | dsimp only | split

theorem State.iterate_good {s : State} (hs : State.Good p s) (c : Nat) (f : Form) (iter : Bool → State → Ex Bool) (last : Bool) (hiter : ∀ v0 v1, State.Good p v1 → (iter v0 v1).Good p) : (State.iterate s c f iter last).Good p := by
  unfold State.iterate
  try dsimp only
  repeat' first
    | with_reducible assumption | with_reducible apply ex_ite | with_reducible apply good_ite | with_reducible intro _
    | with_reducible apply ex_ok | with_reducible apply ex_flt | with_reducible apply ex_stall
    | with_reducible apply ex_bind | with_reducible apply hiter | with_reducible apply State.ensure_good
    | with_reducible apply State.stackFault_good | dsimp only | split

theorem State.noteBranch_good {s : State} (hs : State.Good p s) (c : Nat) (pc : Nat) (taken : Bool) : (State.noteBranch s c pc taken).Good p := by
  unfold State.noteBranch
  try dsimp only
  repeat' first
    | with_reducible assumption | with_reducible apply good_ite | with_reducible intro _
    | with_reducible apply State.modCell_good | simp only [good_mk, good_proj] | dsimp only | split

theorem State.decode_good {s : State} (hs : State.Good p s) (c : Nat) (index : Nat) : (State.decode s c index).Good p := by
  unfold State.decode
  try dsimp only
  repeat' first
    | with_reducible assumption | with_reducible apply good_ite | with_reducible intro _
    | with_reducible apply State.modCell_good | simp only [good_mk, good_proj] | dsimp only | split

theorem State.calcStep_good {s : State} (hs : State.Good p s) (c : Nat) (ixs : List Nat) (drop : Nat) (g : List Word → Bank → Calc) (z4 : Bool) : (State.calcStep c ixs drop g z4 s).Good p := by
  unfold State.calcStep
  try dsimp only
  repeat' first
    | with_reducible assumption | with_reducible apply ex_ite | with_reducible apply good_ite | with_reducible intro _
    | with_reducible apply ex_ok | with_reducible apply ex_flt | with_reducible apply ex_stall
    | with_reducible apply ex_bind | with_reducible apply State.fault2_good | with_reducible apply State.operands_good
    | with_reducible apply State.setCur_good | simp only [good_mk, good_proj]
    | (refine good_of_ok (by with_reducible assumption) ?_) | (refine good_of_flt (by with_reducible assumption) ?_)
    | (refine good_of_stall (by with_reducible assumption) ?_) | dsimp only | split

end Sys2Proof.Machine
end

