-- ==== Sys2Proof/Laws/GoodLoad.lean ====
section
/-! SUPPORT. GoodLoad.lean: every function of Load.lean keeps the tables sound. -/

namespace Sys2Proof.Machine

open Sys2Proof

set_option linter.unusedTactic false
set_option linter.unreachableTactic false
set_option linter.unusedSimpArgs false
set_option linter.unusedVariables false

variable {p : List Instr}

theorem State.address_good {s : State} (hs : State.Good p s) (c : Nat) (x : Enc) (m : AddrMode) (i : Nat) (size : Nat) : (State.address s c x m i size).Good p := by
  unfold State.address
  try dsimp only
  repeat' first
    | with_reducible assumption | with_reducible intro _ | with_reducible apply ex_ok | with_reducible apply ex_flt
    | with_reducible apply ex_stall | with_reducible apply ex_bind | with_reducible apply State.operand_good
    | (refine good_of_ok (by with_reducible assumption) ?_) | (refine good_of_flt (by with_reducible assumption) ?_)
    | (refine good_of_stall (by with_reducible assumption) ?_) | dsimp only | split

theorem State.speculate_good {s : State} (hs : State.Good p s) (c : Nat) (z2 : Phys) : (State.speculate s c z2).Good p := by
  unfold State.speculate
  try dsimp only
  repeat' first
    | with_reducible assumption | with_reducible apply good_ite | with_reducible intro _
    | with_reducible apply State.fillLine_good | with_reducible apply State.openTx_good | with_reducible apply good_getD
    | dsimp only | split

theorem State.loadMemory_good {s : State} (hs : State.Good p s) (c : Nat) (a : Nat × Phys) (fwd : Option (Word × BitVec 4)) : (State.loadMemory s c a fwd).Good p := by
  unfold State.loadMemory
  try dsimp only
  repeat' first
    | with_reducible assumption | with_reducible apply ex_ite | with_reducible apply good_ite | with_reducible intro _
    | with_reducible apply ex_ok | with_reducible apply ex_flt | with_reducible apply ex_stall
    | with_reducible apply ex_bind | with_reducible apply State.busRead_good | with_reducible apply State.cacheRead_good
    | with_reducible apply State.fillLine_good | with_reducible apply State.noteDet_good
    | with_reducible apply State.readMemory_good | with_reducible apply good_getD | simp only [good_mk, good_proj]
    | (refine good_of_snd (by with_reducible assumption) ?_) | (refine good_of_ok (by with_reducible assumption) ?_)
    | (refine good_of_flt (by with_reducible assumption) ?_) | (refine good_of_stall (by with_reducible assumption) ?_)
    | (refine State.cacheHit_good (by with_reducible assumption) ?_) | dsimp only | split

theorem State.loadWord_good {s : State} (hs : State.Good p s) (c : Nat) (need : BitVec 4) (a : Nat × Phys) : (State.loadWord s c need a).Good p := by
  unfold State.loadWord
  try dsimp only
  repeat' first
    | with_reducible assumption | with_reducible apply ex_ite | with_reducible apply good_ite | with_reducible intro _
    | with_reducible apply ex_ok | with_reducible apply ex_flt | with_reducible apply ex_stall
    | with_reducible apply ex_bind | with_reducible apply State.drainFor_good | with_reducible apply State.loadMemory_good
    | with_reducible apply State.readLive_good | (refine good_of_ok (by with_reducible assumption) ?_)
    | (refine good_of_flt (by with_reducible assumption) ?_) | (refine good_of_stall (by with_reducible assumption) ?_)
    | dsimp only | split

theorem State.openRead_good {s : State} (hs : State.Good p s) (c : Nat) (id : Nat) (r : LoadRead) : (State.openRead s c id r).Good p := by
  unfold State.openRead
  try dsimp only
  repeat' first
    | with_reducible assumption | with_reducible intro _ | with_reducible apply State.openTx_good
    | with_reducible apply good_getD | dsimp only

theorem State.takeLoad_good {s : State} (hs : State.Good p s) (c : Nat) (f : Formed) (pops : Nat) (nonet : Option (BitVec 2)) (ins : List WordIn) (last : Bool) : (State.takeLoad s c f pops nonet ins last).Good p := by
  unfold State.takeLoad
  try dsimp only
  repeat' first
    | with_reducible assumption | with_reducible apply good_ite | with_reducible intro _ | with_reducible apply ex_ok
    | with_reducible apply ex_flt | with_reducible apply ex_stall | with_reducible apply ex_bind
    | with_reducible apply good_foldl | with_reducible apply good_foldl_snd | with_reducible apply good_foldl_snd2
    | with_reducible apply good_foldl_fst | with_reducible apply State.modCell_good
    | with_reducible apply State.openRead_good | with_reducible apply State.setCur_good | simp only [good_mk, good_proj]
    | dsimp only | split

theorem State.chargeReach_good {s : State} (hs : State.Good p s) (c : Nat) (l : List (Nat × Phys)) : (State.chargeReach s c l).Good p := by
  unfold State.chargeReach
  try dsimp only
  repeat' first
    | with_reducible assumption | with_reducible apply good_ite | with_reducible intro _
    | with_reducible apply State.chargeListed_good | dsimp only | split

theorem State.loadStep_good {s : State} (hs : State.Good p s) (c : Nat) (x : Enc) (m : AddrMode) (nonetForm : Bool) (last : Bool) : (State.loadStep c x m nonetForm last s).Good p := by
  unfold State.loadStep
  try dsimp only
  repeat' first
    | with_reducible assumption | with_reducible apply ex_ite | with_reducible apply good_ite | with_reducible intro _
    | with_reducible apply ex_ok | with_reducible apply ex_flt | with_reducible apply ex_stall
    | with_reducible apply ex_bind | with_reducible apply ex_costs | with_reducible apply ex_collect
    | with_reducible apply State.address_good | with_reducible apply State.chargeReach_good
    | with_reducible apply State.deviceTurn_good | with_reducible apply State.drainOld_good
    | with_reducible apply State.loadWord_good | with_reducible apply State.locate_good
    | with_reducible apply State.operand_good | with_reducible apply State.speculate_good
    | with_reducible apply State.takeLoad_good | with_reducible apply State.watchAccess_good
    | (refine good_of_ok (by with_reducible assumption) ?_) | (refine good_of_flt (by with_reducible assumption) ?_)
    | (refine good_of_stall (by with_reducible assumption) ?_) | dsimp only | split

theorem State.finishLoad_good {s : State} (hs : State.Good p s) (c : Nat) (l : PendLoad) : (State.finishLoad s c l).Good p := by
  unfold State.finishLoad
  try dsimp only
  repeat' first
    | with_reducible assumption | with_reducible apply good_ite | with_reducible intro _
    | with_reducible apply State.faultOut_good | with_reducible apply State.modBank_good
    | with_reducible apply State.modCell_good | with_reducible apply State.setBank_good
    | with_reducible apply State.wait_good | simp only [good_mk, good_proj] | dsimp only | split

theorem State.loadReturn_good {s : State} (hs : State.Good p s) (c : Nat) : (State.loadReturn s c).Good p := by
  unfold State.loadReturn
  try dsimp only
  repeat' first
    | with_reducible assumption | with_reducible intro _ | with_reducible apply State.finishLoad_good | dsimp only | split

theorem State.closeTx_good {s : State} (hs : State.Good p s) (t : FabTx) : (State.closeTx s t).Good p := by
  unfold State.closeTx
  try dsimp only
  repeat' first
    | with_reducible assumption | with_reducible intro _ | simp only [good_mk, good_proj] | dsimp only

theorem State.drainDone_good {s : State} (hs : State.Good p s) (c : Nat) (ok : Bool) : (State.drainDone s c ok).Good p := by
  unfold State.drainDone
  try dsimp only
  repeat' first
    | with_reducible assumption | with_reducible apply good_ite | with_reducible intro _ | with_reducible apply good_foldl
    | with_reducible apply good_foldl_snd | with_reducible apply good_foldl_snd2 | with_reducible apply good_foldl_fst
    | with_reducible apply State.afterStore_good | with_reducible apply State.modCell_good
    | with_reducible apply State.noteLine_good | with_reducible apply State.setSb_good
    | with_reducible apply State.storeError_good | dsimp only | split

theorem State.readError_good {s : State} (hs : State.Good p s) (pa : Nat) : (State.readError s pa).Good p := by
  unfold State.readError
  try dsimp only
  repeat' first
    | with_reducible assumption | with_reducible intro _ | with_reducible apply State.sendAddr_good | dsimp only

theorem State.nextRead_good {s : State} (hs : State.Good p s) (c : Nat) (l : PendLoad) : (State.nextRead s c l).Good p := by
  unfold State.nextRead
  try dsimp only
  repeat' first
    | with_reducible assumption | with_reducible apply good_ite | with_reducible intro _
    | with_reducible apply State.openRead_good | dsimp only | split

theorem State.finishTx_good {s : State} (hs : State.Good p s) (t : FabTx) (data : Option (List Word)) : (State.finishTx s t data).Good p := by
  unfold State.finishTx
  try dsimp only
  repeat' first
    | with_reducible assumption | with_reducible apply good_ite | with_reducible intro _
    | with_reducible apply State.bump_good | with_reducible apply State.closeTx_good
    | with_reducible apply State.drainDone_good | with_reducible apply State.finishLoad_good
    | with_reducible apply State.modCell_good | with_reducible apply State.nextRead_good
    | with_reducible apply State.readError_good | with_reducible apply State.receive_good
    | with_reducible apply State.storeError_good | simp only [good_mk, good_proj] | dsimp only | split

theorem State.freeRetired_good {s : State} (hs : State.Good p s) (z1 : Nat) (tag : Nat) : (State.freeRetired s z1 tag).Good p := by
  unfold State.freeRetired
  try dsimp only
  repeat' first
    | with_reducible assumption | with_reducible intro _ | simp only [good_mk, good_proj] | dsimp only

theorem State.fabricResponse_good {s : State} (hs : State.Good p s) (z1 : Nat) (tag : Nat) (st : Nat) (data : List Word) : (State.fabricResponse s z1 tag st data).Good p := by
  unfold State.fabricResponse
  try dsimp only
  repeat' first
    | with_reducible assumption | with_reducible apply good_ite | with_reducible intro _
    | with_reducible apply State.bump_good | with_reducible apply State.closeTx_good
    | with_reducible apply State.finishTx_good | with_reducible apply State.freeRetired_good
    | simp only [good_mk, good_proj] | dsimp only | split

theorem State.retryReissue_good {s : State} (hs : State.Good p s) (z1 : Nat) (tag : Nat) : (State.retryReissue s z1 tag).Good p := by
  unfold State.retryReissue
  try dsimp only
  repeat' first
    | with_reducible assumption | with_reducible apply good_ite | with_reducible intro _
    | with_reducible apply State.closeTx_good | with_reducible apply State.pump_good | simp only [good_mk, good_proj]
    | dsimp only | split

theorem State.fabricTimeout_good {s : State} (hs : State.Good p s) (z1 : Nat) (tag : Nat) : (State.fabricTimeout s z1 tag).Good p := by
  unfold State.fabricTimeout
  try dsimp only
  repeat' first
    | with_reducible assumption | with_reducible intro _ | with_reducible apply State.finishTx_good
    | with_reducible apply State.freeRetired_good | simp only [good_mk, good_proj] | dsimp only | split

theorem State.creditReturn_good {s : State} (hs : State.Good p s) (z1 : Nat) : (State.creditReturn s z1).Good p := by
  unfold State.creditReturn
  try dsimp only
  repeat' first
    | with_reducible assumption | with_reducible intro _ | with_reducible apply State.pump_good
    | with_reducible apply good_getD | simp only [good_mk, good_proj] | dsimp only

end Sys2Proof.Machine
end

