-- ==== Sys2Proof/Laws/GoodStore.lean ====
section
/-! SUPPORT. GoodStore.lean: every function of Store.lean keeps the tables sound. -/

namespace Sys2Proof.Machine

open Sys2Proof

set_option linter.unusedTactic false
set_option linter.unreachableTactic false
set_option linter.unusedSimpArgs false
set_option linter.unusedVariables false

variable {p : List Instr}

theorem State.storeStep_good {s : State} (hs : State.Good p s) (c : Nat) (x : Enc) (m : AddrMode) (nonetForm : Bool) (z4 : Bool) : (State.storeStep c x m nonetForm z4 s).Good p := by
  unfold State.storeStep
  try dsimp only
  repeat' first
    | with_reducible assumption | with_reducible apply ex_ite | with_reducible apply good_ite | with_reducible intro _
    | with_reducible apply ex_ok | with_reducible apply ex_flt | with_reducible apply ex_stall
    | with_reducible apply ex_bind | with_reducible apply State.address_good | with_reducible apply State.chargeReach_good
    | with_reducible apply State.locate_good | with_reducible apply State.modCur_good
    | with_reducible apply State.operand_good | with_reducible apply State.operands_good
    | with_reducible apply State.storeWords_good | (refine good_of_ok (by with_reducible assumption) ?_)
    | (refine good_of_flt (by with_reducible assumption) ?_) | (refine good_of_stall (by with_reducible assumption) ?_)
    | dsimp only | split

theorem State.writeCap_good {s : State} (hs : State.Good p s) (c : Nat) (n : Nat) (d : BitVec 2) (q : Cap) (fixed : Bool) : (State.writeCap s c n d q fixed).Good p := by
  unfold State.writeCap
  try dsimp only
  repeat' first
    | with_reducible assumption | with_reducible apply ex_ite | with_reducible apply good_ite | with_reducible intro _
    | with_reducible apply ex_ok | with_reducible apply ex_flt | with_reducible apply ex_stall
    | with_reducible apply ex_bind | with_reducible apply State.charge_good | with_reducible apply State.chargeListed_good
    | with_reducible apply State.flushPq_good | with_reducible apply State.modCur_good
    | with_reducible apply State.spillBelow_good | simp only [good_mk, good_proj] | dsimp only | split

theorem State.readCap_good {s : State} (hs : State.Good p s) (c : Nat) (l : List (Nat × Phys)) : (State.readCap s c l).Good p := by
  unfold State.readCap
  try dsimp only
  repeat' first
    | with_reducible assumption | with_reducible intro _ | with_reducible apply ex_ok | with_reducible apply ex_flt
    | with_reducible apply ex_stall | with_reducible apply ex_bind | with_reducible apply State.readTagOf_good
    | with_reducible apply State.readWords_good | with_reducible apply good_getD
    | (refine good_of_snd (by with_reducible assumption) ?_) | (refine good_of_ok (by with_reducible assumption) ?_)
    | (refine good_of_flt (by with_reducible assumption) ?_) | (refine good_of_stall (by with_reducible assumption) ?_)
    | dsimp only | split

theorem State.cldStep_good {s : State} (hs : State.Good p s) (c : Nat) (x : Enc) (d : BitVec 2) (a : BitVec 2) (z4 : Bool) : (State.cldStep c x d a z4 s).Good p := by
  unfold State.cldStep
  try dsimp only
  repeat' first
    | with_reducible assumption | with_reducible apply ex_ite | with_reducible apply good_ite | with_reducible intro _
    | with_reducible apply ex_ok | with_reducible apply ex_flt | with_reducible apply ex_stall
    | with_reducible apply ex_bind | with_reducible apply ex_costs | with_reducible apply State.chargeReach_good
    | with_reducible apply State.locate_good | with_reducible apply State.readCap_good
    | with_reducible apply State.writeCap_good | dsimp only | split

theorem State.cstStep_good {s : State} (hs : State.Good p s) (c : Nat) (x : Enc) (d : BitVec 2) (a : BitVec 2) (z4 : Bool) : (State.cstStep c x d a z4 s).Good p := by
  unfold State.cstStep
  try dsimp only
  repeat' first
    | with_reducible assumption | with_reducible apply ex_ite | with_reducible apply good_ite | with_reducible intro _
    | with_reducible apply ex_ok | with_reducible apply ex_flt | with_reducible apply ex_stall
    | with_reducible apply ex_bind | with_reducible apply State.chargeReach_good | with_reducible apply State.locate_good
    | with_reducible apply State.storeWords_good | dsimp only | split

theorem State.capStep_good {s : State} (hs : State.Good p s) (c : Nat) (n : Nat) (a : BitVec 2) (g : Bank → List Word → CapRule) (z4 : Bool) : (State.capStep c n a g z4 s).Good p := by
  unfold State.capStep
  try dsimp only
  repeat' first
    | with_reducible assumption | with_reducible intro _ | with_reducible apply ex_ok | with_reducible apply ex_flt
    | with_reducible apply ex_stall | with_reducible apply ex_bind | with_reducible apply State.fault2_good
    | with_reducible apply State.operands_good | with_reducible apply State.writeCap_good
    | (refine good_of_ok (by with_reducible assumption) ?_) | (refine good_of_flt (by with_reducible assumption) ?_)
    | (refine good_of_stall (by with_reducible assumption) ?_) | dsimp only | split

theorem State.setSpStep_good {s : State} (hs : State.Good p s) (c : Nat) (ret : Bool) (z2 : Bool) : (State.setSpStep c ret z2 s).Good p := by
  unfold State.setSpStep
  try dsimp only
  repeat' first
    | with_reducible assumption | with_reducible apply ex_ite | with_reducible apply good_ite | with_reducible intro _
    | with_reducible apply ex_ok | with_reducible apply ex_flt | with_reducible apply ex_stall
    | with_reducible apply ex_bind | with_reducible apply State.modCur_good | with_reducible apply State.operand_good
    | with_reducible apply State.spillBelow_good | simp only [good_mk, good_proj] | dsimp only | split

theorem State.imageLoad_good {s : State} (hs : State.Good p s) (c : Nat) (bits : Bool) (view : State → Nat → Word) (last : Bool) : (State.imageLoad c bits view last s).Good p := by
  unfold State.imageLoad
  try dsimp only
  repeat' first
    | with_reducible assumption | with_reducible apply ex_ite | with_reducible apply good_ite | with_reducible intro _
    | with_reducible apply ex_ok | with_reducible apply ex_flt | with_reducible apply ex_stall
    | with_reducible apply ex_bind | with_reducible apply State.fault2_good | with_reducible apply State.operand_good
    | with_reducible apply State.takeLoad_good | dsimp only | split

theorem State.imageSt_good {s : State} (hs : State.Good p s) (c : Nat) (bits : Bool) (z2 : Bool) : (State.imageSt c bits z2 s).Good p := by
  unfold State.imageSt
  try dsimp only
  repeat' first
    | with_reducible assumption | with_reducible apply ex_ite | with_reducible apply good_ite | with_reducible intro _
    | with_reducible apply ex_ok | with_reducible apply ex_flt | with_reducible apply ex_stall
    | with_reducible apply ex_bind | with_reducible apply State.fault2_good | with_reducible apply State.imageStore_good
    | with_reducible apply State.modCur_good | with_reducible apply State.operands_good | with_reducible apply good_getD
    | (refine good_of_snd (by with_reducible assumption) ?_) | (refine good_of_ok (by with_reducible assumption) ?_)
    | (refine good_of_flt (by with_reducible assumption) ?_) | (refine good_of_stall (by with_reducible assumption) ?_)
    | dsimp only | split

theorem State.prefStep_good {s : State} (hs : State.Good p s) (c : Nat) (z1 : BitVec 2) (z2 : Bool) : (State.prefStep c z1 z2 s).Good p := by
  unfold State.prefStep
  try dsimp only
  repeat' first
    | with_reducible assumption | with_reducible apply ex_ite | with_reducible apply good_ite | with_reducible intro _
    | with_reducible apply ex_ok | with_reducible apply ex_flt | with_reducible apply ex_stall
    | with_reducible apply ex_bind | with_reducible apply State.modCur_good | with_reducible apply State.operand_good
    | with_reducible apply State.refill_good | with_reducible apply State.speculate_good
    | (refine good_of_ok (by with_reducible assumption) ?_) | (refine good_of_flt (by with_reducible assumption) ?_)
    | (refine good_of_stall (by with_reducible assumption) ?_) | dsimp only | split

theorem State.fenceStep_good {s : State} (hs : State.Good p s) (c : Nat) (z1 : Bool) : (State.fenceStep c z1 s).Good p := by
  unfold State.fenceStep
  try dsimp only
  repeat' first
    | with_reducible assumption | with_reducible apply ex_ite | with_reducible apply good_ite | with_reducible intro _
    | with_reducible apply ex_ok | with_reducible apply ex_flt | with_reducible apply ex_stall
    | with_reducible apply ex_bind | with_reducible apply State.drainAll_good | dsimp only | split

theorem State.flushiStep_good {s : State} (hs : State.Good p s) (c : Nat) (z1 : Bool) : (State.flushiStep c z1 s).Good p := by
  unfold State.flushiStep
  try dsimp only
  repeat' first
    | with_reducible assumption | with_reducible intro _ | with_reducible apply ex_ok | with_reducible apply ex_flt
    | with_reducible apply ex_stall | with_reducible apply ex_bind | with_reducible apply State.drainAll_good
    | with_reducible apply State.modCell_good | simp only [good_mk, good_proj] | dsimp only

theorem State.storeOnce_good {s : State} (hs : State.Good p s) (c : Nat) (skip : Nat) (a : Nat × Phys) (w : Word) : (State.storeOnce s c skip a w).Good p := by
  unfold State.storeOnce
  try dsimp only
  repeat' first
    | with_reducible assumption | with_reducible apply ex_ite | with_reducible apply good_ite | with_reducible intro _
    | with_reducible apply ex_ok | with_reducible apply ex_flt | with_reducible apply ex_stall
    | with_reducible apply ex_bind | with_reducible apply State.modCell_good | with_reducible apply State.storeWords_good
    | simp only [good_mk, good_proj] | dsimp only | split

theorem State.saveItem_good {s : State} (hs : State.Good p s) (c : Nat) (i : Nat) (l : List (Nat × Phys)) : (State.saveItem s c i l).Good p := by
  unfold State.saveItem
  try dsimp only
  repeat' first
    | with_reducible assumption | with_reducible apply ex_ite | with_reducible apply good_ite | with_reducible intro _
    | with_reducible apply ex_ok | with_reducible apply ex_flt | with_reducible apply ex_stall
    | with_reducible apply ex_bind | with_reducible apply ex_each | with_reducible apply State.storeOnce_good
    | with_reducible apply State.storeWords_good | with_reducible apply good_getD | dsimp only | split

theorem State.loadItem_good {s : State} (hs : State.Good p s) (c : Nat) (i : Nat) (own : Nat) (l : List (Nat × Phys)) : (State.loadItem s c i own l).Good p := by
  unfold State.loadItem
  try dsimp only
  repeat' first
    | with_reducible assumption | with_reducible apply ex_ite | with_reducible apply good_ite | with_reducible intro _
    | with_reducible apply ex_ok | with_reducible apply ex_flt | with_reducible apply ex_stall
    | with_reducible apply ex_bind | with_reducible apply State.modCur_good | with_reducible apply State.readCap_good
    | with_reducible apply State.readWords_good | with_reducible apply State.writeCap_good | dsimp only | split

theorem State.setMp_good {s : State} (hs : State.Good p s) (c : Nat) (v : Nat) : (State.setMp s c v).Good p := by
  unfold State.setMp
  try dsimp only
  repeat' first
    | with_reducible assumption | with_reducible intro _ | with_reducible apply State.modCur_good
    | simp only [good_mk, good_proj] | dsimp only

theorem State.multiItem_good {s : State} (hs : State.Good p s) (c : Nat) (a : BitVec 2) (store : Bool) (m : Word) (i : Nat) : (State.multiItem s c a store m i).Good p := by
  unfold State.multiItem
  try dsimp only
  repeat' first
    | with_reducible assumption | with_reducible apply ex_ite | with_reducible apply good_ite | with_reducible intro _
    | with_reducible apply ex_ok | with_reducible apply ex_flt | with_reducible apply ex_stall
    | with_reducible apply ex_bind | with_reducible apply ex_costs | with_reducible apply State.charge_good
    | with_reducible apply State.loadItem_good | with_reducible apply State.locate_good
    | with_reducible apply State.modCell_good | with_reducible apply State.saveItem_good
    | with_reducible apply State.setMp_good | with_reducible apply good_getD | simp only [good_mk, good_proj]
    | (refine good_of_ok (by with_reducible assumption) ?_) | (refine good_of_flt (by with_reducible assumption) ?_)
    | (refine good_of_stall (by with_reducible assumption) ?_) | dsimp only | split

theorem ex_faultCosts {α : Type} {x : Ex α} {f : State → State} (hx : x.Good p) (hf : ∀ s, s.Good p → (f s).Good p) :
    (x.faultCosts f).Good p := by
  cases x with
  | ok a s => exact hx
  | flt e s => exact hf _ hx
  | stall s => exact hx

theorem State.multiItems_good (c : Nat) (a : BitVec 2) (store : Bool) (m : Word) (l : List Nat) (got : List (Nat × List Word)) {s : State}
    (hs : s.Good p) : (State.multiItems c a store m l got s).Good p := by
  induction l generalizing got s with
  | nil => exact ex_ok hs
  | cons i l ih =>
    unfold State.multiItems
    split
    · exact ex_stall (State.setMp_good hs _ _)
    · exact ex_bind (ex_faultCosts (State.multiItem_good hs _ _ _ _ _) (fun _ h => State.charge_good h _ _)) (fun _ _ h => ih _ h)

theorem State.ownItem_good {s : State} (hs : State.Good p s) (c : Nat) (a : BitVec 2) (m : Word) (done : List (Nat × List Word)) : (State.ownItem s c a m done).Good p := by
  unfold State.ownItem
  try dsimp only
  repeat' first
    | with_reducible assumption | with_reducible intro _ | with_reducible apply ex_ok | with_reducible apply ex_flt
    | with_reducible apply ex_stall | with_reducible apply ex_bind | with_reducible apply State.locate_good
    | with_reducible apply State.readWords_good | (refine good_of_ok (by with_reducible assumption) ?_)
    | (refine good_of_flt (by with_reducible assumption) ?_) | (refine good_of_stall (by with_reducible assumption) ?_)
    | dsimp only | split

theorem State.multiStep_good {s : State} (hs : State.Good p s) (c : Nat) (a : BitVec 2) (store : Bool) (z3 : Bool) : (State.multiStep c a store z3 s).Good p := by
  unfold State.multiStep
  try dsimp only
  repeat' first
    | with_reducible assumption | with_reducible apply ex_ite | with_reducible apply good_ite | with_reducible intro _
    | with_reducible apply ex_ok | with_reducible apply ex_flt | with_reducible apply ex_stall
    | with_reducible apply ex_bind | with_reducible apply State.charge_good | with_reducible apply State.modCur_good
    | with_reducible apply State.multiItems_good | with_reducible apply State.operand_good
    | with_reducible apply State.ownItem_good | with_reducible apply State.setMp_good | simp only [good_mk, good_proj]
    | (refine good_of_ok (by with_reducible assumption) ?_) | (refine good_of_flt (by with_reducible assumption) ?_)
    | (refine good_of_stall (by with_reducible assumption) ?_) | dsimp only | split

theorem State.instanceOne_good {s : State} (hs : State.Good p s) (c : Nat) (a : BitVec 2) (va : Nat) : (State.instanceOne s c a va).Good p := by
  unfold State.instanceOne
  try dsimp only
  repeat' first
    | with_reducible assumption | with_reducible apply ex_ite | with_reducible apply good_ite | with_reducible intro _
    | with_reducible apply ex_ok | with_reducible apply ex_flt | with_reducible apply ex_stall
    | with_reducible apply ex_bind | with_reducible apply ex_costs | with_reducible apply State.charge_good
    | with_reducible apply State.locate_good | with_reducible apply State.modCell_good
    | with_reducible apply State.readWords_good | with_reducible apply good_getD | simp only [good_mk, good_proj]
    | (refine good_of_ok (by with_reducible assumption) ?_) | (refine good_of_flt (by with_reducible assumption) ?_)
    | (refine good_of_stall (by with_reducible assumption) ?_) | dsimp only | split

theorem State.instanceRead_good {s : State} (hs : State.Good p s) (c : Nat) (a : BitVec 2) (offs : List Nat) : (State.instanceRead s c a offs).Good p := by
  unfold State.instanceRead
  try dsimp only
  repeat' first
    | with_reducible assumption | with_reducible intro _ | with_reducible apply ex_ok | with_reducible apply ex_flt
    | with_reducible apply ex_stall | with_reducible apply ex_bind | with_reducible apply ex_collect
    | with_reducible apply State.instanceOne_good | dsimp only

theorem State.instanceTargets_good {s : State} (hs : State.Good p s) (c : Nat) (a : BitVec 2) (offs : List Nat) : (State.instanceTargets s c a offs).Good p := by
  unfold State.instanceTargets
  try dsimp only
  repeat' first
    | with_reducible assumption | with_reducible intro _ | with_reducible apply ex_ok | with_reducible apply ex_flt
    | with_reducible apply ex_stall | with_reducible apply ex_bind | with_reducible apply ex_collect
    | with_reducible apply State.locate_good | (refine good_of_ok (by with_reducible assumption) ?_)
    | (refine good_of_flt (by with_reducible assumption) ?_) | (refine good_of_stall (by with_reducible assumption) ?_)
    | dsimp only | split

theorem State.instanceWord_good {s : State} (hs : State.Good p s) (c : Nat) (skip : Nat) (a : Nat × Phys) (w : Word) : (State.instanceWord s c skip a w).Good p := by
  unfold State.instanceWord
  try dsimp only
  repeat' first
    | with_reducible assumption | with_reducible apply ex_ite | with_reducible apply good_ite | with_reducible intro _
    | with_reducible apply ex_ok | with_reducible apply ex_flt | with_reducible apply ex_stall
    | with_reducible apply ex_bind | with_reducible apply State.modCell_good | with_reducible apply State.writeThrough_good
    | with_reducible apply good_getD | simp only [good_mk, good_proj]
    | (refine good_of_ok (by with_reducible assumption) ?_) | (refine good_of_flt (by with_reducible assumption) ?_)
    | (refine good_of_stall (by with_reducible assumption) ?_)
    | (refine optEx_getD (State.storeLive_good (by assumption) _ _ _ _ _) (State.writeThrough_good (by assumption) _ _ _ _))
    | exact State.writeThrough_good (by assumption) _ _ _ _ | dsimp only | split

theorem State.instanceWrite_good {s : State} (hs : State.Good p s) (c : Nat) (skip : Nat) (l : List (Nat × Phys)) (ws : List Word) : (State.instanceWrite s c skip l ws).Good p := by
  unfold State.instanceWrite
  try dsimp only
  repeat' first
    | with_reducible assumption | with_reducible apply ex_ite | with_reducible apply good_ite | with_reducible intro _
    | with_reducible apply ex_ok | with_reducible apply ex_flt | with_reducible apply ex_stall
    | with_reducible apply ex_bind | with_reducible apply ex_costs | with_reducible apply ex_each
    | with_reducible apply State.charge_good | with_reducible apply State.drainAll_good
    | with_reducible apply State.instanceWord_good | with_reducible apply State.modCell_good
    | with_reducible apply State.watchAccess_good | simp only [good_mk, good_proj]
    | (refine good_of_ok (by with_reducible assumption) ?_) | (refine good_of_flt (by with_reducible assumption) ?_)
    | (refine good_of_stall (by with_reducible assumption) ?_) | dsimp only | split

theorem State.blockStep_good {s : State} (hs : State.Good p s) (c : Nat) (a : BitVec 2) (n : Nat) (g : State → List Word → Inst → Inst × Bool × Word) (z4 : Bool) : (State.blockStep c a n g z4 s).Good p := by
  unfold State.blockStep
  try dsimp only
  repeat' first
    | with_reducible assumption | with_reducible intro _ | with_reducible apply ex_ok | with_reducible apply ex_flt
    | with_reducible apply ex_stall | with_reducible apply ex_bind | with_reducible apply State.instanceRead_good
    | with_reducible apply State.instanceTargets_good | with_reducible apply State.instanceWrite_good
    | with_reducible apply State.modCur_good | with_reducible apply State.operands_good | with_reducible apply good_getD
    | (refine good_of_ok (by with_reducible assumption) ?_) | (refine good_of_flt (by with_reducible assumption) ?_)
    | (refine good_of_stall (by with_reducible assumption) ?_) | dsimp only | split

theorem State.sdftStep_good {s : State} (hs : State.Good p s) (c : Nat) (a : BitVec 2) (z2 : Bool) : (State.sdftStep c a z2 s).Good p := by
  unfold State.sdftStep
  try dsimp only
  repeat' first
    | with_reducible assumption | with_reducible apply ex_ite | with_reducible apply good_ite | with_reducible intro _
    | with_reducible apply ex_ok | with_reducible apply ex_flt | with_reducible apply ex_stall
    | with_reducible apply ex_bind | with_reducible apply State.instanceRead_good
    | with_reducible apply State.instanceTargets_good | with_reducible apply State.instanceWrite_good
    | with_reducible apply State.modCur_good | with_reducible apply State.operand_good | with_reducible apply good_getD
    | simp only [good_mk, good_proj] | dsimp only | split

end Sys2Proof.Machine
end

