-- ==== Sys2Proof/Laws/GoodControl.lean ====
section
/-! SUPPORT. GoodControl.lean: every function of Control.lean keeps the tables sound. -/

namespace Sys2Proof.Machine

open Sys2Proof

set_option linter.unusedTactic false
set_option linter.unreachableTactic false
set_option linter.unusedSimpArgs false
set_option linter.unusedVariables false

variable {p : List Instr}

theorem State.jump_good {s : State} (hs : State.Good p s) (c : Nat) (pc : SylAddr) : (State.jump s c pc).Good p := by
  unfold State.jump
  try dsimp only
  repeat' first
    | with_reducible assumption | with_reducible intro _ | with_reducible apply State.modCur_good
    | simp only [good_mk, good_proj] | dsimp only

theorem State.branchStep_good {s : State} (hs : State.Good p s) (c : Nat) (x : Enc) (call : Bool) (z3 : Bool) : (State.branchStep c x call z3 s).Good p := by
  unfold State.branchStep
  try dsimp only
  repeat' first
    | with_reducible assumption | with_reducible apply ex_ite | with_reducible apply good_ite | with_reducible intro _
    | with_reducible apply ex_ok | with_reducible apply ex_flt | with_reducible apply ex_stall
    | with_reducible apply ex_bind | with_reducible apply State.jump_good | with_reducible apply State.modCur_good
    | with_reducible apply State.noteBranch_good | dsimp only | split

theorem State.indirectStep_good {s : State} (hs : State.Good p s) (c : Nat) (x : Enc) (call : Bool) (z3 : Bool) : (State.indirectStep c x call z3 s).Good p := by
  unfold State.indirectStep
  try dsimp only
  repeat' first
    | with_reducible assumption | with_reducible apply ex_ite | with_reducible apply good_ite | with_reducible intro _
    | with_reducible apply ex_ok | with_reducible apply ex_flt | with_reducible apply ex_stall
    | with_reducible apply ex_bind | with_reducible apply State.jump_good | with_reducible apply State.modCur_good
    | with_reducible apply State.operand_good | dsimp only | split

theorem State.rOperand_good {s : State} (hs : State.Good p s) (c : Nat) : (State.rOperand s c).Good p := by
  unfold State.rOperand
  try dsimp only
  repeat' first
    | with_reducible assumption | with_reducible intro _ | with_reducible apply ex_ok | with_reducible apply ex_flt
    | with_reducible apply ex_stall | with_reducible apply ex_bind | (refine good_of_ok (by with_reducible assumption) ?_)
    | (refine good_of_flt (by with_reducible assumption) ?_) | (refine good_of_stall (by with_reducible assumption) ?_)
    | dsimp only | split

theorem State.retStep_good {s : State} (hs : State.Good p s) (c : Nat) (z1 : Bool) : (State.retStep c z1 s).Good p := by
  unfold State.retStep
  try dsimp only
  repeat' first
    | with_reducible assumption | with_reducible intro _ | with_reducible apply ex_ok | with_reducible apply ex_flt
    | with_reducible apply ex_stall | with_reducible apply ex_bind | with_reducible apply State.jump_good
    | with_reducible apply State.modCur_good | with_reducible apply State.rOperand_good | dsimp only

theorem State.entryReads_good {s : State} (hs : State.Good p s) (c : Nat) (n : Nat) : (State.entryReads s c n).Good p := by
  unfold State.entryReads
  try dsimp only
  repeat' first
    | with_reducible assumption | with_reducible intro _ | with_reducible apply State.entryCheck_good | dsimp only

theorem State.topEntries_good {s : State} (hs : State.Good p s) (c : Nat) (n : Nat) : (State.topEntries s c n).Good p := by
  unfold State.topEntries
  try dsimp only
  repeat' first
    | with_reducible assumption | with_reducible intro _ | with_reducible apply ex_ok | with_reducible apply ex_flt
    | with_reducible apply ex_stall | with_reducible apply ex_bind | with_reducible apply State.fillTo_good
    | with_reducible apply State.operands_good | dsimp only

theorem fault10_good {α : Type} {s : State} (hs : State.Good p s) (info : Nat) : (fault10 (α := α) s info).Good p := by
  unfold fault10
  try dsimp only
  repeat' first
    | with_reducible assumption | with_reducible intro _ | with_reducible apply ex_ok | with_reducible apply ex_flt
    | with_reducible apply ex_stall | with_reducible apply ex_bind | dsimp only

theorem State.sysStep_good {s : State} (hs : State.Good p s) (c : Nat) (x : Enc) (n : Nat) (z3 : Bool) : (State.sysStep c x n z3 s).Good p := by
  unfold State.sysStep
  try dsimp only
  repeat' first
    | with_reducible assumption | with_reducible apply ex_ite | with_reducible apply good_ite | with_reducible intro _
    | with_reducible apply ex_ok | with_reducible apply ex_flt | with_reducible apply ex_stall
    | with_reducible apply ex_bind | with_reducible apply State.entryReads_good | with_reducible apply State.raise_good
    | with_reducible apply State.setCur_good | with_reducible apply State.spillBelow_good
    | with_reducible apply State.topEntries_good | with_reducible apply fault10_good | simp only [good_mk, good_proj]
    | dsimp only | split

theorem State.retsStep_good {s : State} (hs : State.Good p s) (c : Nat) (z1 : Bool) : (State.retsStep c z1 s).Good p := by
  unfold State.retsStep
  try dsimp only
  repeat' first
    | with_reducible assumption | with_reducible apply ex_ite | with_reducible apply good_ite | with_reducible intro _
    | with_reducible apply ex_ok | with_reducible apply ex_flt | with_reducible apply ex_stall
    | with_reducible apply ex_bind | with_reducible apply State.put_good | with_reducible apply State.setCur_good
    | with_reducible apply State.spillBelow_good | with_reducible apply State.topEntries_good
    | with_reducible apply fault10_good | simp only [good_mk, good_proj] | dsimp only | split

theorem State.startTask_good {s : State} (hs : State.Good p s) (c : Nat) (n : Nat) (j : Nat) : (State.startTask s c n j).Good p := by
  unfold State.startTask
  try dsimp only
  repeat' first
    | with_reducible assumption | with_reducible intro _ | with_reducible apply State.modBank_good
    | with_reducible apply State.put_good | with_reducible apply State.readWord_good
    | with_reducible apply State.setTask_good | with_reducible apply State.tcwError_good
    | with_reducible apply State.undoze_good | (refine good_of_snd (by with_reducible assumption) ?_) | dsimp only | split

theorem State.resumeTask_good {s : State} (hs : State.Good p s) (c : Nat) (n : Nat) (j : Nat) : (State.resumeTask s c n j).Good p := by
  unfold State.resumeTask
  try dsimp only
  repeat' first
    | with_reducible assumption | with_reducible apply good_ite | with_reducible intro _
    | with_reducible apply State.consume_good | with_reducible apply State.modBank_good
    | with_reducible apply State.put_good | with_reducible apply State.setTask_good | with_reducible apply State.undoze_good
    | dsimp only | split

theorem State.runTask_good {s : State} (hs : State.Good p s) (c : Nat) (n : Nat) (j : Nat) : (State.runTask s c n j).Good p := by
  unfold State.runTask
  try dsimp only
  repeat' first
    | with_reducible assumption | with_reducible apply good_ite | with_reducible intro _
    | with_reducible apply State.resumeTask_good | with_reducible apply State.startTask_good | dsimp only | split

theorem State.rotate_good {s : State} (hs : State.Good p s) (c : Nat) (n : Nat) (j : Nat) : (State.rotate s c n j).Good p := by
  unfold State.rotate
  try dsimp only
  repeat' first
    | with_reducible assumption | with_reducible apply ex_ite | with_reducible apply good_ite | with_reducible intro _
    | with_reducible apply ex_ok | with_reducible apply ex_flt | with_reducible apply ex_stall
    | with_reducible apply ex_bind | with_reducible apply State.modCell_good | with_reducible apply State.put_good
    | with_reducible apply State.saveTcw_good | with_reducible apply State.setBank_good
    | with_reducible apply State.spillBelow_good | simp only [good_mk, good_proj]
    | (refine good_of_ok (by with_reducible assumption) ?_) | (refine good_of_flt (by with_reducible assumption) ?_)
    | (refine good_of_stall (by with_reducible assumption) ?_) | dsimp only | split

theorem State.dispatch_good {s : State} (hs : State.Good p s) (c : Nat) : (State.dispatch s c).Good p := by
  unfold State.dispatch
  try dsimp only
  repeat' first
    | with_reducible assumption | with_reducible apply good_ite | with_reducible intro _
    | with_reducible apply State.flushPq_good | with_reducible apply State.put_good
    | with_reducible apply State.retireLoad_good | with_reducible apply State.rotate_good
    | with_reducible apply State.runTask_good | with_reducible apply State.takeFault_good
    | (refine good_of_ok (by with_reducible assumption) ?_) | (refine good_of_flt (by with_reducible assumption) ?_)
    | (refine good_of_stall (by with_reducible assumption) ?_) | dsimp only | split

theorem State.redispatch_good {s : State} (hs : State.Good p s) (c : Nat) (paid : Option Nat) : (State.redispatch s c paid).Good p := by
  unfold State.redispatch
  try dsimp only
  repeat' first
    | with_reducible assumption | with_reducible apply good_ite | with_reducible intro _
    | with_reducible apply State.charge_good | with_reducible apply State.dispatch_good | dsimp only | split

theorem State.schedulerSwitch_good {s : State} (hs : State.Good p s) (c : Nat) : (State.schedulerSwitch s c).Good p := by
  unfold State.schedulerSwitch
  try dsimp only
  repeat' first
    | with_reducible assumption | with_reducible apply good_ite | with_reducible intro _
    | with_reducible apply State.redispatch_good | dsimp only | split

theorem State.stagingReady_good {s : State} (hs : State.Good p s) (c : Nat) : (State.stagingReady s c).Good p := by
  unfold State.stagingReady
  try dsimp only
  repeat' first
    | with_reducible assumption | with_reducible apply good_ite | with_reducible intro _
    | with_reducible apply State.modCell_good | with_reducible apply State.readTcw_good
    | with_reducible apply State.tcwError_good | simp only [good_mk, good_proj]
    | (refine good_of_snd2 (by with_reducible assumption) ?_) | dsimp only | split

theorem State.levelFend_good {s : State} (hs : State.Good p s) (c : Nat) (n : Nat) : (State.levelFend s c n).Good p := by
  unfold State.levelFend
  try dsimp only
  repeat' first
    | with_reducible assumption | with_reducible apply good_ite | with_reducible intro _
    | with_reducible apply State.levelDone_good | with_reducible apply State.modCell_good
    | with_reducible apply State.pairEnd_good | with_reducible apply State.snapshot_good | simp only [good_mk, good_proj]
    | dsimp only | split

theorem State.leaveTask_good {s : State} (hs : State.Good p s) (c : Nat) (n : Nat) : (State.leaveTask s c n).Good p := by
  unfold State.leaveTask
  try dsimp only
  repeat' first
    | with_reducible assumption | with_reducible apply ex_ite | with_reducible apply good_ite | with_reducible intro _
    | with_reducible apply ex_ok | with_reducible apply ex_flt | with_reducible apply ex_stall
    | with_reducible apply ex_bind | with_reducible apply State.levelFend_good | with_reducible apply State.redispatch_good
    | with_reducible apply State.rotate_good | with_reducible apply State.runTask_good
    | (refine good_of_ok (by with_reducible assumption) ?_) | (refine good_of_flt (by with_reducible assumption) ?_)
    | (refine good_of_stall (by with_reducible assumption) ?_) | dsimp only | split

theorem orStay_good {s : State} (hs : State.Good p s) (e : Ex Bool) (he : e.Good p) : (orStay s e).Good p := by
  unfold orStay
  try dsimp only
  repeat' first
    | with_reducible assumption | with_reducible intro _ | with_reducible apply ex_ok | with_reducible apply ex_flt
    | with_reducible apply ex_stall | with_reducible apply ex_bind | (refine good_of_ok (by with_reducible assumption) ?_)
    | (refine good_of_flt (by with_reducible assumption) ?_) | (refine good_of_stall (by with_reducible assumption) ?_)
    | dsimp only | split

theorem State.fendStep_good {s : State} (hs : State.Good p s) (c : Nat) (x : Enc) (z2 : Bool) : (State.fendStep c x z2 s).Good p := by
  unfold State.fendStep
  try dsimp only
  repeat' first
    | with_reducible assumption | with_reducible intro _ | with_reducible apply ex_ok | with_reducible apply ex_flt
    | with_reducible apply ex_stall | with_reducible apply ex_bind | with_reducible apply State.jump_good
    | with_reducible apply State.leaveTask_good | with_reducible apply State.setTask_good | with_reducible apply orStay_good
    | (refine good_of_ok (by with_reducible assumption) ?_) | (refine good_of_flt (by with_reducible assumption) ?_)
    | (refine good_of_stall (by with_reducible assumption) ?_) | dsimp only | split

theorem State.waitStep_good {s : State} (hs : State.Good p s) (c : Nat) (x : Enc) (z2 : Bool) : (State.waitStep c x z2 s).Good p := by
  unfold State.waitStep
  try dsimp only
  repeat' first
    | with_reducible assumption | with_reducible apply ex_ite | with_reducible apply good_ite | with_reducible intro _
    | with_reducible apply ex_ok | with_reducible apply ex_flt | with_reducible apply ex_stall
    | with_reducible apply ex_bind | with_reducible apply State.consume_good | with_reducible apply State.jump_good
    | with_reducible apply State.leaveTask_good | with_reducible apply State.modCur_good
    | with_reducible apply State.setTask_good | with_reducible apply orStay_good
    | (refine good_of_ok (by with_reducible assumption) ?_) | (refine good_of_flt (by with_reducible assumption) ?_)
    | (refine good_of_stall (by with_reducible assumption) ?_) | dsimp only | split

theorem State.yieldStep_good {s : State} (hs : State.Good p s) (c : Nat) (x : Enc) (z2 : Bool) : (State.yieldStep c x z2 s).Good p := by
  unfold State.yieldStep
  try dsimp only
  repeat' first
    | with_reducible assumption | with_reducible intro _ | with_reducible apply ex_ok | with_reducible apply ex_flt
    | with_reducible apply ex_stall | with_reducible apply ex_bind | with_reducible apply State.jump_good
    | with_reducible apply State.rotate_good | with_reducible apply State.runTask_good | with_reducible apply orStay_good
    | (refine good_of_ok (by with_reducible assumption) ?_) | (refine good_of_flt (by with_reducible assumption) ?_)
    | (refine good_of_stall (by with_reducible assumption) ?_) | dsimp only | split

theorem State.postStep_good {s : State} (hs : State.Good p s) (c : Nat) (z1 : Bool) : (State.postStep c z1 s).Good p := by
  unfold State.postStep
  try dsimp only
  repeat' first
    | with_reducible assumption | with_reducible intro _ | with_reducible apply ex_ok | with_reducible apply ex_flt
    | with_reducible apply ex_stall | with_reducible apply ex_bind | with_reducible apply State.modCur_good
    | with_reducible apply State.operand_good | with_reducible apply State.sendPost_good | dsimp only

theorem State.resumeBank_good {s : State} (hs : State.Good p s) (c : Nat) (b : Nat) : (State.resumeBank s c b).Good p := by
  unfold State.resumeBank
  try dsimp only
  repeat' first
    | with_reducible assumption | with_reducible apply good_ite | with_reducible intro _
    | with_reducible apply State.redispatch_good | with_reducible apply State.resume_good
    | with_reducible apply State.retireLoad_good | dsimp only | split

theorem wrongBank_good {s : State} (hs : State.Good p s) : (wrongBank s).Good p := by
  unfold wrongBank
  try dsimp only
  repeat' first
    | with_reducible assumption | with_reducible intro _ | with_reducible apply ex_ok | with_reducible apply ex_flt
    | with_reducible apply ex_stall | with_reducible apply ex_bind | dsimp only

theorem State.iretStep_good {s : State} (hs : State.Good p s) (c : Nat) (z1 : Bool) : (State.iretStep c z1 s).Good p := by
  unfold State.iretStep
  try dsimp only
  repeat' first
    | with_reducible assumption | with_reducible apply ex_ite | with_reducible apply good_ite | with_reducible intro _
    | with_reducible apply ex_ok | with_reducible apply ex_flt | with_reducible apply ex_stall
    | with_reducible apply ex_bind | with_reducible apply State.irqComplete_good
    | with_reducible apply State.resumeBank_good | with_reducible apply wrongBank_good | dsimp only | split

theorem State.fretStep_good {s : State} (hs : State.Good p s) (c : Nat) (z1 : Bool) : (State.fretStep c z1 s).Good p := by
  unfold State.fretStep
  try dsimp only
  repeat' first
    | with_reducible assumption | with_reducible apply ex_ite | with_reducible apply good_ite | with_reducible intro _
    | with_reducible apply ex_ok | with_reducible apply ex_flt | with_reducible apply ex_stall
    | with_reducible apply ex_bind | with_reducible apply State.modBank_good | with_reducible apply State.redispatch_good
    | with_reducible apply State.resumeBank_good | with_reducible apply wrongBank_good | simp only [good_mk, good_proj]
    | dsimp only | split

theorem State.dretStep_good {s : State} (hs : State.Good p s) (c : Nat) (z1 : Bool) : (State.dretStep c z1 s).Good p := by
  unfold State.dretStep
  try dsimp only
  repeat' first
    | with_reducible assumption | with_reducible apply ex_ite | with_reducible apply good_ite | with_reducible intro _
    | with_reducible apply ex_ok | with_reducible apply ex_flt | with_reducible apply ex_stall
    | with_reducible apply ex_bind | with_reducible apply State.modCell_good | with_reducible apply State.resumeBank_good
    | with_reducible apply wrongBank_good | simp only [good_mk, good_proj] | dsimp only | split

theorem State.ringPut_good {s : State} (hs : State.Good p s) (c : Nat) (pa : Nat) (w : Word) : (State.ringPut s c pa w).Good p := by
  unfold State.ringPut
  try dsimp only
  repeat' first
    | with_reducible assumption | with_reducible intro _ | with_reducible apply ex_ok | with_reducible apply ex_flt
    | with_reducible apply ex_stall | with_reducible apply ex_bind | with_reducible apply State.instanceWord_good
    | dsimp only

theorem State.queueFault_good {α : Type} {s : State} (hs : State.Good p s) (pa : Nat) : (State.queueFault (α := α) s pa).Good p := by
  unfold State.queueFault
  try dsimp only
  repeat' first
    | with_reducible assumption | with_reducible intro _ | with_reducible apply ex_ok | with_reducible apply ex_flt
    | with_reducible apply ex_stall | with_reducible apply ex_bind | with_reducible apply State.tickFresh_good | dsimp only

theorem State.cellReserve_good {s : State} (hs : State.Good p s) (c : Nat) (q : Nat) (deq : Bool) : (State.cellReserve s c q deq).Good p := by
  unfold State.cellReserve
  try dsimp only
  repeat' first
    | with_reducible assumption | with_reducible apply ex_ite | with_reducible apply good_ite | with_reducible intro _
    | with_reducible apply ex_ok | with_reducible apply ex_flt | with_reducible apply ex_stall
    | with_reducible apply ex_bind | with_reducible apply State.awaitGrant_good | with_reducible apply State.bump_good
    | with_reducible apply State.reserve_good | (refine good_of_ok (by with_reducible assumption) ?_)
    | (refine good_of_flt (by with_reducible assumption) ?_) | (refine good_of_stall (by with_reducible assumption) ?_)
    | dsimp only | split

theorem State.queueCheck_good {s : State} (hs : State.Good p s) (c : Nat) (a : BitVec 2) (deq : Bool) : (State.queueCheck s c a deq).Good p := by
  unfold State.queueCheck
  try dsimp only
  repeat' first
    | with_reducible assumption | with_reducible apply ex_ite | with_reducible apply good_ite
    | with_reducible apply good_ite_snd | with_reducible apply good_ite_snd2 | with_reducible apply good_ite_fst
    | with_reducible intro _ | with_reducible apply ex_ok | with_reducible apply ex_flt | with_reducible apply ex_stall
    | with_reducible apply ex_bind | with_reducible apply ex_faultCosts | with_reducible apply State.charge_good
    | with_reducible apply State.fault2_good | with_reducible apply State.locate_good
    | with_reducible apply State.operand_good | with_reducible apply State.queueFault_good
    | with_reducible apply State.touchDesc_good | with_reducible apply good_getD | dsimp only | split

theorem State.queueEnd_good {s : State} (hs : State.Good p s) (c : Nat) (q : Nat) (deq : Bool) (st : Nat) : (State.queueEnd s c q deq st).Good p := by
  unfold State.queueEnd
  try dsimp only
  repeat' first
    | with_reducible assumption | with_reducible intro _ | with_reducible apply ex_ok | with_reducible apply ex_flt
    | with_reducible apply ex_stall | with_reducible apply ex_bind | with_reducible apply State.modCur_good
    | with_reducible apply State.unreserve_good | dsimp only

theorem State.enqStep_good {s : State} (hs : State.Good p s) (c : Nat) (a : BitVec 2) (z2 : Bool) : (State.enqStep c a z2 s).Good p := by
  unfold State.enqStep
  try dsimp only
  repeat' first
    | with_reducible assumption | with_reducible apply ex_ite | with_reducible apply good_ite | with_reducible intro _
    | with_reducible apply ex_ok | with_reducible apply ex_flt | with_reducible apply ex_stall
    | with_reducible apply ex_bind | with_reducible apply ex_costs | with_reducible apply ex_each
    | with_reducible apply State.cellReserve_good | with_reducible apply State.charge_good
    | with_reducible apply State.drainAll_good | with_reducible apply State.enqRefuse_good
    | with_reducible apply State.fault2_good | with_reducible apply State.publish_good
    | with_reducible apply State.queueCheck_good | with_reducible apply State.queueEnd_good
    | with_reducible apply State.readWords_good | with_reducible apply State.ring_good
    | with_reducible apply State.ringPut_good | (refine good_of_ok (by with_reducible assumption) ?_)
    | (refine good_of_flt (by with_reducible assumption) ?_) | (refine good_of_stall (by with_reducible assumption) ?_)
    | dsimp only | split

theorem State.deqStep_good {s : State} (hs : State.Good p s) (c : Nat) (a : BitVec 2) (z2 : Bool) : (State.deqStep c a z2 s).Good p := by
  unfold State.deqStep
  try dsimp only
  repeat' first
    | with_reducible assumption | with_reducible intro _ | with_reducible apply ex_ok | with_reducible apply ex_flt
    | with_reducible apply ex_stall | with_reducible apply ex_bind | with_reducible apply ex_costs
    | with_reducible apply ex_each | with_reducible apply ex_collect | with_reducible apply State.cellReserve_good
    | with_reducible apply State.charge_good | with_reducible apply State.drainOld_good
    | with_reducible apply State.queueCheck_good | with_reducible apply State.queueEnd_good
    | with_reducible apply State.queueFault_good | with_reducible apply State.readNow_good
    | with_reducible apply State.release_good | with_reducible apply State.storeOnce_good
    | (refine good_of_ok (by with_reducible assumption) ?_) | (refine good_of_flt (by with_reducible assumption) ?_)
    | (refine good_of_stall (by with_reducible assumption) ?_) | dsimp only | split

end Sys2Proof.Machine
end

