-- ==== Sys2Proof/Laws/GoodMicro.lean ====
section
/-! SUPPORT. GoodMicro.lean: every function of Micro.lean keeps the tables sound. -/

namespace Sys2Proof.Machine

open Sys2Proof

set_option linter.unusedTactic false
set_option linter.unreachableTactic false
set_option linter.unusedSimpArgs false
set_option linter.unusedVariables false

variable {p : List Instr}

theorem State.onStaged_good {s : State} (hs : State.Good p s) (c : Nat) (k : Bank) (f : State → Ex Unit) (hf : ∀ v0, State.Good p v0 → (f v0).Good p) : (State.onStaged s c k f).Good p := by
  unfold State.onStaged
  try dsimp only
  repeat' first
    | with_reducible assumption | with_reducible intro _ | with_reducible apply ex_ok | with_reducible apply ex_flt
    | with_reducible apply ex_stall | with_reducible apply ex_bind | with_reducible apply hf
    | with_reducible apply State.setCur_good | (refine good_of_ok (by with_reducible assumption) ?_)
    | (refine good_of_flt (by with_reducible assumption) ?_) | (refine good_of_stall (by with_reducible assumption) ?_)
    | dsimp only | split

theorem State.microTargets_good {s : State} (hs : State.Good p s) (i : MicroFor) (u : Micro) (m : BitVec 144) (ea : Nat) (perm : Cap → Bool) : (State.microTargets s i u m ea perm).Good p := by
  unfold State.microTargets
  try dsimp only
  repeat' first
    | with_reducible assumption | with_reducible apply ex_ite | with_reducible apply good_ite
    | with_reducible apply good_ite_snd | with_reducible apply good_ite_snd2 | with_reducible apply good_ite_fst
    | with_reducible intro _ | with_reducible apply ex_ok | with_reducible apply ex_flt | with_reducible apply ex_stall
    | with_reducible apply ex_bind | with_reducible apply ex_each | with_reducible apply ex_collect
    | with_reducible apply State.locate_good | simp only [good_mk, good_proj]
    | (refine good_of_ok (by with_reducible assumption) ?_) | (refine good_of_flt (by with_reducible assumption) ?_)
    | (refine good_of_stall (by with_reducible assumption) ?_) | dsimp only | split

theorem State.microLoad_good {s : State} (hs : State.Good p s) (i : MicroFor) (u : Micro) (m : BitVec 144) (ea : Nat) : (State.microLoad s i u m ea).Good p := by
  unfold State.microLoad
  try dsimp only
  repeat' first
    | with_reducible assumption | with_reducible apply ex_ite | with_reducible apply good_ite
    | with_reducible apply good_ite_snd | with_reducible apply good_ite_snd2 | with_reducible apply good_ite_fst
    | with_reducible intro _ | with_reducible apply ex_ok | with_reducible apply ex_flt | with_reducible apply ex_stall
    | with_reducible apply ex_bind | with_reducible apply State.microTargets_good
    | with_reducible apply State.readTagOf_good | with_reducible apply State.readWords_good | with_reducible apply good_getD
    | (refine good_of_snd (by with_reducible assumption) ?_) | (refine good_of_ok (by with_reducible assumption) ?_)
    | (refine good_of_flt (by with_reducible assumption) ?_) | (refine good_of_stall (by with_reducible assumption) ?_)
    | dsimp only | split

theorem State.microStore_good {s : State} (hs : State.Good p s) (i : MicroFor) (u : Micro) (m : BitVec 144) (ea : Nat) (data : Nat) : (State.microStore s i u m ea data).Good p := by
  unfold State.microStore
  try dsimp only
  repeat' first
    | with_reducible assumption | with_reducible apply ex_ite | with_reducible apply good_ite | with_reducible intro _
    | with_reducible apply ex_ok | with_reducible apply ex_flt | with_reducible apply ex_stall
    | with_reducible apply ex_bind | with_reducible apply State.microTargets_good | with_reducible apply State.sendInfo_good
    | with_reducible apply good_getD | simp only [good_mk, good_proj]
    | (refine good_of_ok (by with_reducible assumption) ?_) | (refine good_of_flt (by with_reducible assumption) ?_)
    | (refine good_of_stall (by with_reducible assumption) ?_) | dsimp only | split

theorem State.microMem_good {s : State} (hs : State.Good p s) (i : MicroFor) (m : BitVec 144) (u : Micro) (ea : Nat) (data : Nat) : (State.microMem i m u ea data s).Good p := by
  unfold State.microMem
  try dsimp only
  repeat' first
    | with_reducible assumption | with_reducible apply ex_ite | with_reducible apply good_ite
    | with_reducible apply good_ite_snd | with_reducible apply good_ite_snd2 | with_reducible apply good_ite_fst
    | with_reducible intro _ | with_reducible apply ex_ok | with_reducible apply ex_flt | with_reducible apply ex_stall
    | with_reducible apply ex_bind | with_reducible apply State.drainAll_good | with_reducible apply State.fenceStep_good
    | with_reducible apply State.fillTo_good | with_reducible apply State.flushiStep_good
    | with_reducible apply State.microLoad_good | with_reducible apply State.microStore_good
    | with_reducible apply State.onStaged_good | with_reducible apply State.speculate_good
    | with_reducible apply State.spillBelow_good | with_reducible apply good_getD | simp only [good_mk, good_proj]
    | (refine good_of_ok (by with_reducible assumption) ?_) | (refine good_of_flt (by with_reducible assumption) ?_)
    | (refine good_of_stall (by with_reducible assumption) ?_) | dsimp only | split

theorem State.microImg_good {s : State} (hs : State.Good p s) (i : MicroFor) (m : BitVec 144) (u : Micro) (z3 : Nat) (data : Nat) : (State.microImg i m u z3 data s).Good p := by
  unfold State.microImg
  try dsimp only
  repeat' first
    | with_reducible assumption | with_reducible apply ex_ite | with_reducible apply good_ite | with_reducible intro _
    | with_reducible apply ex_ok | with_reducible apply ex_flt | with_reducible apply ex_stall
    | with_reducible apply ex_bind | with_reducible apply State.fault2_good | with_reducible apply State.imageStore_good
    | simp only [good_mk, good_proj] | (refine good_of_snd (by with_reducible assumption) ?_)
    | (refine good_of_ok (by with_reducible assumption) ?_) | (refine good_of_flt (by with_reducible assumption) ?_)
    | (refine good_of_stall (by with_reducible assumption) ?_) | dsimp only | split

theorem State.microQueue_good {s : State} (hs : State.Good p s) (i : MicroFor) (m : BitVec 144) (u : Micro) (v : Nat) : (State.microQueue i m u v s).Good p := by
  unfold State.microQueue
  try dsimp only
  repeat' first
    | with_reducible assumption | with_reducible apply ex_ite | with_reducible apply good_ite | with_reducible intro _
    | with_reducible apply ex_ok | with_reducible apply ex_flt | with_reducible apply ex_stall
    | with_reducible apply ex_bind | with_reducible apply State.cellReserve_good | with_reducible apply State.enqRefuse_good
    | with_reducible apply State.fault2_good | with_reducible apply State.publish_good
    | with_reducible apply State.queueFault_good | with_reducible apply State.release_good
    | with_reducible apply State.reserve_good | with_reducible apply State.sendPost_good
    | with_reducible apply State.touchDesc_good | with_reducible apply State.unreserve_good | with_reducible apply good_getD
    | simp only [good_mk, good_proj] | (refine good_of_ok (by with_reducible assumption) ?_)
    | (refine good_of_flt (by with_reducible assumption) ?_) | (refine good_of_stall (by with_reducible assumption) ?_)
    | dsimp only | split

theorem State.commit_good {s : State} (hs : State.Good p s) (c : Nat) (u : Micro) : (State.commit s c u).Good p := by
  unfold State.commit
  try dsimp only
  repeat' first
    | with_reducible assumption | with_reducible apply ex_ite | with_reducible apply good_ite | with_reducible intro _
    | with_reducible apply ex_ok | with_reducible apply ex_flt | with_reducible apply ex_stall
    | with_reducible apply ex_bind | with_reducible apply ex_each | with_reducible apply State.modCell_good
    | with_reducible apply State.saveTcw_good | with_reducible apply State.setCur_good
    | with_reducible apply State.storeWords_good | simp only [good_mk, good_proj]
    | (refine good_of_ok (by with_reducible assumption) ?_) | (refine good_of_flt (by with_reducible assumption) ?_)
    | (refine good_of_stall (by with_reducible assumption) ?_) | dsimp only | split

theorem State.trapFault_good {α : Type} {s : State} (hs : State.Good p s) (code : Nat) : (State.trapFault (α := α) s code).Good p := by
  unfold State.trapFault
  try dsimp only
  repeat' first
    | with_reducible assumption | with_reducible intro _ | with_reducible apply ex_ok | with_reducible apply ex_flt
    | with_reducible apply ex_stall | with_reducible apply ex_bind | simp only [good_mk, good_proj] | dsimp only

theorem State.sequenceError_good {α : Type} {s : State} (hs : State.Good p s) (c : Nat) (upc : Nat) : (State.sequenceError (α := α) s c upc).Good p := by
  unfold State.sequenceError
  try dsimp only
  repeat' first
    | with_reducible assumption | with_reducible intro _ | with_reducible apply ex_ok | with_reducible apply ex_flt
    | with_reducible apply ex_stall | with_reducible apply ex_bind | with_reducible apply State.sendInfo_good | dsimp only

theorem State.microSeq_good {s : State} (hs : State.Good p s) (i : MicroFor) (m : BitVec 144) (u : Micro) (cond : Bool) : (State.microSeq s i m u cond).Good p := by
  unfold State.microSeq
  try dsimp only
  repeat' first
    | with_reducible assumption | with_reducible apply ex_ite | with_reducible apply good_ite | with_reducible intro _
    | with_reducible apply ex_ok | with_reducible apply ex_flt | with_reducible apply ex_stall
    | with_reducible apply ex_bind | with_reducible apply State.commit_good | with_reducible apply State.sequenceError_good
    | with_reducible apply State.trapFault_good | simp only [good_mk, good_proj]
    | (refine good_of_ok (by with_reducible assumption) ?_) | (refine good_of_flt (by with_reducible assumption) ?_)
    | (refine good_of_stall (by with_reducible assumption) ?_) | dsimp only | split

theorem State.microBank_good {s : State} (hs : State.Good p s) (i : MicroFor) (m : BitVec 144) (u : Micro) :
    (State.microBank s i m u).Good p := by
  have leave (f : State → Ex Bool) (hf : ∀ s, s.Good p → (f s).Good p) :
      ((s.commit i.c u).bind fun u s => (f s).bind fun j s => Ex.ok (u, some (MicroOut.done j)) s).Good p :=
    ex_bind (State.commit_good hs _ _) (fun _ _ h => ex_bind (hf _ h) (fun _ _ h => ex_ok h))
  have staged (f : State → Ex Bool) (hf : ∀ s, s.Good p → (f s).Good p) :
      ((s.onStaged i.c u.bank (fun s => (f s).bind fun _ s => Ex.ok () s)).bind fun k s =>
        Ex.ok ({ u with bank := k, jumped := true }, (none : Option MicroOut)) s).Good p :=
    ex_bind (State.onStaged_good hs _ _ _ (fun _ h => ex_bind (hf _ h) (fun _ _ h => ex_ok h))) (fun _ _ h => ex_ok h)
  unfold State.microBank
  extract_lets c stay l st n
  split
  · exact ex_bind (State.commit_good hs _ _) (fun _ _ h => ex_ok h)
  · exact staged _ (fun _ h => State.sysStep_good h _ _ _ _)
  · exact staged _ (fun _ h => State.retsStep_good h _ _)
  · exact leave _ (fun _ h => State.iretStep_good h _ _)
  · exact leave _ (fun _ h => State.fretStep_good h _ _)
  · exact leave _ (fun _ h => State.dretStep_good h _ _)
  · exact ex_ok hs
  · split
    · split
      · exact ex_ok (State.tcwError_good (good_of_snd2 (by assumption) (State.readTcw_good hs _ _ _)) _ _ _)
      · exact ex_ok (good_of_snd2 (by assumption) (State.readTcw_good hs _ _ _))
    · exact ex_ok hs
  · refine ex_bind (State.commit_good hs _ _) (fun _ _ h => ?_)
    dsimp only
    split
    · exact ex_ok (State.modCell_good h _ _)
    · exact ex_ok (State.modCell_good h _ _)
  · exact ex_ok (State.modCell_good hs _ _)
  · exact ex_ok hs

theorem State.microLeave_good {s : State} (hs : State.Good p s) (i : MicroFor) (m : BitVec 144) (u : Micro) (cond : Bool) : (State.microLeave s i m u cond).Good p := by
  unfold State.microLeave
  try dsimp only
  repeat' first
    | with_reducible assumption | with_reducible intro _ | with_reducible apply ex_ok | with_reducible apply ex_flt
    | with_reducible apply ex_stall | with_reducible apply ex_bind | with_reducible apply State.commit_good
    | with_reducible apply State.fendStep_good | with_reducible apply State.microBank_good
    | with_reducible apply State.microSeq_good | with_reducible apply State.waitStep_good
    | with_reducible apply State.yieldStep_good | (refine good_of_ok (by with_reducible assumption) ?_)
    | (refine good_of_flt (by with_reducible assumption) ?_) | (refine good_of_stall (by with_reducible assumption) ?_)
    | dsimp only | split

theorem State.microTrap_good {s : State} (hs : State.Good p s) (i : MicroFor) (m : BitVec 144) (u : Micro) (cond : Bool) : (State.microTrap s i m u cond).Good p := by
  unfold State.microTrap
  try dsimp only
  repeat' first
    | with_reducible assumption | with_reducible apply ex_ite | with_reducible apply good_ite | with_reducible intro _
    | with_reducible apply ex_ok | with_reducible apply ex_flt | with_reducible apply ex_stall
    | with_reducible apply ex_bind | with_reducible apply State.microLeave_good | with_reducible apply State.sendInfo_good
    | with_reducible apply State.trapFault_good | dsimp only | split

theorem State.microEnd_good {s : State} (hs : State.Good p s) (i : MicroFor) (m : BitVec 144) (u : Micro) (h : MicroRes) : (State.microEnd s i m u h).Good p := by
  unfold State.microEnd
  try dsimp only
  repeat' first
    | with_reducible assumption | with_reducible apply ex_ite | with_reducible apply good_ite | with_reducible intro _
    | with_reducible apply ex_ok | with_reducible apply ex_flt | with_reducible apply ex_stall
    | with_reducible apply ex_bind | with_reducible apply State.microTrap_good | with_reducible apply State.wait_good
    | simp only [good_mk, good_proj] | dsimp only | split

theorem State.microAct_good {s : State} (hs : State.Good p s) (i : MicroFor) (last : Bool) (m : BitVec 144) (u : Micro)
    (full b free : Nat) : (State.microAct i last m u full b free s).Good p := by
  unfold State.microAct
  refine ex_bind (State.microMem_good hs _ _ _ _ _) (fun _ _ h => ?_)
  refine ex_bind (State.microImg_good h _ _ _ _ _) (fun _ _ h => ?_)
  exact ex_bind (State.microQueue_good h _ _ _ _) (fun u t h => State.microEnd_good h _ _ _ _)

theorem State.microWord_good {s : State} (hs : State.Good p s) (i : MicroFor) (last : Bool) (m : BitVec 144) (u : Micro) :
    (State.microWord i last m u s).Good p := by
  unfold State.microWord
  dsimp only
  split
  · exact State.microEnd_good hs _ _ _ _
  · exact ex_flt hs
  · exact ex_flt hs
  · split
    · exact ex_stall hs
    · exact State.microAct_good (State.tickFresh_good hs) _ _ _ _ _ _ _

theorem State.microRead_good {α : Type} {s : State} (hs : State.Good p s) (c : Nat) (info : Nat) (n : Nat) (errs : List (Nat × Nat × Bool)) (v : α) : (State.microRead (α := α) s c info n errs v).Good p := by
  unfold State.microRead
  try dsimp only
  repeat' first
    | with_reducible assumption | with_reducible apply ex_ite | with_reducible apply good_ite | with_reducible intro _
    | with_reducible apply ex_ok | with_reducible apply ex_flt | with_reducible apply ex_stall
    | with_reducible apply ex_bind | with_reducible apply State.candidate_good | with_reducible apply State.corrected_good
    | with_reducible apply State.sendInfo_good | simp only [good_mk, good_proj]
    | (refine good_of_ok (by with_reducible assumption) ?_) | (refine good_of_flt (by with_reducible assumption) ?_)
    | (refine good_of_stall (by with_reducible assumption) ?_) | dsimp only | split

theorem State.microPad_good {s : State} (hs : State.Good p s) (c : Nat) (cyc : Nat) (spent : Nat) : (State.microPad s c cyc spent).Good p := by
  unfold State.microPad
  try dsimp only
  repeat' first
    | with_reducible assumption | with_reducible apply good_ite | with_reducible intro _
    | with_reducible apply State.charge_good | dsimp only | split

theorem State.microRun_good (i : MicroFor) (cyc : Nat) (last : Bool) (n : Nat) (u : Micro) {s : State} (hs : s.Good p) :
    (State.microRun i cyc last n u s).Good p := by
  have keep {s : State} (h : s.Good p) (u : Micro) : (Ex.stall (α := Bool) (s.modCell i.c (fun x => { x with micro := some u }))).Good p :=
    ex_stall (State.modCell_good h _ _)
  induction n generalizing u s with
  | zero => exact keep hs u
  | succ n ih =>
    unfold State.microRun
    dsimp only
    split
    · exact ex_flt (State.microPad_good (good_of_flt (by assumption) (State.microRead_good hs _ _ _ _ _)) _ _ _)
    · exact keep (good_of_stall (by assumption) (State.microRead_good hs _ _ _ _ _)) _
    · have h := good_of_ok (by assumption) (State.microRead_good hs _ _ _ _ _)
      have w {m : BitVec 144} := State.microWord_good h i last m u
      split
      · exact ex_flt (State.microPad_good (good_of_flt (by assumption) w) _ _ _)
      · exact keep (good_of_stall (by assumption) w) _
      · exact ex_stall (State.modCell_good (State.charge_good (good_of_ok (by assumption) w) _ _) _ _)
      · exact ex_ok (State.modCell_good (State.charge_good (good_of_ok (by assumption) w) _ _) _ _)
      · refine keep ?_ _
        split
        · exact good_of_ok (by assumption) w
        · exact State.charge_good (good_of_ok (by assumption) w) _ _
      · exact ih _ (State.modCell_good (State.charge_good (good_of_ok (by assumption) w) _ _) _ _)

theorem State.microIter_good {s : State} (hs : State.Good p s) (c : Nat) (x : Enc) (f : Form) (last : Bool) : (State.microIter c x f last s).Good p := by
  unfold State.microIter
  try dsimp only
  repeat' first
    | with_reducible assumption | with_reducible apply ex_ite | with_reducible apply good_ite | with_reducible intro _
    | with_reducible apply ex_ok | with_reducible apply ex_flt | with_reducible apply ex_stall
    | with_reducible apply ex_bind | with_reducible apply State.microRead_good | with_reducible apply State.microRun_good
    | with_reducible apply State.noteBranch_good | (refine good_of_ok (by with_reducible assumption) ?_)
    | (refine good_of_flt (by with_reducible assumption) ?_) | (refine good_of_stall (by with_reducible assumption) ?_)
    | dsimp only | split

end Sys2Proof.Machine
end

