-- ==== Sys2Proof/Laws/GoodExec.lean ====
section
/-! SUPPORT. GoodExec.lean: every function of Exec.lean keeps the tables sound. -/

namespace Sys2Proof.Machine

open Sys2Proof

set_option linter.unusedTactic false
set_option linter.unreachableTactic false
set_option linter.unusedSimpArgs false
set_option linter.unusedVariables false

variable {p : List Instr}

theorem State.repeatN_good {s : State} (hs : State.Good p s) (c : Nat) (b : Nat) (lvl : Option Nat) (f : Form) (next : SylAddr) (iter : Bool → State → Ex Bool) (y0 : Nat) (hiter : ∀ v0 v1, State.Good p v1 → (iter v0 v1).Good p) : (State.repeatN s c b lvl f next iter y0).Good p := by
  induction y0 generalizing s c b lvl f next hs with
  | zero =>
    unfold State.repeatN
    try dsimp only
    repeat' first
      | with_reducible assumption | with_reducible apply good_ite | with_reducible intro _ | with_reducible apply hiter
      | with_reducible apply State.complete_good | with_reducible apply State.faultAt_good
      | with_reducible apply State.iterate_good | with_reducible apply State.modCell_good
      | with_reducible apply State.modCur_good | with_reducible apply State.spend_good | with_reducible apply State.wait_good
      | simp only [good_mk, good_proj] | (refine good_of_ok (by with_reducible assumption) ?_)
      | (refine good_of_flt (by with_reducible assumption) ?_) | (refine good_of_stall (by with_reducible assumption) ?_)
      | dsimp only | split
  | succ n ih =>
    unfold State.repeatN
    try dsimp only
    repeat' first
      | with_reducible apply ih
      | with_reducible assumption | with_reducible apply good_ite | with_reducible intro _ | with_reducible apply hiter
      | with_reducible apply State.complete_good | with_reducible apply State.faultAt_good
      | with_reducible apply State.iterate_good | with_reducible apply State.modCell_good
      | with_reducible apply State.modCur_good | with_reducible apply State.spend_good | with_reducible apply State.wait_good
      | simp only [good_mk, good_proj] | (refine good_of_ok (by with_reducible assumption) ?_)
      | (refine good_of_flt (by with_reducible assumption) ?_) | (refine good_of_stall (by with_reducible assumption) ?_)
      | dsimp only | split

theorem State.waitIn_good {s : State} (hs : State.Good p s) (c : Nat) : (State.waitIn s c).Good p := by
  unfold State.waitIn
  try dsimp only
  repeat' first
    | with_reducible assumption | with_reducible apply good_ite | with_reducible intro _
    | with_reducible apply State.wait_good | dsimp only | split

theorem State.perform_good {s : State} (hs : State.Good p s) (c : Nat) (b : Nat) (lvl : Option Nat) (x : Enc) (f : Form) (next : SylAddr) (iter : Bool → State → Ex Bool) (hiter : ∀ v0 v1, State.Good p v1 → (iter v0 v1).Good p) : (State.perform s c b lvl x f next iter).Good p := by
  unfold State.perform
  try dsimp only
  repeat' first
    | with_reducible assumption | with_reducible apply good_ite | with_reducible intro _ | with_reducible apply hiter
    | with_reducible apply State.complete_good | with_reducible apply State.faultAt_good
    | with_reducible apply State.iterate_good | with_reducible apply State.modCur_good
    | with_reducible apply State.repeatN_good | with_reducible apply State.wait_good
    | with_reducible apply State.waitIn_good | simp only [good_mk, good_proj]
    | (refine good_of_ok (by with_reducible assumption) ?_) | (refine good_of_flt (by with_reducible assumption) ?_)
    | (refine good_of_stall (by with_reducible assumption) ?_) | dsimp only | split

theorem State.effect_good {s : State} (hs : State.Good p s) (c : Nat) (x : Enc) (f : Form) (iter : Bool → State → Ex Bool) (hiter : ∀ v0 v1, State.Good p v1 → (iter v0 v1).Good p) : (State.effect s c x f iter).Good p := by
  unfold State.effect
  try dsimp only
  repeat' first
    | with_reducible assumption | with_reducible apply good_ite | with_reducible intro _ | with_reducible apply hiter
    | with_reducible apply State.microIter_good | with_reducible apply State.perform_good | simp only [good_mk, good_proj]
    | dsimp only | split

theorem State.skip_good {s : State} (hs : State.Good p s) (c : Nat) (x : Enc) (f : Form) : (State.skip s c x f).Good p := by
  unfold State.skip
  try dsimp only
  repeat' first
    | with_reducible assumption | with_reducible apply good_ite | with_reducible intro _
    | with_reducible apply State.complete_good | with_reducible apply State.flushPq_good
    | with_reducible apply State.noteBranch_good | simp only [good_mk, good_proj] | dsimp only | split

theorem State.issue_good {s : State} (hs : State.Good p s) (c : Nat) (x : Enc) (f : Form) (iter : Bool → State → Ex Bool) (hiter : ∀ v0 v1, State.Good p v1 → (iter v0 v1).Good p) : (State.issue s c x f iter).Good p := by
  unfold State.issue
  try dsimp only
  repeat' first
    | with_reducible assumption | with_reducible apply good_ite | with_reducible intro _ | with_reducible apply hiter
    | with_reducible apply State.effect_good | with_reducible apply State.faultAt_good
    | with_reducible apply State.modCur_good | with_reducible apply State.skip_good | simp only [good_mk, good_proj]
    | dsimp only | split

theorem State.runInstr_good {s : State} (hs : State.Good p s) (c : Nat) (x : Enc) (f : Form) (iter : Bool → State → Ex Bool) (hiter : ∀ v0 v1, State.Good p v1 → (iter v0 v1).Good p) : (State.runInstr s c x f iter).Good p := by
  unfold State.runInstr
  try dsimp only
  repeat' first
    | with_reducible assumption | with_reducible apply good_ite | with_reducible intro _ | with_reducible apply hiter
    | with_reducible apply State.effect_good | with_reducible apply State.faultOut_good
    | with_reducible apply State.fetch_good | with_reducible apply State.issue_good
    | with_reducible apply State.modCell_good | with_reducible apply State.wait_good | simp only [good_mk, good_proj]
    | (refine good_of_ok (by with_reducible assumption) ?_) | (refine good_of_flt (by with_reducible assumption) ?_)
    | (refine good_of_stall (by with_reducible assumption) ?_) | dsimp only | split

theorem State.calc_good {s : State} (hs : State.Good p s) (c : Nat) (x : Enc) (f : Form) (g : List Word → Bank → Calc) : (State.calc s c x f g).Good p := by
  unfold State.calc
  try dsimp only
  repeat' first
    | with_reducible assumption | with_reducible intro _ | with_reducible apply State.calcStep_good
    | with_reducible apply State.runInstr_good | dsimp only

end Sys2Proof.Machine
end

