-- ==== Sys2Proof/Laws/GoodAlu.lean ====
section
/-! SUPPORT. GoodAlu.lean: every function of Alu.lean keeps the tables sound. -/

namespace Sys2Proof.Machine

open Sys2Proof

set_option linter.unusedTactic false
set_option linter.unreachableTactic false
set_option linter.unusedSimpArgs false
set_option linter.unusedVariables false

variable {p : List Instr}

theorem State.shuffle_good {s : State} (hs : State.Good p s) (c : Nat) (x : Enc) (f : Form) (reads : List Nat) (drop : Nat) (g : List Nat → List Nat) : (State.shuffle s c x f reads drop g).Good p := by
  unfold State.shuffle
  try dsimp only
  repeat' first
    | with_reducible assumption | with_reducible apply good_ite | with_reducible intro _
    | with_reducible apply State.calcStep_good | with_reducible apply State.runInstr_good | dsimp only | split

theorem State.lit_good {s : State} (hs : State.Good p s) (c : Nat) (x : Enc) (short : BitVec 6) : (State.lit s c x short).Good p := by
  unfold State.lit
  try dsimp only
  repeat' first
    | with_reducible assumption | with_reducible apply good_ite | with_reducible intro _
    | with_reducible apply State.calc_good | simp only [good_mk, good_proj] | dsimp only | split

theorem State.pick_good {s : State} (hs : State.Good p s) (c : Nat) (x : Enc) : (State.pick s c x).Good p := by
  unfold State.pick
  try dsimp only
  repeat' first
    | with_reducible assumption | with_reducible intro _ | with_reducible apply State.calcStep_good
    | with_reducible apply State.runInstr_good | dsimp only

theorem State.signed2_good {s : State} (hs : State.Good p s) (c : Nat) (x : Enc) (op : Int → Int → Int) : (State.signed2 s c x op).Good p := by
  unfold State.signed2
  try dsimp only
  repeat' first
    | with_reducible assumption | with_reducible intro _ | with_reducible apply State.calc_good
    | simp only [good_mk, good_proj] | dsimp only | split

theorem State.unsigned2_good {s : State} (hs : State.Good p s) (c : Nat) (x : Enc) (op : Int → Int → Int) : (State.unsigned2 s c x op).Good p := by
  unfold State.unsigned2
  try dsimp only
  repeat' first
    | with_reducible assumption | with_reducible intro _ | with_reducible apply State.calc_good
    | simp only [good_mk, good_proj] | dsimp only | split

theorem State.signed1_good {s : State} (hs : State.Good p s) (c : Nat) (x : Enc) (op : Int → Int) : (State.signed1 s c x op).Good p := by
  unfold State.signed1
  try dsimp only
  repeat' first
    | with_reducible assumption | with_reducible intro _ | with_reducible apply State.calc_good
    | simp only [good_mk, good_proj] | dsimp only

theorem State.logic2_good {s : State} (hs : State.Good p s) (c : Nat) (x : Enc) (op : Nat → Nat → Nat) : (State.logic2 s c x op).Good p := by
  unfold State.logic2
  try dsimp only
  repeat' first
    | with_reducible assumption | with_reducible intro _ | with_reducible apply State.calc_good | dsimp only | split

theorem State.logic1_good {s : State} (hs : State.Good p s) (c : Nat) (x : Enc) (op : Nat → Nat) : (State.logic1 s c x op).Good p := by
  unfold State.logic1
  try dsimp only
  repeat' first
    | with_reducible assumption | with_reducible intro _ | with_reducible apply State.calc_good | dsimp only

theorem State.shift_good {s : State} (hs : State.Good p s) (c : Nat) (x : Enc) (op : Nat → Nat → Nat) : (State.shift s c x op).Good p := by
  unfold State.shift
  try dsimp only
  repeat' first
    | with_reducible assumption | with_reducible apply good_ite | with_reducible intro _
    | with_reducible apply State.calc_good | with_reducible apply good_getD | dsimp only | split

theorem State.bitField_good {s : State} (hs : State.Good p s) (c : Nat) (x : Enc) (n : Nat) (op : List Word → Nat → Nat → Nat) : (State.bitField s c x n op).Good p := by
  unfold State.bitField
  try dsimp only
  repeat' first
    | with_reducible assumption | with_reducible apply good_ite | with_reducible intro _
    | with_reducible apply State.calc_good | dsimp only | split

theorem State.count1_good {s : State} (hs : State.Good p s) (c : Nat) (x : Enc) (op : Nat → Nat → Nat) : (State.count1 s c x op).Good p := by
  unfold State.count1
  try dsimp only
  repeat' first
    | with_reducible assumption | with_reducible intro _ | with_reducible apply State.calc_good | dsimp only

theorem State.nperm_good {s : State} (hs : State.Good p s) (c : Nat) (x : Enc) : (State.nperm s c x).Good p := by
  unfold State.nperm
  try dsimp only
  repeat' first
    | with_reducible assumption | with_reducible apply good_ite | with_reducible intro _
    | with_reducible apply State.calc_good | with_reducible apply good_getD | dsimp only | split

theorem State.compare_good {s : State} (hs : State.Good p s) (c : Nat) (x : Enc) (n : BitVec 3) (op : Nat → Nat → Bool) : (State.compare s c x n op).Good p := by
  unfold State.compare
  try dsimp only
  repeat' first
    | with_reducible assumption | with_reducible intro _ | with_reducible apply State.calc_good
    | simp only [good_mk, good_proj] | dsimp only | split

theorem State.predicate_good {s : State} (hs : State.Good p s) (c : Nat) (x : Enc) (syllables : Nat) (n : BitVec 3) (op : Bool → Bool → Bool) : (State.predicate s c x syllables n op).Good p := by
  unfold State.predicate
  try dsimp only
  repeat' first
    | with_reducible assumption | with_reducible intro _ | with_reducible apply State.calc_good
    | with_reducible apply good_getD | dsimp only

theorem State.mul_good {s : State} (hs : State.Good p s) (c : Nat) (x : Enc) : (State.mul s c x).Good p := by
  unfold State.mul
  try dsimp only
  repeat' first
    | with_reducible assumption | with_reducible apply good_ite | with_reducible intro _
    | with_reducible apply State.calc_good | simp only [good_mk, good_proj] | dsimp only | split

theorem State.mulHigh_good {s : State} (hs : State.Good p s) (c : Nat) (x : Enc) (num : Nat → Int) : (State.mulHigh s c x num).Good p := by
  unfold State.mulHigh
  try dsimp only
  repeat' first
    | with_reducible assumption | with_reducible apply good_ite | with_reducible intro _
    | with_reducible apply State.calc_good | dsimp only | split

theorem State.mac_good {s : State} (hs : State.Good p s) (c : Nat) (x : Enc) (syllables : Nat) (one : Bool) (sign : Int) : (State.mac s c x syllables one sign).Good p := by
  unfold State.mac
  try dsimp only
  repeat' first
    | with_reducible assumption | with_reducible intro _ | with_reducible apply State.calc_good
    | with_reducible apply good_getD | simp only [good_mk, good_proj] | dsimp only | split

theorem State.accRead_good {s : State} (hs : State.Good p s) (c : Nat) (x : Enc) (one : Bool) : (State.accRead s c x one).Good p := by
  unfold State.accRead
  try dsimp only
  repeat' first
    | with_reducible assumption | with_reducible apply good_ite | with_reducible intro _
    | with_reducible apply State.calc_good | with_reducible apply good_getD | dsimp only | split

theorem State.fmul_good {s : State} (hs : State.Good p s) (c : Nat) (x : Enc) : (State.fmul s c x).Good p := by
  unfold State.fmul
  try dsimp only
  repeat' first
    | with_reducible assumption | with_reducible apply good_ite | with_reducible intro _
    | with_reducible apply State.calc_good | dsimp only | split

theorem State.divide_good {s : State} (hs : State.Good p s) (c : Nat) (x : Enc) (sat : Bool) (lo : Int) (hi : Int) (num : Word → Int) : (State.divide s c x sat lo hi num).Good p := by
  unfold State.divide
  try dsimp only
  repeat' first
    | with_reducible assumption | with_reducible intro _ | with_reducible apply State.calc_good
    | with_reducible apply good_getD | dsimp only

theorem State.modulo_good {s : State} (hs : State.Good p s) (c : Nat) (x : Enc) : (State.modulo s c x).Good p := by
  unfold State.modulo
  try dsimp only
  repeat' first
    | with_reducible assumption | with_reducible apply good_ite | with_reducible intro _
    | with_reducible apply State.calc_good | with_reducible apply good_getD | dsimp only | split

theorem State.sqrt_good {s : State} (hs : State.Good p s) (c : Nat) (x : Enc) : (State.sqrt s c x).Good p := by
  unfold State.sqrt
  try dsimp only
  repeat' first
    | with_reducible assumption | with_reducible apply good_ite | with_reducible intro _
    | with_reducible apply State.calc_good | dsimp only | split

end Sys2Proof.Machine
end

