-- ==== Sys2Proof/Laws/GoodPoint.lean ====
section
/-! SUPPORT. GoodPoint.lean: every function of Point.lean keeps the tables sound. -/

namespace Sys2Proof.Machine

open Sys2Proof

set_option linter.unusedTactic false
set_option linter.unreachableTactic false
set_option linter.unusedSimpArgs false
set_option linter.unusedVariables false

variable {p : List Instr}

theorem State.laneOp_good {s : State} (hs : State.Good p s) (c : Nat) (x : Enc) (n : Nat) (scalar : Bool) (g : List Nat → Nat) : (State.laneOp s c x n scalar g).Good p := by
  unfold State.laneOp
  try dsimp only
  repeat' first
    | with_reducible assumption | with_reducible intro _ | with_reducible apply State.calc_good | dsimp only

theorem State.pointInt_good {s : State} (hs : State.Good p s) (c : Nat) (x : Enc) (n : Nat) (cyc : Nat) (g : List Int → Int) : (State.pointInt s c x n cyc g).Good p := by
  unfold State.pointInt
  try dsimp only
  repeat' first
    | with_reducible assumption | with_reducible apply good_ite | with_reducible intro _
    | with_reducible apply State.calc_good | simp only [good_mk, good_proj] | dsimp only | split

theorem State.pointDiv_good {s : State} (hs : State.Good p s) (c : Nat) (x : Enc) : (State.pointDiv s c x).Good p := by
  unfold State.pointDiv
  try dsimp only
  repeat' first
    | with_reducible assumption | with_reducible apply good_ite | with_reducible intro _
    | with_reducible apply State.calc_good | with_reducible apply State.divide_good | with_reducible apply good_getD
    | simp only [good_mk, good_proj] | dsimp only | split

theorem State.pointFloat_good {s : State} (hs : State.Good p s) (c : Nat) (x : Enc) (n : Nat) (cyc : Nat) (g : List Word → Nat) : (State.pointFloat s c x n cyc g).Good p := by
  unfold State.pointFloat
  try dsimp only
  repeat' first
    | with_reducible assumption | with_reducible intro _ | with_reducible apply State.calc_good | dsimp only

theorem State.floatDiv_good {s : State} (hs : State.Good p s) (c : Nat) (x : Enc) : (State.floatDiv s c x).Good p := by
  unfold State.floatDiv
  try dsimp only
  repeat' first
    | with_reducible assumption | with_reducible apply good_ite | with_reducible intro _
    | with_reducible apply State.calc_good | with_reducible apply good_getD | dsimp only | split

theorem State.floatToInt_good {s : State} (hs : State.Good p s) (c : Nat) (x : Enc) : (State.floatToInt s c x).Good p := by
  unfold State.floatToInt
  try dsimp only
  repeat' first
    | with_reducible assumption | with_reducible apply good_ite | with_reducible intro _
    | with_reducible apply State.calc_good | with_reducible apply good_getD | simp only [good_mk, good_proj] | dsimp only
    | split

theorem State.pointCompare_good {s : State} (hs : State.Good p s) (c : Nat) (x : Enc) (n : BitVec 3) (op : Word → Word → Bool) : (State.pointCompare s c x n op).Good p := by
  unfold State.pointCompare
  try dsimp only
  repeat' first
    | with_reducible assumption | with_reducible intro _ | with_reducible apply State.calc_good
    | with_reducible apply good_getD | dsimp only

theorem State.qualityTest_good {s : State} (hs : State.Good p s) (c : Nat) (x : Enc) (n : BitVec 3) (op : Word → Bool) : (State.qualityTest s c x n op).Good p := by
  unfold State.qualityTest
  try dsimp only
  repeat' first
    | with_reducible assumption | with_reducible intro _ | with_reducible apply State.calcStep_good
    | with_reducible apply State.runInstr_good | with_reducible apply good_getD | dsimp only

end Sys2Proof.Machine
end

