-- ==== Sys2Proof/Laws/GoodTransfer.lean ====
section
/-! SUPPORT. GoodTransfer.lean: every function of Transfer.lean keeps the tables sound. -/

namespace Sys2Proof.Machine

open Sys2Proof

set_option linter.unusedTactic false
set_option linter.unreachableTactic false
set_option linter.unusedSimpArgs false
set_option linter.unusedVariables false

variable {p : List Instr}

theorem State.load_good {s : State} (hs : State.Good p s) (c : Nat) (x : Enc) (m : AddrMode) (nonetForm : Bool) : (State.load s c x m nonetForm).Good p := by
  unfold State.load
  try dsimp only
  repeat' first
    | with_reducible assumption | with_reducible intro _ | with_reducible apply State.loadStep_good
    | with_reducible apply State.runInstr_good | dsimp only

theorem State.store_good {s : State} (hs : State.Good p s) (c : Nat) (x : Enc) (m : AddrMode) (nonetForm : Bool) : (State.store s c x m nonetForm).Good p := by
  unfold State.store
  try dsimp only
  repeat' first
    | with_reducible assumption | with_reducible intro _ | with_reducible apply State.runInstr_good
    | with_reducible apply State.storeStep_good | dsimp only

theorem State.move_good {s : State} (hs : State.Good p s) (c : Nat) (x : Enc) (n : Nat) (m : Nat) (rc : Bool) (g : List Word → Bank → List Word × Bank) : (State.move s c x n m rc g).Good p := by
  unfold State.move
  try dsimp only
  repeat' first
    | with_reducible assumption | with_reducible intro _ | with_reducible apply State.calc_good | dsimp only

theorem State.imageRd_good {s : State} (hs : State.Good p s) (c : Nat) (x : Enc) (bits : Bool) (view : State → Nat → Word) : (State.imageRd s c x bits view).Good p := by
  unfold State.imageRd
  try dsimp only
  repeat' first
    | with_reducible assumption | with_reducible intro _ | with_reducible apply State.imageLoad_good
    | with_reducible apply State.load_good | with_reducible apply State.runInstr_good | dsimp only

end Sys2Proof.Machine
end

