-- ==== Sys2Proof/Laws/GoodFrame.lean ====
section
/-! SUPPORT. GoodFrame.lean: every function of Frame.lean keeps the tables sound. -/

namespace Sys2Proof.Machine

open Sys2Proof

set_option linter.unusedTactic false
set_option linter.unreachableTactic false
set_option linter.unusedSimpArgs false
set_option linter.unusedVariables false

variable {p : List Instr}

theorem State.streamEdits_good {s : State} (hs : State.Good p s) (l : List (Nat × Word)) : (State.streamEdits s l).Good p := by
  unfold State.streamEdits
  try dsimp only
  repeat' first
    | with_reducible assumption | with_reducible apply good_ite | with_reducible intro _ | with_reducible apply good_foldl
    | with_reducible apply good_foldl_snd | with_reducible apply good_foldl_snd2 | with_reducible apply good_foldl_fst
    | with_reducible apply State.abandon_good | with_reducible apply State.beginWindow_good
    | with_reducible apply State.loseTracking_good | with_reducible apply State.put_good
    | with_reducible apply State.raise_good | dsimp only | split

theorem State.countOut_good {s : State} (hs : State.Good p s) : (State.countOut s).Good p := by
  unfold State.countOut
  try dsimp only
  repeat' first
    | with_reducible assumption | with_reducible apply good_ite | with_reducible intro _ | with_reducible apply good_foldl
    | with_reducible apply good_foldl_snd | with_reducible apply good_foldl_snd2 | with_reducible apply good_foldl_fst
    | with_reducible apply State.countOverrun_good | dsimp only | split

theorem State.enterRun_good {s : State} (hs : State.Good p s) (k : Nat) : (State.enterRun s k).Good p := by
  unfold State.enterRun
  try dsimp only
  repeat' first
    | with_reducible assumption | with_reducible apply good_ite | with_reducible intro _
    | with_reducible apply State.put_good | dsimp only | split

theorem State.newFrame_good {s : State} (hs : State.Good p s) (c : Nat) : (State.newFrame s c).Good p := by
  unfold State.newFrame
  try dsimp only
  repeat' first
    | with_reducible assumption | with_reducible intro _ | with_reducible apply good_foldl
    | with_reducible apply good_foldl_snd | with_reducible apply good_foldl_snd2 | with_reducible apply good_foldl_fst
    | with_reducible apply State.modCell_good | with_reducible apply State.setReg_good | simp only [good_mk, good_proj]
    | dsimp only

theorem State.deliverTick_good {s : State} (hs : State.Good p s) : (State.deliverTick s).Good p := by
  unfold State.deliverTick
  try dsimp only
  repeat' first
    | with_reducible assumption | with_reducible apply good_ite | with_reducible intro _ | with_reducible apply good_foldl
    | with_reducible apply good_foldl_snd | with_reducible apply good_foldl_snd2 | with_reducible apply good_foldl_fst
    | with_reducible apply State.bump_good | with_reducible apply State.cellTick_good
    | with_reducible apply State.enterRun_good | with_reducible apply State.undoze_good | simp only [good_mk, good_proj]
    | dsimp only | split

theorem State.edges_good {s : State} (hs : State.Good p s) (n : Nat) (first : Bool) (missed : Option (Nat × Nat)) : (State.edges s n first missed).Good p := by
  unfold State.edges
  try dsimp only
  repeat' first
    | with_reducible assumption | with_reducible apply good_ite | with_reducible intro _
    | with_reducible apply State.afterLatch_good | with_reducible apply State.commitEdge_good
    | with_reducible apply State.countOut_good | with_reducible apply State.debounceTick_good
    | with_reducible apply State.journalPass_good | with_reducible apply State.latchEdge_good
    | with_reducible apply State.rimeStart_good | simp only [good_mk, good_proj] | dsimp only | split

theorem State.windows_good {s : State} (hs : State.Good p s) (t : StreamTick) : (State.windows s t).2.Good p := by
  unfold State.windows
  try dsimp only
  repeat' first
    | with_reducible assumption | with_reducible intro _ | with_reducible apply State.applyLines_good
    | with_reducible apply State.editTick_good | with_reducible apply State.localiseAll_good
    | with_reducible apply State.markDoomed_good | with_reducible apply State.migrateDue_good
    | with_reducible apply State.rotateSent_good | with_reducible apply State.streamEdits_good
    | (refine good_of_snd (by with_reducible assumption) ?_) | (refine good_of_fst (by with_reducible assumption) ?_)
    | dsimp only | split

theorem State.tickEdges_good {s : State} (hs : State.Good p s) (n : Nat) (first : Bool) : (State.tickEdges s n first).2.Good p := by
  unfold State.tickEdges
  try dsimp only
  repeat' first
    | with_reducible assumption | with_reducible intro _ | with_reducible apply State.edges_good
    | with_reducible apply State.judgeStream_good | with_reducible apply State.placeTick_good | dsimp only

theorem State.tickCounts_good {s : State} (hs : State.Good p s) (active : Bool) : (State.tickCounts s active).Good p := by
  unfold State.tickCounts
  try dsimp only
  repeat' first
    | with_reducible assumption | with_reducible apply good_ite | with_reducible intro _ | with_reducible apply good_foldl
    | with_reducible apply good_foldl_snd | with_reducible apply good_foldl_snd2 | with_reducible apply good_foldl_fst
    | with_reducible apply State.newFrame_good | with_reducible apply State.setStby_good | simp only [good_mk, good_proj]
    | dsimp only | split

theorem State.tickCells_good {s : State} (hs : State.Good p s) : (State.tickCells s).Good p := by
  unfold State.tickCells
  try dsimp only
  repeat' first
    | with_reducible assumption | with_reducible intro _ | with_reducible apply State.deliverTick_good
    | with_reducible apply State.quietTick_good | simp only [good_mk, good_proj] | dsimp only

theorem State.tickFrame_good {s : State} (hs : State.Good p s) (active : Bool) (t : StreamTick) : (State.tickFrame s active t).Good p := by
  unfold State.tickFrame
  try dsimp only
  repeat' first
    | with_reducible assumption | with_reducible apply good_ite | with_reducible intro _
    | with_reducible apply State.streamSend_good | with_reducible apply State.tickCells_good
    | with_reducible apply State.tickCounts_good | with_reducible apply State.windows_good | dsimp only | split

theorem State.tick_good {s : State} (hs : State.Good p s) : (State.tick s).Good p := by
  unfold State.tick
  try dsimp only
  repeat' first
    | with_reducible assumption | with_reducible intro _ | with_reducible apply State.deadline_good
    | with_reducible apply State.egressPublish_good | with_reducible apply State.settle_good
    | with_reducible apply State.tickEdges_good | with_reducible apply State.tickFrame_good
    | (refine good_of_snd (by with_reducible assumption) ?_) | dsimp only | split

end Sys2Proof.Machine
end

