-- ==== Sys2Proof/Laws/GoodDebug.lean ====
section
/-! SUPPORT. GoodDebug.lean: every function of Debug.lean keeps the tables sound. -/

namespace Sys2Proof.Machine

open Sys2Proof

set_option linter.unusedTactic false
set_option linter.unreachableTactic false
set_option linter.unusedSimpArgs false
set_option linter.unusedVariables false

variable {p : List Instr}

theorem State.disturb_good {s : State} (hs : State.Good p s) (c : Nat) : (State.disturb s c).Good p := by
  unfold State.disturb
  try dsimp only
  repeat' first
    | with_reducible assumption | with_reducible apply good_ite | with_reducible intro _
    | with_reducible apply State.raise_good | dsimp only | split

theorem State.disturbAt_good {s : State} (hs : State.Good p s) (pa : Nat) : (State.disturbAt s pa).Good p := by
  unfold State.disturbAt
  try dsimp only
  repeat' first
    | with_reducible assumption | with_reducible intro _ | with_reducible apply State.disturb_good
    | with_reducible apply State.store_good | dsimp only | split

theorem State.asBank_good {α : Type} {s : State} (hs : State.Good p s) (c : Nat) (b : Nat) (f : State → Ex α) (hf : ∀ v0, State.Good p v0 → (f v0).Good p) : (State.asBank (α := α) s c b f).Good p := by
  unfold State.asBank
  try dsimp only
  repeat' first
    | with_reducible assumption | with_reducible intro _ | with_reducible apply ex_ok | with_reducible apply ex_flt
    | with_reducible apply ex_stall | with_reducible apply ex_bind | with_reducible apply hf
    | with_reducible apply State.put_good | (refine good_of_ok (by with_reducible assumption) ?_)
    | (refine good_of_flt (by with_reducible assumption) ?_) | (refine good_of_stall (by with_reducible assumption) ?_)
    | dsimp only | split

theorem State.homeAccess_good {s : State} (hs : State.Good p s) (c : Nat) (b : Nat) (va : Nat) (f : Nat → State → DbgAnswer × State) (hf : ∀ v0 v1, State.Good p v1 → (f v0 v1).2.Good p) : (State.homeAccess s c b va f).2.Good p := by
  unfold State.homeAccess
  try dsimp only
  repeat' first
    | with_reducible assumption | with_reducible intro _ | with_reducible apply hf
    | with_reducible apply State.drainFor_good | (refine good_of_snd (by with_reducible assumption) ?_)
    | (refine good_of_ok (by with_reducible assumption) ?_) | (refine good_of_flt (by with_reducible assumption) ?_)
    | (refine good_of_stall (by with_reducible assumption) ?_) | dsimp only | split

theorem State.viewEntry_good {s : State} (hs : State.Good p s) (c : Nat) (b : Nat) (r : Bool) (i : Nat) (va : Nat) : (State.viewEntry s c b r i va).2.Good p := by
  unfold State.viewEntry
  try dsimp only
  repeat' first
    | with_reducible assumption | with_reducible apply good_ite | with_reducible apply good_ite_snd
    | with_reducible apply good_ite_snd2 | with_reducible apply good_ite_fst | with_reducible intro _
    | with_reducible apply State.busRead_good | with_reducible apply State.homeAccess_good
    | (refine good_of_snd (by with_reducible assumption) ?_) | dsimp only | split

theorem State.putEntry_good {s : State} (hs : State.Good p s) (c : Nat) (b : Nat) (r : Bool) (i : Nat) (va : Nat) (w : Word) : (State.putEntry s c b r i va w).2.Good p := by
  unfold State.putEntry
  try dsimp only
  repeat' first
    | with_reducible assumption | with_reducible apply good_ite | with_reducible apply good_ite_snd
    | with_reducible apply good_ite_snd2 | with_reducible apply good_ite_fst | with_reducible intro _
    | with_reducible apply State.busWrite_good | with_reducible apply State.homeAccess_good
    | with_reducible apply State.modBank_good | simp only [good_mk, good_proj]
    | (refine good_of_snd (by with_reducible assumption) ?_) | dsimp only | split

theorem State.readBank_good {s : State} (hs : State.Good p s) (c : Nat) (b : Nat) (ix : Nat) : (State.readBank s c b ix).2.Good p := by
  unfold State.readBank
  try dsimp only
  repeat' first
    | with_reducible assumption | with_reducible apply good_ite | with_reducible apply good_ite_snd
    | with_reducible apply good_ite_snd2 | with_reducible apply good_ite_fst | with_reducible intro _
    | with_reducible apply State.disturb_good | with_reducible apply State.viewEntry_good
    | (refine good_of_snd (by with_reducible assumption) ?_) | dsimp only | split

theorem State.writeBank_good {s : State} (hs : State.Good p s) (c : Nat) (b : Nat) (ix : Nat) (w : Word) (tag : Bool) : (State.writeBank s c b ix w tag).2.Good p := by
  unfold State.writeBank
  try dsimp only
  repeat' first
    | with_reducible assumption | with_reducible apply good_ite | with_reducible apply good_ite_snd
    | with_reducible apply good_ite_snd2 | with_reducible apply good_ite_fst | with_reducible intro _
    | with_reducible apply State.asBank_good | with_reducible apply State.disturb_good
    | with_reducible apply State.modBank_good | with_reducible apply State.modCell_good
    | with_reducible apply State.putEntry_good | with_reducible apply State.spillBelow_good | simp only [good_mk, good_proj]
    | (refine good_of_snd (by with_reducible assumption) ?_) | (refine good_of_ok (by with_reducible assumption) ?_)
    | (refine good_of_flt (by with_reducible assumption) ?_) | (refine good_of_stall (by with_reducible assumption) ?_)
    | dsimp only | split

theorem State.readPhy_good {s : State} (hs : State.Good p s) (pa : Nat) : (State.readPhy s pa).2.Good p := by
  unfold State.readPhy
  try dsimp only
  repeat' first
    | with_reducible assumption | with_reducible apply good_ite | with_reducible apply good_ite_snd
    | with_reducible apply good_ite_snd2 | with_reducible apply good_ite_fst | with_reducible intro _
    | with_reducible apply State.busRead_good | with_reducible apply State.disturbAt_good
    | with_reducible apply State.readTag_good | (refine good_of_snd (by with_reducible assumption) ?_) | dsimp only | split

theorem State.writePhy_good {s : State} (hs : State.Good p s) (pa : Nat) (w : Word) (tag : Bool) : (State.writePhy s pa w tag).2.Good p := by
  unfold State.writePhy
  try dsimp only
  repeat' first
    | with_reducible assumption | with_reducible apply good_ite | with_reducible apply good_ite_snd
    | with_reducible apply good_ite_snd2 | with_reducible apply good_ite_fst | with_reducible intro _
    | with_reducible apply State.busWrite_good | with_reducible apply State.disturbAt_good
    | (refine good_of_snd (by with_reducible assumption) ?_) | dsimp only | split

theorem State.physCap_good {s : State} (hs : State.Good p s) (pa : Nat) (d : DWord) (tag : Bool) : (State.physCap s pa d tag).2.Good p := by
  unfold State.physCap
  try dsimp only
  repeat' first
    | with_reducible assumption | with_reducible apply good_ite | with_reducible apply good_ite_snd
    | with_reducible apply good_ite_snd2 | with_reducible apply good_ite_fst | with_reducible intro _
    | with_reducible apply State.writePhy_good | (refine good_of_snd (by with_reducible assumption) ?_) | dsimp only | split

theorem State.requestHalt_good {s : State} (hs : State.Good p s) (c : Nat) : (State.requestHalt s c).Good p := by
  unfold State.requestHalt
  try dsimp only
  repeat' first
    | with_reducible assumption | with_reducible apply good_ite | with_reducible intro _
    | with_reducible apply State.raise_good | dsimp only | split

theorem State.dbgPerform_good {s : State} (hs : State.Good p s) (op : DbgOp) : (State.dbgPerform s op).2.Good p := by
  unfold State.dbgPerform
  try dsimp only
  repeat' first
    | with_reducible assumption | with_reducible apply good_ite | with_reducible apply good_ite_snd
    | with_reducible apply good_ite_snd2 | with_reducible apply good_ite_fst | with_reducible intro _
    | with_reducible apply State.event_good | with_reducible apply State.physCap_good
    | with_reducible apply State.readBank_good | with_reducible apply State.readPhy_good
    | with_reducible apply State.requestHalt_good | with_reducible apply State.writeBank_good
    | with_reducible apply State.writePhy_good | (refine good_of_snd (by with_reducible assumption) ?_) | dsimp only | split

theorem State.reply_good {s : State} (hs : State.Good p s) (a : DbgAnswer) (data : List Bool := []) : (State.reply s a data).Good p := by
  unfold State.reply
  try dsimp only
  repeat' first
    | with_reducible assumption | with_reducible intro _ | simp only [good_mk, good_proj] | dsimp only

theorem State.setDbgHeld_good {s : State} (hs : State.Good p s) (h : Option (DbgOp × Option DbgAnswer)) : (State.setDbgHeld s h).Good p := by
  unfold State.setDbgHeld
  try dsimp only
  repeat' first
    | with_reducible assumption | with_reducible intro _ | simp only [good_mk, good_proj] | dsimp only

theorem State.discardHeld_good {s : State} (hs : State.Good p s) : (State.discardHeld s).Good p := by
  unfold State.discardHeld
  try dsimp only
  repeat' first
    | with_reducible assumption | with_reducible intro _ | with_reducible apply State.setDbgHeld_good
    | simp only [good_mk, good_proj] | dsimp only | split

theorem State.newRequest_good {s : State} (hs : State.Good p s) (op : DbgOp) : (State.newRequest s op).Good p := by
  unfold State.newRequest
  try dsimp only
  repeat' first
    | with_reducible assumption | with_reducible apply good_ite | with_reducible intro _
    | with_reducible apply State.dbgPerform_good | with_reducible apply State.reply_good
    | with_reducible apply State.setDbgHeld_good | with_reducible apply State.wait_good
    | (refine good_of_snd (by with_reducible assumption) ?_) | dsimp only | split

theorem State.dbgRequest_good {s : State} (hs : State.Good p s) (op : DbgOp) : (State.dbgRequest s op).Good p := by
  unfold State.dbgRequest
  try dsimp only
  repeat' first
    | with_reducible assumption | with_reducible apply good_ite | with_reducible intro _
    | with_reducible apply State.discardHeld_good | with_reducible apply State.newRequest_good
    | with_reducible apply State.reply_good | with_reducible apply State.setDbgHeld_good
    | with_reducible apply State.wait_good | dsimp only | split

theorem State.heldAccess_good {s : State} (hs : State.Good p s) : (State.heldAccess s).Good p := by
  unfold State.heldAccess
  try dsimp only
  repeat' first
    | with_reducible assumption | with_reducible intro _ | with_reducible apply State.dbgPerform_good
    | with_reducible apply State.setDbgHeld_good | simp only [good_mk, good_proj]
    | (refine good_of_snd (by with_reducible assumption) ?_) | dsimp only | split

theorem State.dbgStatus_good {s : State} (hs : State.Good p s) : (State.dbgStatus s).Good p := by
  unfold State.dbgStatus
  try dsimp only
  repeat' first
    | with_reducible assumption | with_reducible intro _ | with_reducible apply State.discardHeld_good
    | with_reducible apply State.reply_good | dsimp only

theorem State.dbgRate_good {s : State} (hs : State.Good p s) (code : Nat) : (State.dbgRate s code).Good p := by
  unfold State.dbgRate
  try dsimp only
  repeat' first
    | with_reducible assumption | with_reducible apply good_ite | with_reducible intro _
    | with_reducible apply State.discardHeld_good | with_reducible apply State.put_good
    | with_reducible apply State.reply_good | dsimp only | split

theorem State.dbgAttach_good {s : State} (hs : State.Good p s) : (State.dbgAttach s).Good p := by
  unfold State.dbgAttach
  try dsimp only
  repeat' first
    | with_reducible assumption | with_reducible intro _ | with_reducible apply State.discardHeld_good
    | with_reducible apply State.raise_good | with_reducible apply State.reply_good | dsimp only

theorem State.dbgDetach_good {s : State} (hs : State.Good p s) : (State.dbgDetach s).Good p := by
  unfold State.dbgDetach
  try dsimp only
  repeat' first
    | with_reducible assumption | with_reducible intro _ | with_reducible apply State.discardHeld_good
    | with_reducible apply State.endEmulation_good | with_reducible apply State.put_good
    | with_reducible apply State.reply_good | dsimp only

theorem State.dbgIllegal_good {s : State} (hs : State.Good p s) : (State.dbgIllegal s).Good p := by
  unfold State.dbgIllegal
  try dsimp only
  repeat' first
    | with_reducible assumption | with_reducible apply good_ite | with_reducible intro _
    | with_reducible apply State.discardHeld_good | with_reducible apply State.reply_good | dsimp only | split

theorem State.ignoredLow_good {s : State} (hs : State.Good p s) : (State.ignoredLow s).Good p := by
  unfold State.ignoredLow
  try dsimp only
  repeat' first
    | with_reducible assumption | with_reducible intro _ | with_reducible apply State.dropPacket_good
    | with_reducible apply State.endEmulation_good | with_reducible apply State.put_good | dsimp only

theorem State.noAnswer_good {s : State} (hs : State.Good p s) : (State.noAnswer s).Good p := by
  unfold State.noAnswer
  try dsimp only
  repeat' first
    | with_reducible assumption | with_reducible intro _ | with_reducible apply State.bump_good
    | simp only [good_mk, good_proj] | dsimp only

theorem State.packet_good {s : State} (hs : State.Good p s) (bits : List Bool) (crc : BitVec 8) (f : State → State) (hf : ∀ v0, State.Good p v0 → (f v0).Good p) : (State.packet s bits crc f).Good p := by
  unfold State.packet
  try dsimp only
  repeat' first
    | with_reducible assumption | with_reducible apply good_ite | with_reducible intro _ | with_reducible apply hf
    | with_reducible apply State.noAnswer_good | dsimp only | split

theorem State.opPacket_good {s : State} (hs : State.Good p s) (op : DbgOp) (crc : BitVec 8) : (State.opPacket s op crc).Good p := by
  unfold State.opPacket
  try dsimp only
  repeat' first
    | with_reducible assumption | with_reducible intro _ | with_reducible apply State.dbgRequest_good
    | with_reducible apply State.packet_good | dsimp only

theorem State.oddPacket_good {s : State} (hs : State.Good p s) (op : BitVec 4) (args : List Bool) : (State.oddPacket s op args).Good p := by
  unfold State.oddPacket
  try dsimp only
  repeat' first
    | with_reducible assumption | with_reducible apply good_ite | with_reducible intro _
    | with_reducible apply State.dbgIllegal_good | with_reducible apply State.noAnswer_good | dsimp only | split

theorem State.packetTimeout_good {s : State} (hs : State.Good p s) : (State.packetTimeout s).Good p := by
  unfold State.packetTimeout
  try dsimp only
  repeat' first
    | with_reducible assumption | with_reducible intro _ | with_reducible apply State.noAnswer_good | dsimp only

theorem State.debugReset_good {s : State} (hs : State.Good p s) (fuse : BitVec 2) : (State.debugReset s fuse).Good p := by
  unfold State.debugReset
  try dsimp only
  repeat' first
    | with_reducible assumption | with_reducible apply good_ite | with_reducible intro _ | with_reducible apply good_foldl
    | with_reducible apply good_foldl_snd | with_reducible apply good_foldl_snd2 | with_reducible apply good_foldl_fst
    | with_reducible apply State.endEmulation_good | with_reducible apply State.modCell_good
    | simp only [good_mk, good_proj] | with_reducible apply sound_filter_ctl | dsimp only | split

theorem State.debugEntry_good {s : State} (hs : State.Good p s) (c : Nat) : (State.debugEntry s c).Good p := by
  unfold State.debugEntry
  try dsimp only
  repeat' first
    | with_reducible assumption | with_reducible apply good_ite | with_reducible intro _
    | with_reducible apply State.disturb_good | with_reducible apply State.enterBank_good
    | with_reducible apply State.modCell_good | with_reducible apply State.put_good | with_reducible apply State.setReg_good
    | with_reducible apply State.tickFresh_good | simp only [good_mk, good_proj] | dsimp only | split

end Sys2Proof.Machine
end

