-- ==== Sys2Proof/Laws/GoodScrub.lean ====
section
/-! SUPPORT. GoodScrub.lean: every function of Scrub.lean keeps the tables sound. -/

namespace Sys2Proof.Machine

open Sys2Proof

set_option linter.unusedTactic false
set_option linter.unreachableTactic false
set_option linter.unusedSimpArgs false
set_option linter.unusedVariables false

variable {p : List Instr}

theorem State.setScrubber_good {s : State} (hs : State.Good p s) (m : ScrubMem) (r : Scrubber) : (State.setScrubber s m r).Good p := by
  unfold State.setScrubber
  try dsimp only
  repeat' first
    | with_reducible assumption | with_reducible intro _ | simp only [good_mk, good_proj] | dsimp only

theorem State.setMicroErr_good {s : State} (hs : State.Good p s) (k : Nat) (f : MicroStore → MicroStore) : (State.setMicroErr s k f).Good p := by
  unfold State.setMicroErr
  try dsimp only
  repeat' first
    | with_reducible assumption | with_reducible intro _ | simp only [good_mk, good_proj] | dsimp only

theorem State.setScrubErr_good {s : State} (hs : State.Good p s) (m : ScrubMem) (pos : Nat) (e : ScrubWord) (u : Option Bool) : (State.setScrubErr s m pos e u).Good p := by
  unfold State.setScrubErr
  try dsimp only
  repeat' first
    | with_reducible assumption | with_reducible apply good_ite | with_reducible intro _
    | with_reducible apply State.dispatch_good | with_reducible apply State.modCell_good
    | with_reducible apply State.setMicroErr_good | simp only [good_mk, good_proj] | dsimp only | split

theorem State.scrubSend_good {s : State} (hs : State.Good p s) (e : ScrubWord) (kind : Nat) (cls : Nat) : (State.scrubSend s e kind cls).Good p := by
  unfold State.scrubSend
  try dsimp only
  repeat' first
    | with_reducible assumption | with_reducible intro _ | with_reducible apply State.sendAddr_good
    | with_reducible apply State.sendInfo_good | dsimp only | split

theorem State.splitTag_good {s : State} (hs : State.Good p s) (key : Nat) : (State.splitTag s key).Good p := by
  unfold State.splitTag
  try dsimp only
  repeat' first
    | with_reducible assumption | with_reducible apply good_ite | with_reducible intro _ | simp only [good_mk, good_proj]
    | with_reducible apply sound_put_tagA | dsimp only | split

theorem State.spareSpoiled_good {s : State} (hs : State.Good p s) (m : ScrubMem) : (State.spareSpoiled s m).Good p := by
  unfold State.spareSpoiled
  try dsimp only
  repeat' first
    | with_reducible assumption | with_reducible apply good_ite | with_reducible intro _
    | with_reducible apply State.dispatch_good | with_reducible apply State.retireSpare_good | dsimp only | split

theorem State.scrubRead_good {s : State} (hs : State.Good p s) (m : ScrubMem) (pos : Nat) (seen : ScrubSeen) : (State.scrubRead s m pos seen).Good p := by
  unfold State.scrubRead
  try dsimp only
  repeat' first
    | with_reducible assumption | with_reducible apply good_ite | with_reducible intro _
    | with_reducible apply State.bump_good | with_reducible apply State.candidate_good
    | with_reducible apply State.corrected_good | with_reducible apply State.scrubSend_good
    | with_reducible apply State.setScrubErr_good | with_reducible apply State.spareSpoiled_good
    | with_reducible apply State.splitTag_good | with_reducible apply State.tagCheck_good | with_reducible apply good_getD
    | dsimp only | split

theorem State.scrubNext_good {s : State} (hs : State.Good p s) (m : ScrubMem) (seen : ScrubSeen) : (State.scrubNext s m seen).Good p := by
  unfold State.scrubNext
  try dsimp only
  repeat' first
    | with_reducible assumption | with_reducible intro _ | with_reducible apply State.scrubRead_good
    | with_reducible apply State.setScrubber_good | dsimp only

theorem State.starve_good {s : State} (hs : State.Good p s) (m : ScrubMem) : (State.starve s m).Good p := by
  unfold State.starve
  try dsimp only
  repeat' first
    | with_reducible assumption | with_reducible intro _ | with_reducible apply State.bump_good
    | with_reducible apply State.scrubSend_good | with_reducible apply State.setScrubber_good | dsimp only | split

theorem State.scrub_good {s : State} (hs : State.Good p s) (m : ScrubMem) (seen : ScrubSeen) (busy : Bool) : (State.scrub s m seen busy).Good p := by
  unfold State.scrub
  try dsimp only
  repeat' first
    | with_reducible assumption | with_reducible apply good_ite | with_reducible intro _
    | with_reducible apply State.bump_good | with_reducible apply State.scrubNext_good
    | with_reducible apply State.setScrubber_good | with_reducible apply State.starve_good | dsimp only | split

theorem State.scrubStarved_good {s : State} (hs : State.Good p s) (m : ScrubMem) : (State.scrubStarved s m).Good p := by
  unfold State.scrubStarved
  try dsimp only
  repeat' first
    | with_reducible assumption | with_reducible apply good_ite | with_reducible intro _
    | with_reducible apply State.starve_good | dsimp only | split

theorem State.masterWrite_good {s : State} (hs : State.Good p s) (m : Master) (pa : Nat) (w : Word) (en : BitVec 4) : (State.masterWrite s m pa w en).Good p := by
  unfold State.masterWrite
  try dsimp only
  repeat' first
    | with_reducible assumption | with_reducible apply good_ite | with_reducible intro _
    | with_reducible apply State.busWrite_good | with_reducible apply State.slaveWord_good
    | with_reducible apply State.storeError_good | (refine good_of_snd (by with_reducible assumption) ?_) | dsimp only
    | split

theorem State.writeTogether_good {s : State} (hs : State.Good p s) (pa : Nat) (ws : List (Master × Word)) : (State.writeTogether s pa ws).Good p := by
  unfold State.writeTogether
  try dsimp only
  repeat' first
    | with_reducible assumption | with_reducible apply good_ite | with_reducible intro _ | with_reducible apply good_foldl
    | with_reducible apply good_foldl_snd | with_reducible apply good_foldl_snd2 | with_reducible apply good_foldl_fst
    | with_reducible apply State.answer_good | with_reducible apply State.masterWrite_good | dsimp only | split

theorem State.written_good {s : State} (hs : State.Good p s) (off : Nat) (f : State → State) (hf : ∀ v0, State.Good p v0 → (f v0).Good p) : (State.written s off f).Good p := by
  unfold State.written
  try dsimp only
  repeat' first
    | with_reducible assumption | with_reducible apply good_ite | with_reducible intro _ | with_reducible apply hf
    | with_reducible apply State.close_good | dsimp only | split

theorem State.entryFetch_good {s : State} (hs : State.Good p s) (c : Nat) (n : Nat) (done : State → State) (is : CellFault → Bool) (hdone : ∀ v0, State.Good p v0 → (done v0).Good p) : (State.entryFetch s c n done is).Good p := by
  unfold State.entryFetch
  try dsimp only
  repeat' first
    | with_reducible assumption | with_reducible apply good_ite | with_reducible intro _ | with_reducible apply hdone
    | with_reducible apply State.close_good | with_reducible apply State.faultOut_good
    | with_reducible apply State.fetch_good | with_reducible apply State.wait_good
    | (refine good_of_ok (by with_reducible assumption) ?_) | (refine good_of_flt (by with_reducible assumption) ?_)
    | (refine good_of_stall (by with_reducible assumption) ?_) | dsimp only | split

theorem State.spoilCode_good {s : State} (hs : State.Good p s) (c : Nat) (va : Nat) : (State.spoilCode s c va).Good p := by
  unfold State.spoilCode
  try dsimp only
  repeat' first
    | with_reducible assumption | with_reducible apply good_ite | with_reducible intro _
    | with_reducible apply State.setEcc_good | dsimp only | split

theorem State.spoilMicro_good {s : State} (hs : State.Good p s) (c : Nat) (info : Nat) (n : Nat) : (State.spoilMicro s c info n).Good p := by
  unfold State.spoilMicro
  try dsimp only
  repeat' first
    | with_reducible assumption | with_reducible apply good_ite | with_reducible intro _
    | with_reducible apply State.setMicroErr_good | simp only [good_mk, good_proj] | dsimp only | split

theorem State.entrySync_good {s : State} (hs : State.Good p s) (c : Nat) (code : Nat) (info : Nat) (va : Nat) : (State.entrySync s c code info va).Good p := by
  unfold State.entrySync
  try dsimp only
  repeat' first
    | with_reducible assumption | with_reducible apply good_ite | with_reducible intro _
    | with_reducible apply State.entryFetch_good | with_reducible apply State.faultOut_good
    | with_reducible apply State.microRead_good | with_reducible apply State.modCell_good
    | with_reducible apply State.spoilCode_good | with_reducible apply State.spoilMicro_good
    | simp only [good_mk, good_proj] | (refine good_of_ok (by with_reducible assumption) ?_)
    | (refine good_of_flt (by with_reducible assumption) ?_) | (refine good_of_stall (by with_reducible assumption) ?_)
    | dsimp only | split

theorem State.faultEntry_good {s : State} (hs : State.Good p s) (c : Nat) (r : FaultReq) : (State.faultEntry s c r).Good p := by
  unfold State.faultEntry
  try dsimp only
  repeat' first
    | with_reducible assumption | with_reducible apply good_ite | with_reducible intro _
    | with_reducible apply State.close_good | with_reducible apply State.entrySync_good
    | with_reducible apply State.takeHeld_good | dsimp only | split

end Sys2Proof.Machine
end

