-- ==== Sys2Proof/Laws/State.lean ====
section
/-! SUPPORT. State.lean: what each plain update of the state does to each field, and what a reader reads after a writer. -/

namespace Sys2Proof.Machine

open Sys2Proof

variable (s : State)

/-! ## setReg -/

@[simp] theorem State.setReg_pending (o : Nat) (w : Word) : (s.setReg o w).pending = s.pending := rfl
@[simp] theorem State.setReg_ctl (o : Nat) (w : Word) : (s.setReg o w).ctl = sput (resetWord o) o w s.ctl := rfl
@[simp] theorem State.setReg_ctlTagA (o : Nat) (w : Word) : (s.setReg o w).ctlTagA = s.ctlTagA := rfl
@[simp] theorem State.setReg_ctlTagB (o : Nat) (w : Word) : (s.setReg o w).ctlTagB = s.ctlTagB := rfl
@[simp] theorem State.setReg_mem (o : Nat) (w : Word) : (s.setReg o w).mem = s.mem := rfl
@[simp] theorem State.setReg_tagA (o : Nat) (w : Word) : (s.setReg o w).tagA = s.tagA := rfl
@[simp] theorem State.setReg_tagB (o : Nat) (w : Word) : (s.setReg o w).tagB = s.tagB := rfl
@[simp] theorem State.setReg_ecc (o : Nat) (w : Word) : (s.setReg o w).ecc = s.ecc := rfl
@[simp] theorem State.setReg_cells (o : Nat) (w : Word) : (s.setReg o w).cells = s.cells := rfl
@[simp] theorem State.setReg_posts (o : Nat) (w : Word) : (s.setReg o w).posts = s.posts := rfl
@[simp] theorem State.setReg_bells (o : Nat) (w : Word) : (s.setReg o w).bells = s.bells := rfl
@[simp] theorem State.setReg_msgs (o : Nat) (w : Word) : (s.setReg o w).msgs = s.msgs := rfl
@[simp] theorem State.setReg_passed (o : Nat) (w : Word) : (s.setReg o w).passed = s.passed := rfl
@[simp] theorem State.setReg_pins (o : Nat) (w : Word) : (s.setReg o w).pins = s.pins := rfl
@[simp] theorem State.setReg_fab (o : Nat) (w : Word) : (s.setReg o w).fab = s.fab := rfl
@[simp] theorem State.setReg_installed (o : Nat) (w : Word) : (s.setReg o w).installed = s.installed := rfl
@[simp] theorem State.setReg_presented (o : Nat) (w : Word) : (s.setReg o w).presented = s.presented := rfl
@[simp] theorem State.setReg_withdrawn (o : Nat) (w : Word) : (s.setReg o w).withdrawn = s.withdrawn := rfl
@[simp] theorem State.setReg_kinds (o : Nat) (w : Word) : (s.setReg o w).kinds = s.kinds := rfl
@[simp] theorem State.setReg_frm (o : Nat) (w : Word) : (s.setReg o w).frm = s.frm := rfl
@[simp] theorem State.setReg_rime (o : Nat) (w : Word) : (s.setReg o w).rime = s.rime := rfl
@[simp] theorem State.setReg_qm (o : Nat) (w : Word) : (s.setReg o w).qm = s.qm := rfl
@[simp] theorem State.setReg_rpr (o : Nat) (w : Word) : (s.setReg o w).rpr = s.rpr := rfl
@[simp] theorem State.setReg_ports (o : Nat) (w : Word) : (s.setReg o w).ports = s.ports := rfl
@[simp] theorem State.setReg_firn (o : Nat) (w : Word) : (s.setReg o w).firn = s.firn := rfl
@[simp] theorem State.setReg_stby (o : Nat) (w : Word) : (s.setReg o w).stby = s.stby := rfl
@[simp] theorem State.setReg_ldv (o : Nat) (w : Word) : (s.setReg o w).ldv = s.ldv := rfl
@[simp] theorem State.setReg_thaw (o : Nat) (w : Word) : (s.setReg o w).thaw = s.thaw := rfl
@[simp] theorem State.setReg_dbg (o : Nat) (w : Word) : (s.setReg o w).dbg = s.dbg := rfl
@[simp] theorem State.setReg_pwr (o : Nat) (w : Word) : (s.setReg o w).pwr = s.pwr := rfl
@[simp] theorem State.setReg_fresh (o : Nat) (w : Word) : (s.setReg o w).fresh = s.fresh := rfl
@[simp] theorem State.setReg_slave (o : Nat) (w : Word) : (s.setReg o w).slave = s.slave := rfl
@[simp] theorem State.setReg_scrubbers (o : Nat) (w : Word) : (s.setReg o w).scrubbers = s.scrubbers := rfl

/-! ## put -/

@[simp] theorem State.put_pending (f : Fld) (n : Nat) : (s.put f n).pending = s.pending := rfl
@[simp] theorem State.put_ctlTagA (f : Fld) (n : Nat) : (s.put f n).ctlTagA = s.ctlTagA := rfl
@[simp] theorem State.put_ctlTagB (f : Fld) (n : Nat) : (s.put f n).ctlTagB = s.ctlTagB := rfl
@[simp] theorem State.put_mem (f : Fld) (n : Nat) : (s.put f n).mem = s.mem := rfl
@[simp] theorem State.put_tagA (f : Fld) (n : Nat) : (s.put f n).tagA = s.tagA := rfl
@[simp] theorem State.put_tagB (f : Fld) (n : Nat) : (s.put f n).tagB = s.tagB := rfl
@[simp] theorem State.put_ecc (f : Fld) (n : Nat) : (s.put f n).ecc = s.ecc := rfl
@[simp] theorem State.put_cells (f : Fld) (n : Nat) : (s.put f n).cells = s.cells := rfl
@[simp] theorem State.put_posts (f : Fld) (n : Nat) : (s.put f n).posts = s.posts := rfl
@[simp] theorem State.put_bells (f : Fld) (n : Nat) : (s.put f n).bells = s.bells := rfl
@[simp] theorem State.put_msgs (f : Fld) (n : Nat) : (s.put f n).msgs = s.msgs := rfl
@[simp] theorem State.put_passed (f : Fld) (n : Nat) : (s.put f n).passed = s.passed := rfl
@[simp] theorem State.put_pins (f : Fld) (n : Nat) : (s.put f n).pins = s.pins := rfl
@[simp] theorem State.put_fab (f : Fld) (n : Nat) : (s.put f n).fab = s.fab := rfl
@[simp] theorem State.put_installed (f : Fld) (n : Nat) : (s.put f n).installed = s.installed := rfl
@[simp] theorem State.put_presented (f : Fld) (n : Nat) : (s.put f n).presented = s.presented := rfl
@[simp] theorem State.put_withdrawn (f : Fld) (n : Nat) : (s.put f n).withdrawn = s.withdrawn := rfl
@[simp] theorem State.put_kinds (f : Fld) (n : Nat) : (s.put f n).kinds = s.kinds := rfl
@[simp] theorem State.put_frm (f : Fld) (n : Nat) : (s.put f n).frm = s.frm := rfl
@[simp] theorem State.put_rime (f : Fld) (n : Nat) : (s.put f n).rime = s.rime := rfl
@[simp] theorem State.put_qm (f : Fld) (n : Nat) : (s.put f n).qm = s.qm := rfl
@[simp] theorem State.put_rpr (f : Fld) (n : Nat) : (s.put f n).rpr = s.rpr := rfl
@[simp] theorem State.put_ports (f : Fld) (n : Nat) : (s.put f n).ports = s.ports := rfl
@[simp] theorem State.put_firn (f : Fld) (n : Nat) : (s.put f n).firn = s.firn := rfl
@[simp] theorem State.put_stby (f : Fld) (n : Nat) : (s.put f n).stby = s.stby := rfl
@[simp] theorem State.put_ldv (f : Fld) (n : Nat) : (s.put f n).ldv = s.ldv := rfl
@[simp] theorem State.put_thaw (f : Fld) (n : Nat) : (s.put f n).thaw = s.thaw := rfl
@[simp] theorem State.put_dbg (f : Fld) (n : Nat) : (s.put f n).dbg = s.dbg := rfl
@[simp] theorem State.put_pwr (f : Fld) (n : Nat) : (s.put f n).pwr = s.pwr := rfl
@[simp] theorem State.put_fresh (f : Fld) (n : Nat) : (s.put f n).fresh = s.fresh := rfl
@[simp] theorem State.put_slave (f : Fld) (n : Nat) : (s.put f n).slave = s.slave := rfl
@[simp] theorem State.put_scrubbers (f : Fld) (n : Nat) : (s.put f n).scrubbers = s.scrubbers := rfl

/-! ## putB -/

@[simp] theorem State.putB_pending (f : Fld) (b : Bool) : (s.putB f b).pending = s.pending := rfl
@[simp] theorem State.putB_ctlTagA (f : Fld) (b : Bool) : (s.putB f b).ctlTagA = s.ctlTagA := rfl
@[simp] theorem State.putB_ctlTagB (f : Fld) (b : Bool) : (s.putB f b).ctlTagB = s.ctlTagB := rfl
@[simp] theorem State.putB_mem (f : Fld) (b : Bool) : (s.putB f b).mem = s.mem := rfl
@[simp] theorem State.putB_tagA (f : Fld) (b : Bool) : (s.putB f b).tagA = s.tagA := rfl
@[simp] theorem State.putB_tagB (f : Fld) (b : Bool) : (s.putB f b).tagB = s.tagB := rfl
@[simp] theorem State.putB_ecc (f : Fld) (b : Bool) : (s.putB f b).ecc = s.ecc := rfl
@[simp] theorem State.putB_cells (f : Fld) (b : Bool) : (s.putB f b).cells = s.cells := rfl
@[simp] theorem State.putB_posts (f : Fld) (b : Bool) : (s.putB f b).posts = s.posts := rfl
@[simp] theorem State.putB_bells (f : Fld) (b : Bool) : (s.putB f b).bells = s.bells := rfl
@[simp] theorem State.putB_msgs (f : Fld) (b : Bool) : (s.putB f b).msgs = s.msgs := rfl
@[simp] theorem State.putB_passed (f : Fld) (b : Bool) : (s.putB f b).passed = s.passed := rfl
@[simp] theorem State.putB_pins (f : Fld) (b : Bool) : (s.putB f b).pins = s.pins := rfl
@[simp] theorem State.putB_fab (f : Fld) (b : Bool) : (s.putB f b).fab = s.fab := rfl
@[simp] theorem State.putB_installed (f : Fld) (b : Bool) : (s.putB f b).installed = s.installed := rfl
@[simp] theorem State.putB_presented (f : Fld) (b : Bool) : (s.putB f b).presented = s.presented := rfl
@[simp] theorem State.putB_withdrawn (f : Fld) (b : Bool) : (s.putB f b).withdrawn = s.withdrawn := rfl
@[simp] theorem State.putB_kinds (f : Fld) (b : Bool) : (s.putB f b).kinds = s.kinds := rfl
@[simp] theorem State.putB_frm (f : Fld) (b : Bool) : (s.putB f b).frm = s.frm := rfl
@[simp] theorem State.putB_rime (f : Fld) (b : Bool) : (s.putB f b).rime = s.rime := rfl
@[simp] theorem State.putB_qm (f : Fld) (b : Bool) : (s.putB f b).qm = s.qm := rfl
@[simp] theorem State.putB_rpr (f : Fld) (b : Bool) : (s.putB f b).rpr = s.rpr := rfl
@[simp] theorem State.putB_ports (f : Fld) (b : Bool) : (s.putB f b).ports = s.ports := rfl
@[simp] theorem State.putB_firn (f : Fld) (b : Bool) : (s.putB f b).firn = s.firn := rfl
@[simp] theorem State.putB_stby (f : Fld) (b : Bool) : (s.putB f b).stby = s.stby := rfl
@[simp] theorem State.putB_ldv (f : Fld) (b : Bool) : (s.putB f b).ldv = s.ldv := rfl
@[simp] theorem State.putB_thaw (f : Fld) (b : Bool) : (s.putB f b).thaw = s.thaw := rfl
@[simp] theorem State.putB_dbg (f : Fld) (b : Bool) : (s.putB f b).dbg = s.dbg := rfl
@[simp] theorem State.putB_pwr (f : Fld) (b : Bool) : (s.putB f b).pwr = s.pwr := rfl
@[simp] theorem State.putB_fresh (f : Fld) (b : Bool) : (s.putB f b).fresh = s.fresh := rfl
@[simp] theorem State.putB_slave (f : Fld) (b : Bool) : (s.putB f b).slave = s.slave := rfl
@[simp] theorem State.putB_scrubbers (f : Fld) (b : Bool) : (s.putB f b).scrubbers = s.scrubbers := rfl

/-! ## raise -/

@[simp] theorem State.raise_pending (f : Fld) : (s.raise f).pending = s.pending := rfl
@[simp] theorem State.raise_ctlTagA (f : Fld) : (s.raise f).ctlTagA = s.ctlTagA := rfl
@[simp] theorem State.raise_ctlTagB (f : Fld) : (s.raise f).ctlTagB = s.ctlTagB := rfl
@[simp] theorem State.raise_mem (f : Fld) : (s.raise f).mem = s.mem := rfl
@[simp] theorem State.raise_tagA (f : Fld) : (s.raise f).tagA = s.tagA := rfl
@[simp] theorem State.raise_tagB (f : Fld) : (s.raise f).tagB = s.tagB := rfl
@[simp] theorem State.raise_ecc (f : Fld) : (s.raise f).ecc = s.ecc := rfl
@[simp] theorem State.raise_cells (f : Fld) : (s.raise f).cells = s.cells := rfl
@[simp] theorem State.raise_posts (f : Fld) : (s.raise f).posts = s.posts := rfl
@[simp] theorem State.raise_bells (f : Fld) : (s.raise f).bells = s.bells := rfl
@[simp] theorem State.raise_msgs (f : Fld) : (s.raise f).msgs = s.msgs := rfl
@[simp] theorem State.raise_passed (f : Fld) : (s.raise f).passed = s.passed := rfl
@[simp] theorem State.raise_pins (f : Fld) : (s.raise f).pins = s.pins := rfl
@[simp] theorem State.raise_fab (f : Fld) : (s.raise f).fab = s.fab := rfl
@[simp] theorem State.raise_installed (f : Fld) : (s.raise f).installed = s.installed := rfl
@[simp] theorem State.raise_presented (f : Fld) : (s.raise f).presented = s.presented := rfl
@[simp] theorem State.raise_withdrawn (f : Fld) : (s.raise f).withdrawn = s.withdrawn := rfl
@[simp] theorem State.raise_kinds (f : Fld) : (s.raise f).kinds = s.kinds := rfl
@[simp] theorem State.raise_frm (f : Fld) : (s.raise f).frm = s.frm := rfl
@[simp] theorem State.raise_rime (f : Fld) : (s.raise f).rime = s.rime := rfl
@[simp] theorem State.raise_qm (f : Fld) : (s.raise f).qm = s.qm := rfl
@[simp] theorem State.raise_rpr (f : Fld) : (s.raise f).rpr = s.rpr := rfl
@[simp] theorem State.raise_ports (f : Fld) : (s.raise f).ports = s.ports := rfl
@[simp] theorem State.raise_firn (f : Fld) : (s.raise f).firn = s.firn := rfl
@[simp] theorem State.raise_stby (f : Fld) : (s.raise f).stby = s.stby := rfl
@[simp] theorem State.raise_ldv (f : Fld) : (s.raise f).ldv = s.ldv := rfl
@[simp] theorem State.raise_thaw (f : Fld) : (s.raise f).thaw = s.thaw := rfl
@[simp] theorem State.raise_dbg (f : Fld) : (s.raise f).dbg = s.dbg := rfl
@[simp] theorem State.raise_pwr (f : Fld) : (s.raise f).pwr = s.pwr := rfl
@[simp] theorem State.raise_fresh (f : Fld) : (s.raise f).fresh = s.fresh := rfl
@[simp] theorem State.raise_slave (f : Fld) : (s.raise f).slave = s.slave := rfl
@[simp] theorem State.raise_scrubbers (f : Fld) : (s.raise f).scrubbers = s.scrubbers := rfl

/-! ## bump -/

@[simp] theorem State.bump_pending (f : Fld) : (s.bump f).pending = s.pending := rfl
@[simp] theorem State.bump_ctlTagA (f : Fld) : (s.bump f).ctlTagA = s.ctlTagA := rfl
@[simp] theorem State.bump_ctlTagB (f : Fld) : (s.bump f).ctlTagB = s.ctlTagB := rfl
@[simp] theorem State.bump_mem (f : Fld) : (s.bump f).mem = s.mem := rfl
@[simp] theorem State.bump_tagA (f : Fld) : (s.bump f).tagA = s.tagA := rfl
@[simp] theorem State.bump_tagB (f : Fld) : (s.bump f).tagB = s.tagB := rfl
@[simp] theorem State.bump_ecc (f : Fld) : (s.bump f).ecc = s.ecc := rfl
@[simp] theorem State.bump_cells (f : Fld) : (s.bump f).cells = s.cells := rfl
@[simp] theorem State.bump_posts (f : Fld) : (s.bump f).posts = s.posts := rfl
@[simp] theorem State.bump_bells (f : Fld) : (s.bump f).bells = s.bells := rfl
@[simp] theorem State.bump_msgs (f : Fld) : (s.bump f).msgs = s.msgs := rfl
@[simp] theorem State.bump_passed (f : Fld) : (s.bump f).passed = s.passed := rfl
@[simp] theorem State.bump_pins (f : Fld) : (s.bump f).pins = s.pins := rfl
@[simp] theorem State.bump_fab (f : Fld) : (s.bump f).fab = s.fab := rfl
@[simp] theorem State.bump_installed (f : Fld) : (s.bump f).installed = s.installed := rfl
@[simp] theorem State.bump_presented (f : Fld) : (s.bump f).presented = s.presented := rfl
@[simp] theorem State.bump_withdrawn (f : Fld) : (s.bump f).withdrawn = s.withdrawn := rfl
@[simp] theorem State.bump_kinds (f : Fld) : (s.bump f).kinds = s.kinds := rfl
@[simp] theorem State.bump_frm (f : Fld) : (s.bump f).frm = s.frm := rfl
@[simp] theorem State.bump_rime (f : Fld) : (s.bump f).rime = s.rime := rfl
@[simp] theorem State.bump_qm (f : Fld) : (s.bump f).qm = s.qm := rfl
@[simp] theorem State.bump_rpr (f : Fld) : (s.bump f).rpr = s.rpr := rfl
@[simp] theorem State.bump_ports (f : Fld) : (s.bump f).ports = s.ports := rfl
@[simp] theorem State.bump_firn (f : Fld) : (s.bump f).firn = s.firn := rfl
@[simp] theorem State.bump_stby (f : Fld) : (s.bump f).stby = s.stby := rfl
@[simp] theorem State.bump_ldv (f : Fld) : (s.bump f).ldv = s.ldv := rfl
@[simp] theorem State.bump_thaw (f : Fld) : (s.bump f).thaw = s.thaw := rfl
@[simp] theorem State.bump_dbg (f : Fld) : (s.bump f).dbg = s.dbg := rfl
@[simp] theorem State.bump_pwr (f : Fld) : (s.bump f).pwr = s.pwr := rfl
@[simp] theorem State.bump_fresh (f : Fld) : (s.bump f).fresh = s.fresh := rfl
@[simp] theorem State.bump_slave (f : Fld) : (s.bump f).slave = s.slave := rfl
@[simp] theorem State.bump_scrubbers (f : Fld) : (s.bump f).scrubbers = s.scrubbers := rfl

/-! ## bumpBy -/

@[simp] theorem State.bumpBy_pending (f : Fld) (n : Nat) : (s.bumpBy f n).pending = s.pending := rfl
@[simp] theorem State.bumpBy_ctlTagA (f : Fld) (n : Nat) : (s.bumpBy f n).ctlTagA = s.ctlTagA := rfl
@[simp] theorem State.bumpBy_ctlTagB (f : Fld) (n : Nat) : (s.bumpBy f n).ctlTagB = s.ctlTagB := rfl
@[simp] theorem State.bumpBy_mem (f : Fld) (n : Nat) : (s.bumpBy f n).mem = s.mem := rfl
@[simp] theorem State.bumpBy_tagA (f : Fld) (n : Nat) : (s.bumpBy f n).tagA = s.tagA := rfl
@[simp] theorem State.bumpBy_tagB (f : Fld) (n : Nat) : (s.bumpBy f n).tagB = s.tagB := rfl
@[simp] theorem State.bumpBy_ecc (f : Fld) (n : Nat) : (s.bumpBy f n).ecc = s.ecc := rfl
@[simp] theorem State.bumpBy_cells (f : Fld) (n : Nat) : (s.bumpBy f n).cells = s.cells := rfl
@[simp] theorem State.bumpBy_posts (f : Fld) (n : Nat) : (s.bumpBy f n).posts = s.posts := rfl
@[simp] theorem State.bumpBy_bells (f : Fld) (n : Nat) : (s.bumpBy f n).bells = s.bells := rfl
@[simp] theorem State.bumpBy_msgs (f : Fld) (n : Nat) : (s.bumpBy f n).msgs = s.msgs := rfl
@[simp] theorem State.bumpBy_passed (f : Fld) (n : Nat) : (s.bumpBy f n).passed = s.passed := rfl
@[simp] theorem State.bumpBy_pins (f : Fld) (n : Nat) : (s.bumpBy f n).pins = s.pins := rfl
@[simp] theorem State.bumpBy_fab (f : Fld) (n : Nat) : (s.bumpBy f n).fab = s.fab := rfl
@[simp] theorem State.bumpBy_installed (f : Fld) (n : Nat) : (s.bumpBy f n).installed = s.installed := rfl
@[simp] theorem State.bumpBy_presented (f : Fld) (n : Nat) : (s.bumpBy f n).presented = s.presented := rfl
@[simp] theorem State.bumpBy_withdrawn (f : Fld) (n : Nat) : (s.bumpBy f n).withdrawn = s.withdrawn := rfl
@[simp] theorem State.bumpBy_kinds (f : Fld) (n : Nat) : (s.bumpBy f n).kinds = s.kinds := rfl
@[simp] theorem State.bumpBy_frm (f : Fld) (n : Nat) : (s.bumpBy f n).frm = s.frm := rfl
@[simp] theorem State.bumpBy_rime (f : Fld) (n : Nat) : (s.bumpBy f n).rime = s.rime := rfl
@[simp] theorem State.bumpBy_qm (f : Fld) (n : Nat) : (s.bumpBy f n).qm = s.qm := rfl
@[simp] theorem State.bumpBy_rpr (f : Fld) (n : Nat) : (s.bumpBy f n).rpr = s.rpr := rfl
@[simp] theorem State.bumpBy_ports (f : Fld) (n : Nat) : (s.bumpBy f n).ports = s.ports := rfl
@[simp] theorem State.bumpBy_firn (f : Fld) (n : Nat) : (s.bumpBy f n).firn = s.firn := rfl
@[simp] theorem State.bumpBy_stby (f : Fld) (n : Nat) : (s.bumpBy f n).stby = s.stby := rfl
@[simp] theorem State.bumpBy_ldv (f : Fld) (n : Nat) : (s.bumpBy f n).ldv = s.ldv := rfl
@[simp] theorem State.bumpBy_thaw (f : Fld) (n : Nat) : (s.bumpBy f n).thaw = s.thaw := rfl
@[simp] theorem State.bumpBy_dbg (f : Fld) (n : Nat) : (s.bumpBy f n).dbg = s.dbg := rfl
@[simp] theorem State.bumpBy_pwr (f : Fld) (n : Nat) : (s.bumpBy f n).pwr = s.pwr := rfl
@[simp] theorem State.bumpBy_fresh (f : Fld) (n : Nat) : (s.bumpBy f n).fresh = s.fresh := rfl
@[simp] theorem State.bumpBy_slave (f : Fld) (n : Nat) : (s.bumpBy f n).slave = s.slave := rfl
@[simp] theorem State.bumpBy_scrubbers (f : Fld) (n : Nat) : (s.bumpBy f n).scrubbers = s.scrubbers := rfl

/-! ## setCell -/

@[simp] theorem State.setCell_pending (c : Nat) (x : Cell) : (s.setCell c x).pending = s.pending := rfl
@[simp] theorem State.setCell_ctl (c : Nat) (x : Cell) : (s.setCell c x).ctl = s.ctl := rfl
@[simp] theorem State.setCell_ctlTagA (c : Nat) (x : Cell) : (s.setCell c x).ctlTagA = s.ctlTagA := rfl
@[simp] theorem State.setCell_ctlTagB (c : Nat) (x : Cell) : (s.setCell c x).ctlTagB = s.ctlTagB := rfl
@[simp] theorem State.setCell_mem (c : Nat) (x : Cell) : (s.setCell c x).mem = s.mem := rfl
@[simp] theorem State.setCell_tagA (c : Nat) (x : Cell) : (s.setCell c x).tagA = s.tagA := rfl
@[simp] theorem State.setCell_tagB (c : Nat) (x : Cell) : (s.setCell c x).tagB = s.tagB := rfl
@[simp] theorem State.setCell_ecc (c : Nat) (x : Cell) : (s.setCell c x).ecc = s.ecc := rfl
@[simp] theorem State.setCell_cells (c : Nat) (x : Cell) : (s.setCell c x).cells = sput Cell.reset c x s.cells := rfl
@[simp] theorem State.setCell_posts (c : Nat) (x : Cell) : (s.setCell c x).posts = s.posts := rfl
@[simp] theorem State.setCell_bells (c : Nat) (x : Cell) : (s.setCell c x).bells = s.bells := rfl
@[simp] theorem State.setCell_msgs (c : Nat) (x : Cell) : (s.setCell c x).msgs = s.msgs := rfl
@[simp] theorem State.setCell_passed (c : Nat) (x : Cell) : (s.setCell c x).passed = s.passed := rfl
@[simp] theorem State.setCell_pins (c : Nat) (x : Cell) : (s.setCell c x).pins = s.pins := rfl
@[simp] theorem State.setCell_fab (c : Nat) (x : Cell) : (s.setCell c x).fab = s.fab := rfl
@[simp] theorem State.setCell_installed (c : Nat) (x : Cell) : (s.setCell c x).installed = s.installed := rfl
@[simp] theorem State.setCell_presented (c : Nat) (x : Cell) : (s.setCell c x).presented = s.presented := rfl
@[simp] theorem State.setCell_withdrawn (c : Nat) (x : Cell) : (s.setCell c x).withdrawn = s.withdrawn := rfl
@[simp] theorem State.setCell_kinds (c : Nat) (x : Cell) : (s.setCell c x).kinds = s.kinds := rfl
@[simp] theorem State.setCell_frm (c : Nat) (x : Cell) : (s.setCell c x).frm = s.frm := rfl
@[simp] theorem State.setCell_rime (c : Nat) (x : Cell) : (s.setCell c x).rime = s.rime := rfl
@[simp] theorem State.setCell_qm (c : Nat) (x : Cell) : (s.setCell c x).qm = s.qm := rfl
@[simp] theorem State.setCell_rpr (c : Nat) (x : Cell) : (s.setCell c x).rpr = s.rpr := rfl
@[simp] theorem State.setCell_ports (c : Nat) (x : Cell) : (s.setCell c x).ports = s.ports := rfl
@[simp] theorem State.setCell_firn (c : Nat) (x : Cell) : (s.setCell c x).firn = s.firn := rfl
@[simp] theorem State.setCell_stby (c : Nat) (x : Cell) : (s.setCell c x).stby = s.stby := rfl
@[simp] theorem State.setCell_ldv (c : Nat) (x : Cell) : (s.setCell c x).ldv = s.ldv := rfl
@[simp] theorem State.setCell_thaw (c : Nat) (x : Cell) : (s.setCell c x).thaw = s.thaw := rfl
@[simp] theorem State.setCell_dbg (c : Nat) (x : Cell) : (s.setCell c x).dbg = s.dbg := rfl
@[simp] theorem State.setCell_pwr (c : Nat) (x : Cell) : (s.setCell c x).pwr = s.pwr := rfl
@[simp] theorem State.setCell_fresh (c : Nat) (x : Cell) : (s.setCell c x).fresh = s.fresh := rfl
@[simp] theorem State.setCell_slave (c : Nat) (x : Cell) : (s.setCell c x).slave = s.slave := rfl
@[simp] theorem State.setCell_scrubbers (c : Nat) (x : Cell) : (s.setCell c x).scrubbers = s.scrubbers := rfl

/-! ## modCell -/

@[simp] theorem State.modCell_pending (c : Nat) (g : Cell → Cell) : (s.modCell c g).pending = s.pending := rfl
@[simp] theorem State.modCell_ctl (c : Nat) (g : Cell → Cell) : (s.modCell c g).ctl = s.ctl := rfl
@[simp] theorem State.modCell_ctlTagA (c : Nat) (g : Cell → Cell) : (s.modCell c g).ctlTagA = s.ctlTagA := rfl
@[simp] theorem State.modCell_ctlTagB (c : Nat) (g : Cell → Cell) : (s.modCell c g).ctlTagB = s.ctlTagB := rfl
@[simp] theorem State.modCell_mem (c : Nat) (g : Cell → Cell) : (s.modCell c g).mem = s.mem := rfl
@[simp] theorem State.modCell_tagA (c : Nat) (g : Cell → Cell) : (s.modCell c g).tagA = s.tagA := rfl
@[simp] theorem State.modCell_tagB (c : Nat) (g : Cell → Cell) : (s.modCell c g).tagB = s.tagB := rfl
@[simp] theorem State.modCell_ecc (c : Nat) (g : Cell → Cell) : (s.modCell c g).ecc = s.ecc := rfl
@[simp] theorem State.modCell_posts (c : Nat) (g : Cell → Cell) : (s.modCell c g).posts = s.posts := rfl
@[simp] theorem State.modCell_bells (c : Nat) (g : Cell → Cell) : (s.modCell c g).bells = s.bells := rfl
@[simp] theorem State.modCell_msgs (c : Nat) (g : Cell → Cell) : (s.modCell c g).msgs = s.msgs := rfl
@[simp] theorem State.modCell_passed (c : Nat) (g : Cell → Cell) : (s.modCell c g).passed = s.passed := rfl
@[simp] theorem State.modCell_pins (c : Nat) (g : Cell → Cell) : (s.modCell c g).pins = s.pins := rfl
@[simp] theorem State.modCell_fab (c : Nat) (g : Cell → Cell) : (s.modCell c g).fab = s.fab := rfl
@[simp] theorem State.modCell_installed (c : Nat) (g : Cell → Cell) : (s.modCell c g).installed = s.installed := rfl
@[simp] theorem State.modCell_presented (c : Nat) (g : Cell → Cell) : (s.modCell c g).presented = s.presented := rfl
@[simp] theorem State.modCell_withdrawn (c : Nat) (g : Cell → Cell) : (s.modCell c g).withdrawn = s.withdrawn := rfl
@[simp] theorem State.modCell_kinds (c : Nat) (g : Cell → Cell) : (s.modCell c g).kinds = s.kinds := rfl
@[simp] theorem State.modCell_frm (c : Nat) (g : Cell → Cell) : (s.modCell c g).frm = s.frm := rfl
@[simp] theorem State.modCell_rime (c : Nat) (g : Cell → Cell) : (s.modCell c g).rime = s.rime := rfl
@[simp] theorem State.modCell_qm (c : Nat) (g : Cell → Cell) : (s.modCell c g).qm = s.qm := rfl
@[simp] theorem State.modCell_rpr (c : Nat) (g : Cell → Cell) : (s.modCell c g).rpr = s.rpr := rfl
@[simp] theorem State.modCell_ports (c : Nat) (g : Cell → Cell) : (s.modCell c g).ports = s.ports := rfl
@[simp] theorem State.modCell_firn (c : Nat) (g : Cell → Cell) : (s.modCell c g).firn = s.firn := rfl
@[simp] theorem State.modCell_stby (c : Nat) (g : Cell → Cell) : (s.modCell c g).stby = s.stby := rfl
@[simp] theorem State.modCell_ldv (c : Nat) (g : Cell → Cell) : (s.modCell c g).ldv = s.ldv := rfl
@[simp] theorem State.modCell_thaw (c : Nat) (g : Cell → Cell) : (s.modCell c g).thaw = s.thaw := rfl
@[simp] theorem State.modCell_dbg (c : Nat) (g : Cell → Cell) : (s.modCell c g).dbg = s.dbg := rfl
@[simp] theorem State.modCell_pwr (c : Nat) (g : Cell → Cell) : (s.modCell c g).pwr = s.pwr := rfl
@[simp] theorem State.modCell_fresh (c : Nat) (g : Cell → Cell) : (s.modCell c g).fresh = s.fresh := rfl
@[simp] theorem State.modCell_slave (c : Nat) (g : Cell → Cell) : (s.modCell c g).slave = s.slave := rfl
@[simp] theorem State.modCell_scrubbers (c : Nat) (g : Cell → Cell) : (s.modCell c g).scrubbers = s.scrubbers := rfl

/-! ## setBank -/

@[simp] theorem State.setBank_pending (c b : Nat) (k : Bank) : (s.setBank c b k).pending = s.pending := rfl
@[simp] theorem State.setBank_ctl (c b : Nat) (k : Bank) : (s.setBank c b k).ctl = s.ctl := rfl
@[simp] theorem State.setBank_ctlTagA (c b : Nat) (k : Bank) : (s.setBank c b k).ctlTagA = s.ctlTagA := rfl
@[simp] theorem State.setBank_ctlTagB (c b : Nat) (k : Bank) : (s.setBank c b k).ctlTagB = s.ctlTagB := rfl
@[simp] theorem State.setBank_mem (c b : Nat) (k : Bank) : (s.setBank c b k).mem = s.mem := rfl
@[simp] theorem State.setBank_tagA (c b : Nat) (k : Bank) : (s.setBank c b k).tagA = s.tagA := rfl
@[simp] theorem State.setBank_tagB (c b : Nat) (k : Bank) : (s.setBank c b k).tagB = s.tagB := rfl
@[simp] theorem State.setBank_ecc (c b : Nat) (k : Bank) : (s.setBank c b k).ecc = s.ecc := rfl
@[simp] theorem State.setBank_posts (c b : Nat) (k : Bank) : (s.setBank c b k).posts = s.posts := rfl
@[simp] theorem State.setBank_bells (c b : Nat) (k : Bank) : (s.setBank c b k).bells = s.bells := rfl
@[simp] theorem State.setBank_msgs (c b : Nat) (k : Bank) : (s.setBank c b k).msgs = s.msgs := rfl
@[simp] theorem State.setBank_passed (c b : Nat) (k : Bank) : (s.setBank c b k).passed = s.passed := rfl
@[simp] theorem State.setBank_pins (c b : Nat) (k : Bank) : (s.setBank c b k).pins = s.pins := rfl
@[simp] theorem State.setBank_fab (c b : Nat) (k : Bank) : (s.setBank c b k).fab = s.fab := rfl
@[simp] theorem State.setBank_installed (c b : Nat) (k : Bank) : (s.setBank c b k).installed = s.installed := rfl
@[simp] theorem State.setBank_presented (c b : Nat) (k : Bank) : (s.setBank c b k).presented = s.presented := rfl
@[simp] theorem State.setBank_withdrawn (c b : Nat) (k : Bank) : (s.setBank c b k).withdrawn = s.withdrawn := rfl
@[simp] theorem State.setBank_kinds (c b : Nat) (k : Bank) : (s.setBank c b k).kinds = s.kinds := rfl
@[simp] theorem State.setBank_frm (c b : Nat) (k : Bank) : (s.setBank c b k).frm = s.frm := rfl
@[simp] theorem State.setBank_rime (c b : Nat) (k : Bank) : (s.setBank c b k).rime = s.rime := rfl
@[simp] theorem State.setBank_qm (c b : Nat) (k : Bank) : (s.setBank c b k).qm = s.qm := rfl
@[simp] theorem State.setBank_rpr (c b : Nat) (k : Bank) : (s.setBank c b k).rpr = s.rpr := rfl
@[simp] theorem State.setBank_ports (c b : Nat) (k : Bank) : (s.setBank c b k).ports = s.ports := rfl
@[simp] theorem State.setBank_firn (c b : Nat) (k : Bank) : (s.setBank c b k).firn = s.firn := rfl
@[simp] theorem State.setBank_stby (c b : Nat) (k : Bank) : (s.setBank c b k).stby = s.stby := rfl
@[simp] theorem State.setBank_ldv (c b : Nat) (k : Bank) : (s.setBank c b k).ldv = s.ldv := rfl
@[simp] theorem State.setBank_thaw (c b : Nat) (k : Bank) : (s.setBank c b k).thaw = s.thaw := rfl
@[simp] theorem State.setBank_dbg (c b : Nat) (k : Bank) : (s.setBank c b k).dbg = s.dbg := rfl
@[simp] theorem State.setBank_pwr (c b : Nat) (k : Bank) : (s.setBank c b k).pwr = s.pwr := rfl
@[simp] theorem State.setBank_fresh (c b : Nat) (k : Bank) : (s.setBank c b k).fresh = s.fresh := rfl
@[simp] theorem State.setBank_slave (c b : Nat) (k : Bank) : (s.setBank c b k).slave = s.slave := rfl
@[simp] theorem State.setBank_scrubbers (c b : Nat) (k : Bank) : (s.setBank c b k).scrubbers = s.scrubbers := rfl

/-! ## modBank -/

@[simp] theorem State.modBank_pending (c b : Nat) (g : Bank → Bank) : (s.modBank c b g).pending = s.pending := rfl
@[simp] theorem State.modBank_ctl (c b : Nat) (g : Bank → Bank) : (s.modBank c b g).ctl = s.ctl := rfl
@[simp] theorem State.modBank_ctlTagA (c b : Nat) (g : Bank → Bank) : (s.modBank c b g).ctlTagA = s.ctlTagA := rfl
@[simp] theorem State.modBank_ctlTagB (c b : Nat) (g : Bank → Bank) : (s.modBank c b g).ctlTagB = s.ctlTagB := rfl
@[simp] theorem State.modBank_mem (c b : Nat) (g : Bank → Bank) : (s.modBank c b g).mem = s.mem := rfl
@[simp] theorem State.modBank_tagA (c b : Nat) (g : Bank → Bank) : (s.modBank c b g).tagA = s.tagA := rfl
@[simp] theorem State.modBank_tagB (c b : Nat) (g : Bank → Bank) : (s.modBank c b g).tagB = s.tagB := rfl
@[simp] theorem State.modBank_ecc (c b : Nat) (g : Bank → Bank) : (s.modBank c b g).ecc = s.ecc := rfl
@[simp] theorem State.modBank_posts (c b : Nat) (g : Bank → Bank) : (s.modBank c b g).posts = s.posts := rfl
@[simp] theorem State.modBank_bells (c b : Nat) (g : Bank → Bank) : (s.modBank c b g).bells = s.bells := rfl
@[simp] theorem State.modBank_msgs (c b : Nat) (g : Bank → Bank) : (s.modBank c b g).msgs = s.msgs := rfl
@[simp] theorem State.modBank_passed (c b : Nat) (g : Bank → Bank) : (s.modBank c b g).passed = s.passed := rfl
@[simp] theorem State.modBank_pins (c b : Nat) (g : Bank → Bank) : (s.modBank c b g).pins = s.pins := rfl
@[simp] theorem State.modBank_fab (c b : Nat) (g : Bank → Bank) : (s.modBank c b g).fab = s.fab := rfl
@[simp] theorem State.modBank_installed (c b : Nat) (g : Bank → Bank) : (s.modBank c b g).installed = s.installed := rfl
@[simp] theorem State.modBank_presented (c b : Nat) (g : Bank → Bank) : (s.modBank c b g).presented = s.presented := rfl
@[simp] theorem State.modBank_withdrawn (c b : Nat) (g : Bank → Bank) : (s.modBank c b g).withdrawn = s.withdrawn := rfl
@[simp] theorem State.modBank_kinds (c b : Nat) (g : Bank → Bank) : (s.modBank c b g).kinds = s.kinds := rfl
@[simp] theorem State.modBank_frm (c b : Nat) (g : Bank → Bank) : (s.modBank c b g).frm = s.frm := rfl
@[simp] theorem State.modBank_rime (c b : Nat) (g : Bank → Bank) : (s.modBank c b g).rime = s.rime := rfl
@[simp] theorem State.modBank_qm (c b : Nat) (g : Bank → Bank) : (s.modBank c b g).qm = s.qm := rfl
@[simp] theorem State.modBank_rpr (c b : Nat) (g : Bank → Bank) : (s.modBank c b g).rpr = s.rpr := rfl
@[simp] theorem State.modBank_ports (c b : Nat) (g : Bank → Bank) : (s.modBank c b g).ports = s.ports := rfl
@[simp] theorem State.modBank_firn (c b : Nat) (g : Bank → Bank) : (s.modBank c b g).firn = s.firn := rfl
@[simp] theorem State.modBank_stby (c b : Nat) (g : Bank → Bank) : (s.modBank c b g).stby = s.stby := rfl
@[simp] theorem State.modBank_ldv (c b : Nat) (g : Bank → Bank) : (s.modBank c b g).ldv = s.ldv := rfl
@[simp] theorem State.modBank_thaw (c b : Nat) (g : Bank → Bank) : (s.modBank c b g).thaw = s.thaw := rfl
@[simp] theorem State.modBank_dbg (c b : Nat) (g : Bank → Bank) : (s.modBank c b g).dbg = s.dbg := rfl
@[simp] theorem State.modBank_pwr (c b : Nat) (g : Bank → Bank) : (s.modBank c b g).pwr = s.pwr := rfl
@[simp] theorem State.modBank_fresh (c b : Nat) (g : Bank → Bank) : (s.modBank c b g).fresh = s.fresh := rfl
@[simp] theorem State.modBank_slave (c b : Nat) (g : Bank → Bank) : (s.modBank c b g).slave = s.slave := rfl
@[simp] theorem State.modBank_scrubbers (c b : Nat) (g : Bank → Bank) : (s.modBank c b g).scrubbers = s.scrubbers := rfl

/-! ## setCur -/

@[simp] theorem State.setCur_pending (c : Nat) (k : Bank) : (s.setCur c k).pending = s.pending := rfl
@[simp] theorem State.setCur_ctl (c : Nat) (k : Bank) : (s.setCur c k).ctl = s.ctl := rfl
@[simp] theorem State.setCur_ctlTagA (c : Nat) (k : Bank) : (s.setCur c k).ctlTagA = s.ctlTagA := rfl
@[simp] theorem State.setCur_ctlTagB (c : Nat) (k : Bank) : (s.setCur c k).ctlTagB = s.ctlTagB := rfl
@[simp] theorem State.setCur_mem (c : Nat) (k : Bank) : (s.setCur c k).mem = s.mem := rfl
@[simp] theorem State.setCur_tagA (c : Nat) (k : Bank) : (s.setCur c k).tagA = s.tagA := rfl
@[simp] theorem State.setCur_tagB (c : Nat) (k : Bank) : (s.setCur c k).tagB = s.tagB := rfl
@[simp] theorem State.setCur_ecc (c : Nat) (k : Bank) : (s.setCur c k).ecc = s.ecc := rfl
@[simp] theorem State.setCur_posts (c : Nat) (k : Bank) : (s.setCur c k).posts = s.posts := rfl
@[simp] theorem State.setCur_bells (c : Nat) (k : Bank) : (s.setCur c k).bells = s.bells := rfl
@[simp] theorem State.setCur_msgs (c : Nat) (k : Bank) : (s.setCur c k).msgs = s.msgs := rfl
@[simp] theorem State.setCur_passed (c : Nat) (k : Bank) : (s.setCur c k).passed = s.passed := rfl
@[simp] theorem State.setCur_pins (c : Nat) (k : Bank) : (s.setCur c k).pins = s.pins := rfl
@[simp] theorem State.setCur_fab (c : Nat) (k : Bank) : (s.setCur c k).fab = s.fab := rfl
@[simp] theorem State.setCur_installed (c : Nat) (k : Bank) : (s.setCur c k).installed = s.installed := rfl
@[simp] theorem State.setCur_presented (c : Nat) (k : Bank) : (s.setCur c k).presented = s.presented := rfl
@[simp] theorem State.setCur_withdrawn (c : Nat) (k : Bank) : (s.setCur c k).withdrawn = s.withdrawn := rfl
@[simp] theorem State.setCur_kinds (c : Nat) (k : Bank) : (s.setCur c k).kinds = s.kinds := rfl
@[simp] theorem State.setCur_frm (c : Nat) (k : Bank) : (s.setCur c k).frm = s.frm := rfl
@[simp] theorem State.setCur_rime (c : Nat) (k : Bank) : (s.setCur c k).rime = s.rime := rfl
@[simp] theorem State.setCur_qm (c : Nat) (k : Bank) : (s.setCur c k).qm = s.qm := rfl
@[simp] theorem State.setCur_rpr (c : Nat) (k : Bank) : (s.setCur c k).rpr = s.rpr := rfl
@[simp] theorem State.setCur_ports (c : Nat) (k : Bank) : (s.setCur c k).ports = s.ports := rfl
@[simp] theorem State.setCur_firn (c : Nat) (k : Bank) : (s.setCur c k).firn = s.firn := rfl
@[simp] theorem State.setCur_stby (c : Nat) (k : Bank) : (s.setCur c k).stby = s.stby := rfl
@[simp] theorem State.setCur_ldv (c : Nat) (k : Bank) : (s.setCur c k).ldv = s.ldv := rfl
@[simp] theorem State.setCur_thaw (c : Nat) (k : Bank) : (s.setCur c k).thaw = s.thaw := rfl
@[simp] theorem State.setCur_dbg (c : Nat) (k : Bank) : (s.setCur c k).dbg = s.dbg := rfl
@[simp] theorem State.setCur_pwr (c : Nat) (k : Bank) : (s.setCur c k).pwr = s.pwr := rfl
@[simp] theorem State.setCur_fresh (c : Nat) (k : Bank) : (s.setCur c k).fresh = s.fresh := rfl
@[simp] theorem State.setCur_slave (c : Nat) (k : Bank) : (s.setCur c k).slave = s.slave := rfl
@[simp] theorem State.setCur_scrubbers (c : Nat) (k : Bank) : (s.setCur c k).scrubbers = s.scrubbers := rfl

/-! ## modCur -/

@[simp] theorem State.modCur_pending (c : Nat) (g : Bank → Bank) : (s.modCur c g).pending = s.pending := rfl
@[simp] theorem State.modCur_ctl (c : Nat) (g : Bank → Bank) : (s.modCur c g).ctl = s.ctl := rfl
@[simp] theorem State.modCur_ctlTagA (c : Nat) (g : Bank → Bank) : (s.modCur c g).ctlTagA = s.ctlTagA := rfl
@[simp] theorem State.modCur_ctlTagB (c : Nat) (g : Bank → Bank) : (s.modCur c g).ctlTagB = s.ctlTagB := rfl
@[simp] theorem State.modCur_mem (c : Nat) (g : Bank → Bank) : (s.modCur c g).mem = s.mem := rfl
@[simp] theorem State.modCur_tagA (c : Nat) (g : Bank → Bank) : (s.modCur c g).tagA = s.tagA := rfl
@[simp] theorem State.modCur_tagB (c : Nat) (g : Bank → Bank) : (s.modCur c g).tagB = s.tagB := rfl
@[simp] theorem State.modCur_ecc (c : Nat) (g : Bank → Bank) : (s.modCur c g).ecc = s.ecc := rfl
@[simp] theorem State.modCur_posts (c : Nat) (g : Bank → Bank) : (s.modCur c g).posts = s.posts := rfl
@[simp] theorem State.modCur_bells (c : Nat) (g : Bank → Bank) : (s.modCur c g).bells = s.bells := rfl
@[simp] theorem State.modCur_msgs (c : Nat) (g : Bank → Bank) : (s.modCur c g).msgs = s.msgs := rfl
@[simp] theorem State.modCur_passed (c : Nat) (g : Bank → Bank) : (s.modCur c g).passed = s.passed := rfl
@[simp] theorem State.modCur_pins (c : Nat) (g : Bank → Bank) : (s.modCur c g).pins = s.pins := rfl
@[simp] theorem State.modCur_fab (c : Nat) (g : Bank → Bank) : (s.modCur c g).fab = s.fab := rfl
@[simp] theorem State.modCur_installed (c : Nat) (g : Bank → Bank) : (s.modCur c g).installed = s.installed := rfl
@[simp] theorem State.modCur_presented (c : Nat) (g : Bank → Bank) : (s.modCur c g).presented = s.presented := rfl
@[simp] theorem State.modCur_withdrawn (c : Nat) (g : Bank → Bank) : (s.modCur c g).withdrawn = s.withdrawn := rfl
@[simp] theorem State.modCur_kinds (c : Nat) (g : Bank → Bank) : (s.modCur c g).kinds = s.kinds := rfl
@[simp] theorem State.modCur_frm (c : Nat) (g : Bank → Bank) : (s.modCur c g).frm = s.frm := rfl
@[simp] theorem State.modCur_rime (c : Nat) (g : Bank → Bank) : (s.modCur c g).rime = s.rime := rfl
@[simp] theorem State.modCur_qm (c : Nat) (g : Bank → Bank) : (s.modCur c g).qm = s.qm := rfl
@[simp] theorem State.modCur_rpr (c : Nat) (g : Bank → Bank) : (s.modCur c g).rpr = s.rpr := rfl
@[simp] theorem State.modCur_ports (c : Nat) (g : Bank → Bank) : (s.modCur c g).ports = s.ports := rfl
@[simp] theorem State.modCur_firn (c : Nat) (g : Bank → Bank) : (s.modCur c g).firn = s.firn := rfl
@[simp] theorem State.modCur_stby (c : Nat) (g : Bank → Bank) : (s.modCur c g).stby = s.stby := rfl
@[simp] theorem State.modCur_ldv (c : Nat) (g : Bank → Bank) : (s.modCur c g).ldv = s.ldv := rfl
@[simp] theorem State.modCur_thaw (c : Nat) (g : Bank → Bank) : (s.modCur c g).thaw = s.thaw := rfl
@[simp] theorem State.modCur_dbg (c : Nat) (g : Bank → Bank) : (s.modCur c g).dbg = s.dbg := rfl
@[simp] theorem State.modCur_pwr (c : Nat) (g : Bank → Bank) : (s.modCur c g).pwr = s.pwr := rfl
@[simp] theorem State.modCur_fresh (c : Nat) (g : Bank → Bank) : (s.modCur c g).fresh = s.fresh := rfl
@[simp] theorem State.modCur_slave (c : Nat) (g : Bank → Bank) : (s.modCur c g).slave = s.slave := rfl
@[simp] theorem State.modCur_scrubbers (c : Nat) (g : Bank → Bank) : (s.modCur c g).scrubbers = s.scrubbers := rfl

/-! ## setWord -/

@[simp] theorem State.setWord_pending (k : Nat) (w : Word) : (s.setWord k w).pending = s.pending := rfl
@[simp] theorem State.setWord_ctl (k : Nat) (w : Word) : (s.setWord k w).ctl = s.ctl := rfl
@[simp] theorem State.setWord_ctlTagA (k : Nat) (w : Word) : (s.setWord k w).ctlTagA = s.ctlTagA := rfl
@[simp] theorem State.setWord_ctlTagB (k : Nat) (w : Word) : (s.setWord k w).ctlTagB = s.ctlTagB := rfl
@[simp] theorem State.setWord_mem (k : Nat) (w : Word) : (s.setWord k w).mem = sput 0 k w s.mem := rfl
@[simp] theorem State.setWord_tagA (k : Nat) (w : Word) : (s.setWord k w).tagA = s.tagA := rfl
@[simp] theorem State.setWord_tagB (k : Nat) (w : Word) : (s.setWord k w).tagB = s.tagB := rfl
@[simp] theorem State.setWord_ecc (k : Nat) (w : Word) : (s.setWord k w).ecc = s.ecc := rfl
@[simp] theorem State.setWord_cells (k : Nat) (w : Word) : (s.setWord k w).cells = s.cells := rfl
@[simp] theorem State.setWord_posts (k : Nat) (w : Word) : (s.setWord k w).posts = s.posts := rfl
@[simp] theorem State.setWord_bells (k : Nat) (w : Word) : (s.setWord k w).bells = s.bells := rfl
@[simp] theorem State.setWord_msgs (k : Nat) (w : Word) : (s.setWord k w).msgs = s.msgs := rfl
@[simp] theorem State.setWord_passed (k : Nat) (w : Word) : (s.setWord k w).passed = s.passed := rfl
@[simp] theorem State.setWord_pins (k : Nat) (w : Word) : (s.setWord k w).pins = s.pins := rfl
@[simp] theorem State.setWord_fab (k : Nat) (w : Word) : (s.setWord k w).fab = s.fab := rfl
@[simp] theorem State.setWord_installed (k : Nat) (w : Word) : (s.setWord k w).installed = s.installed := rfl
@[simp] theorem State.setWord_presented (k : Nat) (w : Word) : (s.setWord k w).presented = s.presented := rfl
@[simp] theorem State.setWord_withdrawn (k : Nat) (w : Word) : (s.setWord k w).withdrawn = s.withdrawn := rfl
@[simp] theorem State.setWord_kinds (k : Nat) (w : Word) : (s.setWord k w).kinds = s.kinds := rfl
@[simp] theorem State.setWord_frm (k : Nat) (w : Word) : (s.setWord k w).frm = s.frm := rfl
@[simp] theorem State.setWord_rime (k : Nat) (w : Word) : (s.setWord k w).rime = s.rime := rfl
@[simp] theorem State.setWord_qm (k : Nat) (w : Word) : (s.setWord k w).qm = s.qm := rfl
@[simp] theorem State.setWord_rpr (k : Nat) (w : Word) : (s.setWord k w).rpr = s.rpr := rfl
@[simp] theorem State.setWord_ports (k : Nat) (w : Word) : (s.setWord k w).ports = s.ports := rfl
@[simp] theorem State.setWord_firn (k : Nat) (w : Word) : (s.setWord k w).firn = s.firn := rfl
@[simp] theorem State.setWord_stby (k : Nat) (w : Word) : (s.setWord k w).stby = s.stby := rfl
@[simp] theorem State.setWord_ldv (k : Nat) (w : Word) : (s.setWord k w).ldv = s.ldv := rfl
@[simp] theorem State.setWord_thaw (k : Nat) (w : Word) : (s.setWord k w).thaw = s.thaw := rfl
@[simp] theorem State.setWord_dbg (k : Nat) (w : Word) : (s.setWord k w).dbg = s.dbg := rfl
@[simp] theorem State.setWord_pwr (k : Nat) (w : Word) : (s.setWord k w).pwr = s.pwr := rfl
@[simp] theorem State.setWord_fresh (k : Nat) (w : Word) : (s.setWord k w).fresh = s.fresh := rfl
@[simp] theorem State.setWord_slave (k : Nat) (w : Word) : (s.setWord k w).slave = s.slave := rfl
@[simp] theorem State.setWord_scrubbers (k : Nat) (w : Word) : (s.setWord k w).scrubbers = s.scrubbers := rfl

/-! ## setTag -/

@[simp] theorem State.setTag_pending (k : Nat) (b : Bool) : (s.setTag k b).pending = s.pending := rfl
@[simp] theorem State.setTag_ctl (k : Nat) (b : Bool) : (s.setTag k b).ctl = s.ctl := rfl
@[simp] theorem State.setTag_ctlTagA (k : Nat) (b : Bool) : (s.setTag k b).ctlTagA = s.ctlTagA := rfl
@[simp] theorem State.setTag_ctlTagB (k : Nat) (b : Bool) : (s.setTag k b).ctlTagB = s.ctlTagB := rfl
@[simp] theorem State.setTag_mem (k : Nat) (b : Bool) : (s.setTag k b).mem = s.mem := rfl
@[simp] theorem State.setTag_tagA (k : Nat) (b : Bool) : (s.setTag k b).tagA = setPut (k - k % 2) b s.tagA := rfl
@[simp] theorem State.setTag_tagB (k : Nat) (b : Bool) : (s.setTag k b).tagB = setPut (k - k % 2) b s.tagB := rfl
@[simp] theorem State.setTag_ecc (k : Nat) (b : Bool) : (s.setTag k b).ecc = s.ecc := rfl
@[simp] theorem State.setTag_cells (k : Nat) (b : Bool) : (s.setTag k b).cells = s.cells := rfl
@[simp] theorem State.setTag_posts (k : Nat) (b : Bool) : (s.setTag k b).posts = s.posts := rfl
@[simp] theorem State.setTag_bells (k : Nat) (b : Bool) : (s.setTag k b).bells = s.bells := rfl
@[simp] theorem State.setTag_msgs (k : Nat) (b : Bool) : (s.setTag k b).msgs = s.msgs := rfl
@[simp] theorem State.setTag_passed (k : Nat) (b : Bool) : (s.setTag k b).passed = s.passed := rfl
@[simp] theorem State.setTag_pins (k : Nat) (b : Bool) : (s.setTag k b).pins = s.pins := rfl
@[simp] theorem State.setTag_fab (k : Nat) (b : Bool) : (s.setTag k b).fab = s.fab := rfl
@[simp] theorem State.setTag_installed (k : Nat) (b : Bool) : (s.setTag k b).installed = s.installed := rfl
@[simp] theorem State.setTag_presented (k : Nat) (b : Bool) : (s.setTag k b).presented = s.presented := rfl
@[simp] theorem State.setTag_withdrawn (k : Nat) (b : Bool) : (s.setTag k b).withdrawn = s.withdrawn := rfl
@[simp] theorem State.setTag_kinds (k : Nat) (b : Bool) : (s.setTag k b).kinds = s.kinds := rfl
@[simp] theorem State.setTag_frm (k : Nat) (b : Bool) : (s.setTag k b).frm = s.frm := rfl
@[simp] theorem State.setTag_rime (k : Nat) (b : Bool) : (s.setTag k b).rime = s.rime := rfl
@[simp] theorem State.setTag_qm (k : Nat) (b : Bool) : (s.setTag k b).qm = s.qm := rfl
@[simp] theorem State.setTag_rpr (k : Nat) (b : Bool) : (s.setTag k b).rpr = s.rpr := rfl
@[simp] theorem State.setTag_ports (k : Nat) (b : Bool) : (s.setTag k b).ports = s.ports := rfl
@[simp] theorem State.setTag_firn (k : Nat) (b : Bool) : (s.setTag k b).firn = s.firn := rfl
@[simp] theorem State.setTag_stby (k : Nat) (b : Bool) : (s.setTag k b).stby = s.stby := rfl
@[simp] theorem State.setTag_ldv (k : Nat) (b : Bool) : (s.setTag k b).ldv = s.ldv := rfl
@[simp] theorem State.setTag_thaw (k : Nat) (b : Bool) : (s.setTag k b).thaw = s.thaw := rfl
@[simp] theorem State.setTag_dbg (k : Nat) (b : Bool) : (s.setTag k b).dbg = s.dbg := rfl
@[simp] theorem State.setTag_pwr (k : Nat) (b : Bool) : (s.setTag k b).pwr = s.pwr := rfl
@[simp] theorem State.setTag_fresh (k : Nat) (b : Bool) : (s.setTag k b).fresh = s.fresh := rfl
@[simp] theorem State.setTag_slave (k : Nat) (b : Bool) : (s.setTag k b).slave = s.slave := rfl
@[simp] theorem State.setTag_scrubbers (k : Nat) (b : Bool) : (s.setTag k b).scrubbers = s.scrubbers := rfl

/-! ## setEcc -/

@[simp] theorem State.setEcc_pending (k : Nat) (b : Bool) : (s.setEcc k b).pending = s.pending := rfl
@[simp] theorem State.setEcc_ctl (k : Nat) (b : Bool) : (s.setEcc k b).ctl = s.ctl := rfl
@[simp] theorem State.setEcc_ctlTagA (k : Nat) (b : Bool) : (s.setEcc k b).ctlTagA = s.ctlTagA := rfl
@[simp] theorem State.setEcc_ctlTagB (k : Nat) (b : Bool) : (s.setEcc k b).ctlTagB = s.ctlTagB := rfl
@[simp] theorem State.setEcc_mem (k : Nat) (b : Bool) : (s.setEcc k b).mem = s.mem := rfl
@[simp] theorem State.setEcc_tagA (k : Nat) (b : Bool) : (s.setEcc k b).tagA = s.tagA := rfl
@[simp] theorem State.setEcc_tagB (k : Nat) (b : Bool) : (s.setEcc k b).tagB = s.tagB := rfl
@[simp] theorem State.setEcc_ecc (k : Nat) (b : Bool) : (s.setEcc k b).ecc = sinsert k b s.ecc := rfl
@[simp] theorem State.setEcc_cells (k : Nat) (b : Bool) : (s.setEcc k b).cells = s.cells := rfl
@[simp] theorem State.setEcc_posts (k : Nat) (b : Bool) : (s.setEcc k b).posts = s.posts := rfl
@[simp] theorem State.setEcc_bells (k : Nat) (b : Bool) : (s.setEcc k b).bells = s.bells := rfl
@[simp] theorem State.setEcc_msgs (k : Nat) (b : Bool) : (s.setEcc k b).msgs = s.msgs := rfl
@[simp] theorem State.setEcc_passed (k : Nat) (b : Bool) : (s.setEcc k b).passed = s.passed := rfl
@[simp] theorem State.setEcc_pins (k : Nat) (b : Bool) : (s.setEcc k b).pins = s.pins := rfl
@[simp] theorem State.setEcc_fab (k : Nat) (b : Bool) : (s.setEcc k b).fab = s.fab := rfl
@[simp] theorem State.setEcc_installed (k : Nat) (b : Bool) : (s.setEcc k b).installed = s.installed := rfl
@[simp] theorem State.setEcc_presented (k : Nat) (b : Bool) : (s.setEcc k b).presented = s.presented := rfl
@[simp] theorem State.setEcc_withdrawn (k : Nat) (b : Bool) : (s.setEcc k b).withdrawn = s.withdrawn := rfl
@[simp] theorem State.setEcc_kinds (k : Nat) (b : Bool) : (s.setEcc k b).kinds = s.kinds := rfl
@[simp] theorem State.setEcc_frm (k : Nat) (b : Bool) : (s.setEcc k b).frm = s.frm := rfl
@[simp] theorem State.setEcc_rime (k : Nat) (b : Bool) : (s.setEcc k b).rime = s.rime := rfl
@[simp] theorem State.setEcc_qm (k : Nat) (b : Bool) : (s.setEcc k b).qm = s.qm := rfl
@[simp] theorem State.setEcc_rpr (k : Nat) (b : Bool) : (s.setEcc k b).rpr = s.rpr := rfl
@[simp] theorem State.setEcc_ports (k : Nat) (b : Bool) : (s.setEcc k b).ports = s.ports := rfl
@[simp] theorem State.setEcc_firn (k : Nat) (b : Bool) : (s.setEcc k b).firn = s.firn := rfl
@[simp] theorem State.setEcc_stby (k : Nat) (b : Bool) : (s.setEcc k b).stby = s.stby := rfl
@[simp] theorem State.setEcc_ldv (k : Nat) (b : Bool) : (s.setEcc k b).ldv = s.ldv := rfl
@[simp] theorem State.setEcc_thaw (k : Nat) (b : Bool) : (s.setEcc k b).thaw = s.thaw := rfl
@[simp] theorem State.setEcc_dbg (k : Nat) (b : Bool) : (s.setEcc k b).dbg = s.dbg := rfl
@[simp] theorem State.setEcc_pwr (k : Nat) (b : Bool) : (s.setEcc k b).pwr = s.pwr := rfl
@[simp] theorem State.setEcc_fresh (k : Nat) (b : Bool) : (s.setEcc k b).fresh = s.fresh := rfl
@[simp] theorem State.setEcc_slave (k : Nat) (b : Bool) : (s.setEcc k b).slave = s.slave := rfl
@[simp] theorem State.setEcc_scrubbers (k : Nat) (b : Bool) : (s.setEcc k b).scrubbers = s.scrubbers := rfl

/-! ## clearEcc -/

@[simp] theorem State.clearEcc_pending (k : Nat) : (s.clearEcc k).pending = s.pending := rfl
@[simp] theorem State.clearEcc_ctl (k : Nat) : (s.clearEcc k).ctl = s.ctl := rfl
@[simp] theorem State.clearEcc_ctlTagA (k : Nat) : (s.clearEcc k).ctlTagA = s.ctlTagA := rfl
@[simp] theorem State.clearEcc_ctlTagB (k : Nat) : (s.clearEcc k).ctlTagB = s.ctlTagB := rfl
@[simp] theorem State.clearEcc_mem (k : Nat) : (s.clearEcc k).mem = s.mem := rfl
@[simp] theorem State.clearEcc_tagA (k : Nat) : (s.clearEcc k).tagA = s.tagA := rfl
@[simp] theorem State.clearEcc_tagB (k : Nat) : (s.clearEcc k).tagB = s.tagB := rfl
@[simp] theorem State.clearEcc_ecc (k : Nat) : (s.clearEcc k).ecc = serase k s.ecc := rfl
@[simp] theorem State.clearEcc_cells (k : Nat) : (s.clearEcc k).cells = s.cells := rfl
@[simp] theorem State.clearEcc_posts (k : Nat) : (s.clearEcc k).posts = s.posts := rfl
@[simp] theorem State.clearEcc_bells (k : Nat) : (s.clearEcc k).bells = s.bells := rfl
@[simp] theorem State.clearEcc_msgs (k : Nat) : (s.clearEcc k).msgs = s.msgs := rfl
@[simp] theorem State.clearEcc_passed (k : Nat) : (s.clearEcc k).passed = s.passed := rfl
@[simp] theorem State.clearEcc_pins (k : Nat) : (s.clearEcc k).pins = s.pins := rfl
@[simp] theorem State.clearEcc_fab (k : Nat) : (s.clearEcc k).fab = s.fab := rfl
@[simp] theorem State.clearEcc_installed (k : Nat) : (s.clearEcc k).installed = s.installed := rfl
@[simp] theorem State.clearEcc_presented (k : Nat) : (s.clearEcc k).presented = s.presented := rfl
@[simp] theorem State.clearEcc_withdrawn (k : Nat) : (s.clearEcc k).withdrawn = s.withdrawn := rfl
@[simp] theorem State.clearEcc_kinds (k : Nat) : (s.clearEcc k).kinds = s.kinds := rfl
@[simp] theorem State.clearEcc_frm (k : Nat) : (s.clearEcc k).frm = s.frm := rfl
@[simp] theorem State.clearEcc_rime (k : Nat) : (s.clearEcc k).rime = s.rime := rfl
@[simp] theorem State.clearEcc_qm (k : Nat) : (s.clearEcc k).qm = s.qm := rfl
@[simp] theorem State.clearEcc_rpr (k : Nat) : (s.clearEcc k).rpr = s.rpr := rfl
@[simp] theorem State.clearEcc_ports (k : Nat) : (s.clearEcc k).ports = s.ports := rfl
@[simp] theorem State.clearEcc_firn (k : Nat) : (s.clearEcc k).firn = s.firn := rfl
@[simp] theorem State.clearEcc_stby (k : Nat) : (s.clearEcc k).stby = s.stby := rfl
@[simp] theorem State.clearEcc_ldv (k : Nat) : (s.clearEcc k).ldv = s.ldv := rfl
@[simp] theorem State.clearEcc_thaw (k : Nat) : (s.clearEcc k).thaw = s.thaw := rfl
@[simp] theorem State.clearEcc_dbg (k : Nat) : (s.clearEcc k).dbg = s.dbg := rfl
@[simp] theorem State.clearEcc_pwr (k : Nat) : (s.clearEcc k).pwr = s.pwr := rfl
@[simp] theorem State.clearEcc_fresh (k : Nat) : (s.clearEcc k).fresh = s.fresh := rfl
@[simp] theorem State.clearEcc_slave (k : Nat) : (s.clearEcc k).slave = s.slave := rfl
@[simp] theorem State.clearEcc_scrubbers (k : Nat) : (s.clearEcc k).scrubbers = s.scrubbers := rfl

/-! ## setPort -/

@[simp] theorem State.setPort_pending (n : Nat) (x : Port) : (s.setPort n x).pending = s.pending := rfl
@[simp] theorem State.setPort_ctl (n : Nat) (x : Port) : (s.setPort n x).ctl = s.ctl := rfl
@[simp] theorem State.setPort_ctlTagA (n : Nat) (x : Port) : (s.setPort n x).ctlTagA = s.ctlTagA := rfl
@[simp] theorem State.setPort_ctlTagB (n : Nat) (x : Port) : (s.setPort n x).ctlTagB = s.ctlTagB := rfl
@[simp] theorem State.setPort_mem (n : Nat) (x : Port) : (s.setPort n x).mem = s.mem := rfl
@[simp] theorem State.setPort_tagA (n : Nat) (x : Port) : (s.setPort n x).tagA = s.tagA := rfl
@[simp] theorem State.setPort_tagB (n : Nat) (x : Port) : (s.setPort n x).tagB = s.tagB := rfl
@[simp] theorem State.setPort_ecc (n : Nat) (x : Port) : (s.setPort n x).ecc = s.ecc := rfl
@[simp] theorem State.setPort_cells (n : Nat) (x : Port) : (s.setPort n x).cells = s.cells := rfl
@[simp] theorem State.setPort_posts (n : Nat) (x : Port) : (s.setPort n x).posts = s.posts := rfl
@[simp] theorem State.setPort_bells (n : Nat) (x : Port) : (s.setPort n x).bells = s.bells := rfl
@[simp] theorem State.setPort_msgs (n : Nat) (x : Port) : (s.setPort n x).msgs = s.msgs := rfl
@[simp] theorem State.setPort_passed (n : Nat) (x : Port) : (s.setPort n x).passed = s.passed := rfl
@[simp] theorem State.setPort_pins (n : Nat) (x : Port) : (s.setPort n x).pins = s.pins := rfl
@[simp] theorem State.setPort_fab (n : Nat) (x : Port) : (s.setPort n x).fab = s.fab := rfl
@[simp] theorem State.setPort_installed (n : Nat) (x : Port) : (s.setPort n x).installed = s.installed := rfl
@[simp] theorem State.setPort_presented (n : Nat) (x : Port) : (s.setPort n x).presented = s.presented := rfl
@[simp] theorem State.setPort_withdrawn (n : Nat) (x : Port) : (s.setPort n x).withdrawn = s.withdrawn := rfl
@[simp] theorem State.setPort_kinds (n : Nat) (x : Port) : (s.setPort n x).kinds = s.kinds := rfl
@[simp] theorem State.setPort_frm (n : Nat) (x : Port) : (s.setPort n x).frm = s.frm := rfl
@[simp] theorem State.setPort_rime (n : Nat) (x : Port) : (s.setPort n x).rime = s.rime := rfl
@[simp] theorem State.setPort_qm (n : Nat) (x : Port) : (s.setPort n x).qm = s.qm := rfl
@[simp] theorem State.setPort_rpr (n : Nat) (x : Port) : (s.setPort n x).rpr = s.rpr := rfl
@[simp] theorem State.setPort_ports (n : Nat) (x : Port) : (s.setPort n x).ports = sput Port.reset n x s.ports := rfl
@[simp] theorem State.setPort_firn (n : Nat) (x : Port) : (s.setPort n x).firn = s.firn := rfl
@[simp] theorem State.setPort_stby (n : Nat) (x : Port) : (s.setPort n x).stby = s.stby := rfl
@[simp] theorem State.setPort_ldv (n : Nat) (x : Port) : (s.setPort n x).ldv = s.ldv := rfl
@[simp] theorem State.setPort_thaw (n : Nat) (x : Port) : (s.setPort n x).thaw = s.thaw := rfl
@[simp] theorem State.setPort_dbg (n : Nat) (x : Port) : (s.setPort n x).dbg = s.dbg := rfl
@[simp] theorem State.setPort_pwr (n : Nat) (x : Port) : (s.setPort n x).pwr = s.pwr := rfl
@[simp] theorem State.setPort_fresh (n : Nat) (x : Port) : (s.setPort n x).fresh = s.fresh := rfl
@[simp] theorem State.setPort_slave (n : Nat) (x : Port) : (s.setPort n x).slave = s.slave := rfl
@[simp] theorem State.setPort_scrubbers (n : Nat) (x : Port) : (s.setPort n x).scrubbers = s.scrubbers := rfl

/-! ## modPort -/

@[simp] theorem State.modPort_pending (n : Nat) (g : Port → Port) : (s.modPort n g).pending = s.pending := rfl
@[simp] theorem State.modPort_ctl (n : Nat) (g : Port → Port) : (s.modPort n g).ctl = s.ctl := rfl
@[simp] theorem State.modPort_ctlTagA (n : Nat) (g : Port → Port) : (s.modPort n g).ctlTagA = s.ctlTagA := rfl
@[simp] theorem State.modPort_ctlTagB (n : Nat) (g : Port → Port) : (s.modPort n g).ctlTagB = s.ctlTagB := rfl
@[simp] theorem State.modPort_mem (n : Nat) (g : Port → Port) : (s.modPort n g).mem = s.mem := rfl
@[simp] theorem State.modPort_tagA (n : Nat) (g : Port → Port) : (s.modPort n g).tagA = s.tagA := rfl
@[simp] theorem State.modPort_tagB (n : Nat) (g : Port → Port) : (s.modPort n g).tagB = s.tagB := rfl
@[simp] theorem State.modPort_ecc (n : Nat) (g : Port → Port) : (s.modPort n g).ecc = s.ecc := rfl
@[simp] theorem State.modPort_cells (n : Nat) (g : Port → Port) : (s.modPort n g).cells = s.cells := rfl
@[simp] theorem State.modPort_posts (n : Nat) (g : Port → Port) : (s.modPort n g).posts = s.posts := rfl
@[simp] theorem State.modPort_bells (n : Nat) (g : Port → Port) : (s.modPort n g).bells = s.bells := rfl
@[simp] theorem State.modPort_msgs (n : Nat) (g : Port → Port) : (s.modPort n g).msgs = s.msgs := rfl
@[simp] theorem State.modPort_passed (n : Nat) (g : Port → Port) : (s.modPort n g).passed = s.passed := rfl
@[simp] theorem State.modPort_pins (n : Nat) (g : Port → Port) : (s.modPort n g).pins = s.pins := rfl
@[simp] theorem State.modPort_fab (n : Nat) (g : Port → Port) : (s.modPort n g).fab = s.fab := rfl
@[simp] theorem State.modPort_installed (n : Nat) (g : Port → Port) : (s.modPort n g).installed = s.installed := rfl
@[simp] theorem State.modPort_presented (n : Nat) (g : Port → Port) : (s.modPort n g).presented = s.presented := rfl
@[simp] theorem State.modPort_withdrawn (n : Nat) (g : Port → Port) : (s.modPort n g).withdrawn = s.withdrawn := rfl
@[simp] theorem State.modPort_kinds (n : Nat) (g : Port → Port) : (s.modPort n g).kinds = s.kinds := rfl
@[simp] theorem State.modPort_frm (n : Nat) (g : Port → Port) : (s.modPort n g).frm = s.frm := rfl
@[simp] theorem State.modPort_rime (n : Nat) (g : Port → Port) : (s.modPort n g).rime = s.rime := rfl
@[simp] theorem State.modPort_qm (n : Nat) (g : Port → Port) : (s.modPort n g).qm = s.qm := rfl
@[simp] theorem State.modPort_rpr (n : Nat) (g : Port → Port) : (s.modPort n g).rpr = s.rpr := rfl
@[simp] theorem State.modPort_firn (n : Nat) (g : Port → Port) : (s.modPort n g).firn = s.firn := rfl
@[simp] theorem State.modPort_stby (n : Nat) (g : Port → Port) : (s.modPort n g).stby = s.stby := rfl
@[simp] theorem State.modPort_ldv (n : Nat) (g : Port → Port) : (s.modPort n g).ldv = s.ldv := rfl
@[simp] theorem State.modPort_thaw (n : Nat) (g : Port → Port) : (s.modPort n g).thaw = s.thaw := rfl
@[simp] theorem State.modPort_dbg (n : Nat) (g : Port → Port) : (s.modPort n g).dbg = s.dbg := rfl
@[simp] theorem State.modPort_pwr (n : Nat) (g : Port → Port) : (s.modPort n g).pwr = s.pwr := rfl
@[simp] theorem State.modPort_fresh (n : Nat) (g : Port → Port) : (s.modPort n g).fresh = s.fresh := rfl
@[simp] theorem State.modPort_slave (n : Nat) (g : Port → Port) : (s.modPort n g).slave = s.slave := rfl
@[simp] theorem State.modPort_scrubbers (n : Nat) (g : Port → Port) : (s.modPort n g).scrubbers = s.scrubbers := rfl

/-! ## tickFresh -/

@[simp] theorem State.tickFresh_pending : (s.tickFresh).pending = s.pending := rfl
@[simp] theorem State.tickFresh_ctl : (s.tickFresh).ctl = s.ctl := rfl
@[simp] theorem State.tickFresh_ctlTagA : (s.tickFresh).ctlTagA = s.ctlTagA := rfl
@[simp] theorem State.tickFresh_ctlTagB : (s.tickFresh).ctlTagB = s.ctlTagB := rfl
@[simp] theorem State.tickFresh_mem : (s.tickFresh).mem = s.mem := rfl
@[simp] theorem State.tickFresh_tagA : (s.tickFresh).tagA = s.tagA := rfl
@[simp] theorem State.tickFresh_tagB : (s.tickFresh).tagB = s.tagB := rfl
@[simp] theorem State.tickFresh_ecc : (s.tickFresh).ecc = s.ecc := rfl
@[simp] theorem State.tickFresh_cells : (s.tickFresh).cells = s.cells := rfl
@[simp] theorem State.tickFresh_posts : (s.tickFresh).posts = s.posts := rfl
@[simp] theorem State.tickFresh_bells : (s.tickFresh).bells = s.bells := rfl
@[simp] theorem State.tickFresh_msgs : (s.tickFresh).msgs = s.msgs := rfl
@[simp] theorem State.tickFresh_passed : (s.tickFresh).passed = s.passed := rfl
@[simp] theorem State.tickFresh_pins : (s.tickFresh).pins = s.pins := rfl
@[simp] theorem State.tickFresh_fab : (s.tickFresh).fab = s.fab := rfl
@[simp] theorem State.tickFresh_installed : (s.tickFresh).installed = s.installed := rfl
@[simp] theorem State.tickFresh_presented : (s.tickFresh).presented = s.presented := rfl
@[simp] theorem State.tickFresh_withdrawn : (s.tickFresh).withdrawn = s.withdrawn := rfl
@[simp] theorem State.tickFresh_kinds : (s.tickFresh).kinds = s.kinds := rfl
@[simp] theorem State.tickFresh_frm : (s.tickFresh).frm = s.frm := rfl
@[simp] theorem State.tickFresh_rime : (s.tickFresh).rime = s.rime := rfl
@[simp] theorem State.tickFresh_qm : (s.tickFresh).qm = s.qm := rfl
@[simp] theorem State.tickFresh_rpr : (s.tickFresh).rpr = s.rpr := rfl
@[simp] theorem State.tickFresh_ports : (s.tickFresh).ports = s.ports := rfl
@[simp] theorem State.tickFresh_firn : (s.tickFresh).firn = s.firn := rfl
@[simp] theorem State.tickFresh_stby : (s.tickFresh).stby = s.stby := rfl
@[simp] theorem State.tickFresh_ldv : (s.tickFresh).ldv = s.ldv := rfl
@[simp] theorem State.tickFresh_thaw : (s.tickFresh).thaw = s.thaw := rfl
@[simp] theorem State.tickFresh_dbg : (s.tickFresh).dbg = s.dbg := rfl
@[simp] theorem State.tickFresh_pwr : (s.tickFresh).pwr = s.pwr := rfl
@[simp] theorem State.tickFresh_fresh : (s.tickFresh).fresh = s.fresh + 1 := rfl
@[simp] theorem State.tickFresh_slave : (s.tickFresh).slave = s.slave := rfl
@[simp] theorem State.tickFresh_scrubbers : (s.tickFresh).scrubbers = s.scrubbers := rfl

/-! ## A reader after a writer -/

@[simp] theorem State.reg_setReg_same (o : Nat) (w : Word) : (s.setReg o w).reg o = w := sget_sput_same _ _ _ _

theorem State.reg_setReg_other {o j : Nat} (h : j ≠ o) (w : Word) : (s.setReg o w).reg j = s.reg j := sget_sput_other h _ _ _ _

@[simp] theorem State.cell_setCell_same (c : Nat) (x : Cell) : (s.setCell c x).cell c = x := sget_sput_same _ _ _ _

theorem State.cell_setCell_other {c d : Nat} (h : d ≠ c) (x : Cell) : (s.setCell c x).cell d = s.cell d := sget_sput_other h _ _ _ _

@[simp] theorem Cell.bank_setBank_same (x : Cell) (b : Nat) (k : Bank) : (x.setBank b k).bank b = k := sget_sput_same _ _ _ _

theorem Cell.bank_setBank_other {b d : Nat} (h : d ≠ b) (x : Cell) (k : Bank) : (x.setBank b k).bank d = x.bank d :=
  sget_sput_other h _ _ _ _

@[simp] theorem State.bank_setBank_same (c b : Nat) (k : Bank) : (s.setBank c b k).bank c b = k := by
  simp [State.bank, State.setBank]

@[simp] theorem State.word_setWord_same (k : Nat) (w : Word) : (s.setWord k w).word k = w := sget_sput_same _ _ _ _

theorem State.word_setWord_other {k j : Nat} (h : j ≠ k) (w : Word) : (s.setWord k w).word j = s.word j := sget_sput_other h _ _ _ _

@[simp] theorem State.port_setPort_same (n : Nat) (x : Port) : (s.setPort n x).port n = x := sget_sput_same _ _ _ _

theorem State.port_setPort_other {n m : Nat} (h : m ≠ n) (x : Port) : (s.setPort n x).port m = s.port m := sget_sput_other h _ _ _ _

/-- A register keeps its value when a cell, a bank or a memory word is written. -/
@[simp] theorem State.reg_setCell (c o : Nat) (x : Cell) : (s.setCell c x).reg o = s.reg o := rfl
@[simp] theorem State.reg_setBank (c b o : Nat) (k : Bank) : (s.setBank c b k).reg o = s.reg o := rfl
@[simp] theorem State.reg_setWord (k o : Nat) (w : Word) : (s.setWord k w).reg o = s.reg o := rfl
@[simp] theorem State.cell_setReg (c o : Nat) (w : Word) : (s.setReg o w).cell c = s.cell c := rfl
@[simp] theorem State.cell_setWord (c k : Nat) (w : Word) : (s.setWord k w).cell c = s.cell c := rfl
@[simp] theorem State.word_setReg (k o : Nat) (w : Word) : (s.setReg o w).word k = s.word k := rfl
@[simp] theorem State.word_setCell (k c : Nat) (x : Cell) : (s.setCell c x).word k = s.word k := rfl
@[simp] theorem State.running_setBank (c d b : Nat) (k : Bank) : (s.setBank c b k).running d = s.running d := rfl

@[simp] theorem State.cur_setCur (c : Nat) (k : Bank) : (s.setCur c k).cur c = k := by
  simp [State.cur, State.setCur]

end Sys2Proof.Machine
end

