-- ==== Sys2Proof/Tests/Slice0.lean ====
section
/-! SUPPORT. Slice0.lean: the model's own tests. The expected values come from the worked examples and the tables of the spec, or are
worked out by hand from its rules. -/

namespace Sys2Proof.Tests

open Sys2Proof Sys2Proof.Machine

set_option maxRecDepth 20000
set_option Elab.async false

/-! ## Small states -/

def plain : Enc := { guard := .always, rept := .once, wide := false, sat := false, ext := [] }
def wide : Enc := { plain with wide := true }
def repeated : Enc := { plain with rept := .rep }

/-- A capability over `len` words from `base`, with the permissions `perm` (R 1, W 2, X 4, M 8). -/
def grant (perm base len : Nat) : Cap := ⟨BitVec.ofNat 36 (perm * 2 ^ 32 + base), BitVec.ofNat 36 len, true⟩

/-- A bank whose data stack holds `ws`, the last one on top, and whose pointers are `a`. -/
def bankOf (ws : List Word) (a : Vector VAddr 4) : Bank :=
  { Bank.reset with pc := 0x4000, dsp := 0x3100, rsp := 0x3000, a := a,
                    c := #v[grant 3 0 0x4000, grant 11 0 0x20000, grant 5 0x1000 0x1000, grant 3 0x3000 0x100] }.pushAll ws

/-- The block in operation in mode `mode` of cluster 0: cell 0 runs bank L0 of an active level 0. -/
def live (mode : Nat) (ws : List Word) : State :=
  let s := (State.reset.put Reg.THAW_STATUS_PHASE 6).put (Reg.CLU_RUNSTAT_STATE 0) 0
  let s := (s.put (Reg.CELL_LCFG_EN 0 0) 1).setTask 0 0 0 1
  let s := ((s.put (Reg.CLU_RUNCTL_MODE 0) mode).put (Reg.CELL_STATE_BANK 0) 0).put (Reg.CELL_LSTAT_STATE 0 0) 2
  let s := { s with thaw := { s.thaw with started := true }, dbg := { s.dbg with powered := true } }
  (s.modCell 0 (fun x => { x with cold := 0 })).setBank 0 0 (bankOf ws #v[0x100, 0x10100, 0x102, 0x4000])

/-- The same with some words of the cell's store at 0x100 and of the cluster's memory at 0x2000100, which the cell sees at 0x10100,
and one tagged doubleword. -/
def memory (mode : Nat) (ws : List Word) : State :=
  let s := (live mode ws).modCell 0 (fun x => { x with sets := [(0, 0)] })
  let own := storeKey 0 (s.slotOf 0) 0x100
  let s := (List.range 12).foldl (fun s i => (s.setWord (own + i) (BitVec.ofNat 36 (0x11 + i))).setWord (0x2000100 + i) (BitVec.ofNat 36 (0x21 + i))) s
  { s with installed := [(0, { vbase := 0x400, size := 0x40, pbase := 0x2000000, ret := false, dev := false, cache := 0 })] }.setTag (own + 2) true

/-- What a command answers, seen through `f`. -/
def seen {α : Type} (o : Host.Outcome State Fault Refusal) (f : State → α) : Option α :=
  match o with
  | .next t => some (f t)
  | _ => none

/-- The data stack of cell 0 after a command, its top first. -/
def stack (o : Host.Outcome State Fault Refusal) : Option (List Nat) :=
  seen o (fun t => (t.top 0 ((t.cur 0).dsp.toNat |> (0x3100 - ·))).map BitVec.toNat)

/-- The fault that cell 0 has recorded: its code and INFO. -/
def faultOf (o : Host.Outcome State Fault Refusal) : Option (Nat × Nat) :=
  seen o (fun t => (t.get (Reg.CELL_FCAUSE_CODE 0), t.get (Reg.CELL_FCAUSE_INFO 0)))

/-! ## Checks that decide the premises -/

def readyB (s : State) (c : Nat) (x : Enc) (f : Form) : Bool :=
  s.canIssue c && !s.breaks c && (match s.fetch c (fetchLen x f.op) with
    | .ok _ t => decide (t = s)
    | _ => false) && s.asListed c && decide (f.fault1 x = none) &&
  decide (findMark ((s.cur c).dmark ++ (s.cur c).rmark) missSlot = none) && guardPasses x.guard (s.cur c) &&
  decide (x.rept = .once ∨ (x.rept = .rep ∧ (s.cur c).rc ≠ 0)) && decide ((s.cell c).micro = none)

theorem ready_of {s : State} {c : Nat} {x : Enc} {f : Form} (h : readyB s c x f = true) : s.Ready c x f := by
  simp only [readyB, Bool.and_eq_true, decide_eq_true_eq, Bool.not_eq_true'] at h
  obtain ⟨⟨⟨⟨⟨⟨⟨⟨a, b⟩, g⟩, d⟩, e⟩, i⟩, j⟩, k⟩, l⟩ := h
  refine ⟨a, b, ?_, d, e, i, j, k, l⟩
  split at g
  · simp only [decide_eq_true_eq] at g; subst g; assumption
  · cases g

def fitsB (s : State) (c : Nat) (f : Form) : Bool :=
  decide (f.pops = 0 ∧ f.pushes = 0 ∧ f.rpops = 0 ∧ f.rpushes = 0 ∨
    ((s.cur c).c[3]).usable = true ∧ ((s.cur c).c[3]).r = true ∧ ((s.cur c).c[3]).w = true) &&
  decide (f.pops ≤ (s.cur c).depth) && decide (f.rpops ≤ (s.cur c).rdepth) &&
  decide (((s.cur c).rsp.toNat : Int) - f.rpops + f.rpushes ≤ (s.cur c).dsp.toNat + f.pops - f.pushes) &&
  decide (f.pops ≤ (s.cur c).dw) && decide (f.rpops ≤ (s.cur c).rw) && decide ((s.cur c).dw ≤ 16 + f.pops - f.pushes) &&
  decide ((s.cur c).rw ≤ 8 + f.rpops - f.rpushes) &&
  decide ((s.cur c).shadow = [] ∧ (s.cur c).dmark = [] ∧ (s.cur c).rmark = [] ∧ (s.cur c).pend = [])

theorem fits_of {s : State} {c : Nat} {f : Form} (h : fitsB s c f = true) : s.Fits c f := by
  simp only [fitsB, Bool.and_eq_true, decide_eq_true_eq] at h
  obtain ⟨⟨⟨⟨⟨⟨⟨⟨a, b⟩, g⟩, d⟩, e⟩, i⟩, j⟩, k⟩, l⟩ := h
  exact ⟨a, b, g, d, e, i, j, k, l⟩

theorem both_of {s : State} {c : Nat} {x : Enc} {f : Form} (h : (readyB s c x f && fitsB s c f) = true) :
    s.Ready c x f ∧ s.Fits c f := by
  simp only [Bool.and_eq_true] at h
  exact ⟨ready_of h.1, fits_of h.2⟩

theorem quiet_of {s : State} {c : Nat} (h : ((s.cell c).sb = [] ∧ (s.cell c).sent = [] ∧ (s.cell c).seen = [] ∧ (s.cell c).xlat = []) ∧
    s.get (Reg.CELL_DBSEL_BANKS c) = 0) : s.Quiet c := ⟨h.1.1, h.1.2.1, h.1.2.2.1, h.1.2.2.2, h.2⟩

def nearB (s : State) (c va : Nat) (p : Phys) (key : Nat) : Bool :=
  decide (s.translate c (s.cur c).dom.toNat va = some p) && !p.dev && (decide (va < 0x4000) || s.setHeld c) &&
  (decide (s.area p.pa = .store key) && decide (s.reach c p.pa = .own) ||
    decide (s.area p.pa = .cluster key) && decide (s.reach c p.pa = .cluster) && !s.throughput c) &&
  decide (s.liveSlot c p.pa 0 = none) && decide (s.eccAt (s.key p.pa) = none) && !s.busBusy p.pa

theorem near_of {s : State} {c va : Nat} {p : Phys} (key : Nat) (h : nearB s c va p key = true) : s.Near c va p := by
  simp only [nearB, Bool.and_eq_true, Bool.or_eq_true, decide_eq_true_eq, Bool.not_eq_true'] at h
  obtain ⟨⟨⟨⟨⟨⟨a, b⟩, g⟩, d⟩, e⟩, i⟩, j⟩ := h
  refine ⟨a, b, g, ?_, e, i, j⟩
  rcases d with d | d
  · exact .inl ⟨⟨key, d.1⟩, d.2⟩
  · exact .inr ⟨⟨key, d.1.1⟩, d.1.2, d.2⟩

/-! ## Well-formed and ill-formed commands: one ill-formed term for each check of `Instr.wf` -/

def frame : CanFrame := { ide := false, fdf := false, brs := false, rtr := false, esi := false, dlc := 2, id := 0x7FF, stamp := 0, data := [1, 2] }
def image : FlashImage := { params := none, repair2 := [], repair3 := [], hot := [], blocks := [] }
def block (n : Nat) : FlashBlock := { number := n, header := [], erases := 0, used := 0, blank := true, recs := [] }

theorem test_wf_slot : Instr.wf (.test 0 16) = true ∧ Instr.wf (.test 0 17) = false ∧ Instr.wf (.cellCheckError 0 17) = false ∧
    Instr.wf (.testEnd 0 31 true) = false ∧ Instr.wf (.restore 0 17) = false := by decide
theorem test_wf_scrub : Instr.wf (.scrub (.storeTags 0 3) .tagsDiffer false) = true ∧ Instr.wf (.scrub (.store 0 17) .clean false) = false ∧
    Instr.wf (.scrub .image .tagsDiffer false) = false ∧ Instr.wf (.scrubberStarved (.icache 0 20)) = false := by decide
theorem test_wf_fault : Instr.wf (.faultEntry 0 (.sync 10 0 0)) = true ∧ Instr.wf (.faultEntry 0 (.sync 8 0 0)) = false ∧
    Instr.wf (.faultEntry 0 (.sync 0 0 0)) = false ∧ Instr.wf (.faultEntry 0 (.sync 11 0 0)) = false := by decide
theorem test_wf_keep : Instr.wf (.keepIllegalOp 10 0) = true ∧ Instr.wf (.keepIllegalOp 9 0) = false := by decide
theorem test_wf_repair : Instr.wf (.rprIllegalOp 4 0) = true ∧ Instr.wf (.rprIllegalOp 3 0) = false := by decide
theorem test_wf_debug : Instr.wf (.dbgIllegalOp 9 [] 0) = true ∧ Instr.wf (.dbgIllegalOp 8 (List.replicate 8 true) 0) = false := by decide
theorem test_wf_frame_id : Instr.wf (.frameReception 0 frame 0) = true ∧ Instr.wf (.frameReception 0 { frame with id := 0x800 } 0) = false ∧
    Instr.wf (.frameReception 0 { frame with id := 0x800, ide := true } 0) = true := by decide
theorem test_wf_frame_bits : Instr.wf (.frameReception 0 { frame with brs := true } 0) = false ∧
    Instr.wf (.frameReception 0 { frame with fdf := true, rtr := true, data := [] } 0) = false := by decide
theorem test_wf_frame_data : Instr.wf (.frameReception 0 { frame with data := [1] } 0) = false ∧
    Instr.wf (.frameReception 0 { frame with rtr := true } 0) = false ∧
    Instr.wf (.frameReception 0 { frame with fdf := true, dlc := 9, data := List.replicate 12 0 } 0) = true := by decide
theorem test_wf_error_frame : Instr.wf (.errorFrame 0 6 8 0) = true ∧ Instr.wf (.errorFrame 0 7 8 0) = false ∧
    Instr.wf (.errorFrame 0 0 8 0) = false ∧ Instr.wf (.errorFrame 0 1 2 0) = false ∧ Instr.wf (.errorFrame 0 1 8 3) = false := by decide
theorem test_wf_response : Instr.wf (.fabricResponse 0 0 0 (List.replicate 16 0)) = true ∧
    Instr.wf (.fabricResponse 0 0 0 (List.replicate 17 0)) = false := by decide
theorem test_wf_slave : Instr.wf (.slaveMemoryAccess 0 0 false [(0, 0)]) = true ∧ Instr.wf (.slaveMemoryAccess 0 0 false []) = false ∧
    Instr.wf (.slaveMemoryAccess 0 0 false (List.replicate 9 (0, 0))) = false := by decide
theorem test_wf_register : Instr.wf (.registerWrite .debug 0 0 15 [(.slave, 0)]) = true ∧
    Instr.wf (.registerWrite .debug 0 0 15 [(.debug, 0)]) = false ∧ Instr.wf (.registerWrite .debug 0 0 1 [(.slave, 0)]) = false := by decide
theorem test_wf_input : Instr.wf (.inputRecord 0x1FFFF [0] false) = true ∧ Instr.wf (.inputRecord 0x1FFFF [0, 0] false) = false := by decide
theorem test_wf_image : Instr.wf (.phase1End { image with blocks := [block 5] } [] []) = true ∧
    Instr.wf (.phase1End { image with blocks := [block 5, block 5] } [] []) = false ∧
    Instr.wf (.phase1End { image with hot := [{ slot := 50, words := [] }] } [] []) = false := by decide
theorem test_wf_macro : Instr.wf (.phase1End image [⟨14, 0⟩] []) = false ∧ Instr.wf (.phase1End image [] [(⟨0, 272⟩, 0, 0)]) = false ∧
    Instr.wf (.phase2End [⟨0, 272⟩] [] false) = false ∧ Instr.wf (.phase2End [] [(⟨14, 0⟩, 0, 0)] false) = false := by decide
theorem test_wf_phase3 : Instr.wf (.phase3End [(0, 16)] [] []) = true ∧ Instr.wf (.phase3End [(0, 17)] [] []) = false := by decide
theorem test_wf_phase5 : Instr.wf (.phase5End [(0, 16, 0)]) = true ∧ Instr.wf (.phase5End [(0, 17, 0)]) = false := by decide

/-! ## Decoding, the queue, reset -/

/-- The table gives no row bits, so no word spells a command, and the queue stays as it is. -/
theorem test_decode_none : decodeTableWord 36 0 = none ∧ decodeTableWord 0 0 = none := by decide
theorem test_fetch_word : (State.reset.withFetchWord 36 5).pending = [] := by decide
theorem test_step_idle : seen (step State.reset) State.pending = some [] := by decide +kernel
theorem test_step_front : seen (step { live 1 [1, 2] with pending := [.add 0 plain, .nop 0 plain] }) State.pending = some [.nop 0 plain] := by
  decide +kernel
theorem test_reset_inv : State.reset.Inv := by
  refine ⟨rfl, by decide, by decide, by decide, by decide, by decide, by decide, by decide, fun _ => ?_, by decide, by decide⟩
  simp [State.reset]

/-! ## Instructions of a cell: the premises of the statements, and single results -/

def two : State := live 1 [5, 7]
def three : State := live 1 [4, 5, 7]
def four : State := live 1 [3, 4, 5, 7]

-- StackOperations: plain words, WIDE, PICK of the deepest item it may name
theorem test_ready_stack : (three.Ready 0 plain (wordForm 3 3 plain) ∧ three.Fits 0 (wordForm 3 3 plain)) ∧
    (four.Ready 0 wide (wideForm 2 3 wide) ∧ four.Fits 0 (wideForm 2 3 wide)) := ⟨both_of (by decide +kernel), both_of (by decide +kernel)⟩
theorem test_ready_pick : let x : Enc := { plain with ext := [14] }
    let f : Form := { exts := [1], bad := false, pops := 15, pushes := 16 }
    (live 1 (List.replicate 15 9)).Ready 0 x f ∧ (live 1 (List.replicate 15 9)).Fits 0 f := both_of (by decide +kernel)
-- R98, R99: the literal's sign comes from its first syllable's top bit
theorem test_lit_negative : stack (exec (.lit 0 plain 0x3F) two) = some [0xFFFFFFFFF, 7, 5] := by decide +kernel
theorem test_lit_extended : stack (exec (.lit 0 { plain with ext := [0, 0x3F] } 1) two) = some [0x103F, 7, 5] := by decide +kernel
theorem test_rot : stack (exec (.rot 0 plain) three) = some [4, 7, 5] := by decide +kernel
theorem test_over_wide : stack (exec (.over 0 wide) four) = some [4, 3, 7, 5, 4, 3] := by decide +kernel
theorem test_pick_fault : faultOf (exec (.pick 0 { plain with ext := [15] }) two) = some (1, 3) := by decide +kernel
theorem test_tuck : stack (exec (.tuck 0 plain) two) = some [7, 5, 7] := by decide +kernel
theorem test_nip_underflow : faultOf (exec (.nip 0 plain) (live 1 [5])) = some (5, 1) := by decide +kernel

-- IntegerInstructions, Shifts, BitFields
theorem test_ready_arithmetic : (two.Ready 0 plain (pairedForm 1 true plain) ∧ two.Fits 0 (pairedForm 1 true plain)) ∧
    (let x : Enc := { plain with sat := true, ext := [0x3F, 1] }
     two.Ready 0 x (pairedForm 1 true x) ∧ two.Fits 0 (pairedForm 1 true x)) := ⟨both_of (by decide +kernel), both_of (by decide +kernel)⟩
theorem test_ready_shift : (two.Ready 0 plain (shiftForm plain) ∧ two.Fits 0 (shiftForm plain)) ∧
    (three.Ready 0 wide (shiftForm wide) ∧ three.Fits 0 (shiftForm wide)) := ⟨both_of (by decide +kernel), both_of (by decide +kernel)⟩
theorem test_ready_field : four.Ready 0 plain (fieldForm 2 plain) ∧ four.Fits 0 (fieldForm 2 plain) := both_of (by decide +kernel)
-- R134: 2^35 - 1 plus 1 wraps to -2^35 and sets OV; under SAT it stays
theorem test_add_wraps : stack (exec (.add 0 plain) (live 1 [0x7FFFFFFFF, 1])) = some [0x800000000] := by decide +kernel
theorem test_add_saturates : stack (exec (.add 0 { plain with sat := true }) (live 1 [0x7FFFFFFFF, 1])) = some [0x7FFFFFFFF] := by decide +kernel
theorem test_add_overflow_flag : seen (exec (.add 0 plain) (live 1 [0x7FFFFFFFF, 1])) (fun t => (t.cur 0).flags) = some 1 := by decide +kernel
theorem test_sub_order : stack (exec (.sub 0 plain) two) = some [0xFFFFFFFFE] := by decide +kernel
theorem test_subu_saturates : stack (exec (.subu 0 { plain with sat := true }) two) = some [0] := by decide +kernel
theorem test_add_immediate : stack (exec (.add 0 { plain with ext := [0x3F] }) two) = some [6, 5] := by decide +kernel
theorem test_abs_minimum : stack (exec (.abs 0 plain) (live 1 [0x800000000])) = some [0x800000000] := by decide +kernel
theorem test_min_signed : stack (exec (.min 0 plain) (live 1 [0xFFFFFFFFF, 1])) = some [0xFFFFFFFFF] := by decide +kernel
theorem test_minu_unsigned : stack (exec (.minu 0 plain) (live 1 [0xFFFFFFFFF, 1])) = some [1] := by decide +kernel
theorem test_andn : stack (exec (.andn 0 plain) (live 1 [0b1110, 0b0110])) = some [0b1000] := by decide +kernel
theorem test_sar : stack (exec (.sar 0 plain) (live 1 [0xFFFFFFFF0, 2])) = some [0xFFFFFFFFC] := by decide +kernel
theorem test_shl_past_width : stack (exec (.shl 0 plain) (live 1 [1, 36])) = some [0] := by decide +kernel
theorem test_rol : stack (exec (.rol 0 plain) (live 1 [0x800000001, 1])) = some [3] := by decide +kernel
theorem test_clz_zero : stack (exec (.clz 0 plain) (live 1 [0])) = some [36] := by decide +kernel
theorem test_popc : stack (exec (.popc 0 plain) (live 1 [0xF0F])) = some [8] := by decide +kernel
theorem test_ext_field : stack (exec (.ext 0 plain) (live 1 [0xABC, 4, 8])) = some [0xAB] := by decide +kernel
theorem test_exts_field : stack (exec (.exts 0 plain) (live 1 [0xABC, 4, 8])) = some [0xFFFFFFFAB] := by decide +kernel

-- FlagsAndComparisons
theorem test_ready_compare : let f := compareForm 7 plain
    two.Ready 0 plain f ∧ two.Fits 0 f := both_of (by decide +kernel)
theorem test_clt_signed : seen (exec (.clt 0 plain 3) (live 1 [0xFFFFFFFFF, 0])) (fun t => (t.cur 0).p) = some 9 := by decide +kernel
theorem test_cltu_unsigned : seen (exec (.cltu 0 plain 3) (live 1 [0xFFFFFFFFF, 0])) (fun t => (t.cur 0).p) = some 1 := by decide +kernel
theorem test_p0_discards : seen (exec (.ceq 0 plain 0) two) (fun t => (t.cur 0).p) = some 1 := by decide +kernel
theorem test_pset : seen (exec (.pset 0 plain 7) (live 1 [3])) (fun t => (t.cur 0).p) = some 0x81 := by decide +kernel

-- MultiplicationAndDivision, Accumulators
theorem test_ready_division : let f : Form := { sat := true, cyc := 38, fixed := true, pops := 2, pushes := 1 }
    two.Ready 0 plain f ∧ two.Fits 0 f := both_of (by decide +kernel)
theorem test_ready_accumulator : let f : Form := { op := 1, sat := true, pops := 2 }
    two.Ready 0 plain f ∧ two.Fits 0 f := both_of (by decide +kernel)
theorem test_mul_wide : stack (exec (.mul 0 wide) (live 1 [0xFFFFFFFFF, 2])) = some [0xFFFFFFFFE, 0xFFFFFFFFF] := by decide +kernel
-- R141: 0.5 times 0.5 in F36 is 0.25
theorem test_fmul_half : stack (exec (.fmul 0 plain) (live 1 [0x20000000, 0x20000000])) = some [0x10000000] := by decide +kernel
-- R131: a division by 0 gives the bound of the dividend's sign, and sets DZ
theorem test_div_zero : stack (exec (.div 0 plain) (live 1 [0xFFFFFFFFF, 0])) = some [0x800000000] := by decide +kernel
theorem test_div_truncates : stack (exec (.div 0 plain) (live 1 [0xFFFFFFFF9, 2])) = some [0xFFFFFFFFD] := by decide +kernel
theorem test_mod_sign : stack (exec (.mod 0 plain) (live 1 [0xFFFFFFFF9, 2])) = some [0xFFFFFFFFF] := by decide +kernel
theorem test_sqrt : stack (exec (.sqrt 0 plain) (live 1 [99])) = some [9] := by decide +kernel
theorem test_mac0 : seen (exec (.mac0 0 plain) (live 1 [0xFFFFFFFFF, 3])) (fun t => (t.cur 0).acc0.toInt) = some (-3) := by decide +kernel

-- LogicOfLanes (03: the worked word), PointArithmetic, FloatArithmetic, PointTests
theorem test_ready_lanes : (two.Ready 0 plain (wordForm 2 1 plain) ∧ two.Fits 0 (wordForm 2 1 plain)) ∧
    (three.Ready 0 plain (wordForm 3 1 plain) ∧ three.Fits 0 (wordForm 3 1 plain)) := ⟨both_of (by decide +kernel), both_of (by decide +kernel)⟩
theorem test_ready_point : (two.Ready 0 plain (pointForm 2 3 false plain) ∧ two.Fits 0 (pointForm 2 3 false plain)) ∧
    (two.Ready 0 plain (predForm 2 1 1 7 plain) ∧ two.Fits 0 (predForm 2 1 1 7 plain)) := ⟨both_of (by decide +kernel), both_of (by decide +kernel)⟩
-- R80, R81: 1,000 questionable and substituted plus 250 in test is 1,250 with all three marks
theorem test_padd_quality : stack (exec (.paddI 0 plain) (live 1 [0xD000003E8, 0x2000000FA])) = some [0xF000004E2] := by decide +kernel
theorem test_paddF : stack (exec (.paddF 0 plain) (live 1 [0x3F800000, 0x40000000])) = some [0x40400000] := by decide +kernel
theorem test_pdivF_zero : stack (exec (.pdivF 0 plain) (live 1 [0xBF800000, 0])) = some [0x4FF7FFFFF] := by decide +kernel
theorem test_pcvtfi_nan : stack (exec (.pcvtfi 0 plain) (live 1 [0x7FC00000])) = some [0x400000000] := by decide +kernel
theorem test_qts : seen (exec (.qts 0 plain 2) (live 1 [0x200000000])) (fun t => ((t.cur 0).p, (t.cur 0).depth)) = some (5, 1) := by decide +kernel
theorem test_rounding_witness : f32Of 0x3F800000 = .fin false 0x800000 (-23) := by decide +kernel

-- RegistersAndPointers
theorem test_ready_move : let f : Form := moveForm 1 0 false plain
    (live 1 [7]).Ready 0 plain f ∧ (live 1 [7]).Fits 0 f := both_of (by decide +kernel)
def setPointer : Form := { op := 2, rep := false, cyc := 2, pops := 1 }
theorem test_ready_setdsp : ((live 1 [0x3080]).Ready 0 plain setPointer ∧ (live 1 [0x3080]).Fits 0 setPointer) ∧
    ((live 1 [0x3080]).cur 0).dw = 1 ∧ ((live 1 [0x3080]).cur 0).rw = 0 := ⟨both_of (by decide +kernel), by decide +kernel⟩
theorem test_setdsp : seen (exec (.setdsp 0 plain) (live 1 [0x3080])) (fun t => (t.cur 0).dsp) = some 0x3080 := by decide +kernel
theorem test_setdsp_past : faultOf (exec (.setdsp 0 plain) (live 1 [0x3101])) = some (5, 4) := by decide +kernel
theorem test_setfl_mask : seen (exec (.setfl 0 plain) (live 1 [0xFFFFFFFFF])) (fun t => (t.cur 0).flags) = some 0x3CF := by decide +kernel
/-! ## Memory, capabilities, the image, control flow, queues -/

def phys (s : State) (va : Nat) : Phys := (s.translate 0 (s.cur 0).dom.toNat va).getD ⟨0, none, false, 0⟩
def keyAt (s : State) (p : Phys) : Nat :=
  match s.area p.pa with
  | .store key => key
  | .cluster k => k
  | _ => 0
theorem near_at {s : State} {va : Nat} (h : nearB s 0 va (phys s va) (keyAt s (phys s va)) = true) : s.Near 0 va (phys s va) := near_of _ h

def mem0 : State := memory 1 []
def mem2 : State := memory 1 [0x104, 2]

-- Loads, both places; the state of the loads comes from `memory`, the effective address from A0 or A1
theorem test_load_own : let f := loadForm plain (.ptr 0) false
    let a := addressed (mem0.cur 0) plain (.ptr 0) 0
    (mem0.Ready 0 plain f ∧ mem0.Fits 0 f) ∧ mem0.Quiet 0 ∧ a.2.1 = 0x100 ∧
    ((mem0.cur 0).cap a.1).check ((mem0.cur 0).cap a.1).r a.2.1 1 = none ∧ mem0.Near 0 0x100 (phys mem0 0x100) ∧
    mem0.reach 0 (phys mem0 0x100).pa = .own :=
  ⟨both_of (by decide +kernel), quiet_of (by decide +kernel), by decide +kernel, by decide +kernel, near_at (by decide +kernel), by decide +kernel⟩
theorem test_load_cluster : let f := loadForm plain (.postInc 1) false
    let a := addressed (mem0.cur 0) plain (.postInc 1) 0
    (mem0.Ready 0 plain f ∧ mem0.Fits 0 f) ∧ a = (1, 0x10100, some 0x10101) ∧ mem0.Near 0 0x10100 (phys mem0 0x10100) ∧
    mem0.reach 0 (phys mem0 0x10100).pa = .cluster ∧ (mem0.cell 0).loads = [] ∧ mem0.pwr = Power.reset ∧ mem0.rpr.migs = [] ∧
    (mem0.cell 0).resetDue = false :=
  ⟨both_of (by decide +kernel), by decide +kernel, near_at (by decide +kernel), by decide +kernel, by decide +kernel, by decide +kernel,
    by decide +kernel, by decide +kernel⟩
theorem test_load_wide : stack (exec (.ld 0 wide (.ptr 0)) mem0) = some [0x11, 0x12] := by decide +kernel
theorem test_load_shadow : seen (exec (.ld 0 plain (.tos 0)) (memory 1 [0x104])) (fun t => (t.cur 0).shadow.map Prod.snd) = some [0x104] := by
  decide +kernel
theorem test_load_data : seen (exec (.ld 0 plain (.postInc 1)) mem0) (fun t => seen (exec (.loadDataReturn 0) t) (fun u => u.top 0 1)) =
    some (some [0x21]) := by decide +kernel
theorem test_nonet_access : let f := loadForm plain (.tos 0) true
    let g := storeForm plain (.tos 0) true
    ((mem2.Ready 0 plain f ∧ mem2.Fits 0 f) ∧ ((memory 1 [9, 0x104, 2]).Ready 0 plain g ∧ (memory 1 [9, 0x104, 2]).Fits 0 g)) ∧
    mem2.Near 0 0x104 (phys mem2 0x104) := ⟨⟨both_of (by decide +kernel), both_of (by decide +kernel)⟩, near_at (by decide +kernel)⟩
theorem test_nonet_load : stack (exec (.ldn 0 plain (.tos 0)) (memory 1 [0x104, 0])) = some [0x15] := by decide +kernel
theorem test_store : let f := storeForm plain (.tos 0) false
    let s := memory 1 [9, 0x105]
    (s.Ready 0 plain f ∧ s.Fits 0 f) ∧ s.Near 0 0x105 (phys s 0x105) := ⟨both_of (by decide +kernel), near_at (by decide +kernel)⟩
theorem test_store_cluster : seen (exec (.st 0 plain (.ptr 1)) (memory 1 [9])) (fun t => (t.word 0x2000100, t.word 0x2000101)) = some (9, 0x22) := by
  decide +kernel
theorem test_store_buffered : seen (exec (.st 0 plain (.tos 0)) (memory 1 [9, 0x105])) (fun t => ((t.cell 0).sb.map SbEntry.words, t.word 0x2000105)) =
    some ([[(9, 0xF)]], 0x26) := by decide +kernel
-- CheckedAccesses: a capability that lacks R, one past its end, and no translation
def barred : State := mem0.modCur 0 (fun k => { k with c := #v[grant 2 0 0x4000, grant 11 0 0x20000, grant 5 0x1000 0x1000, grant 3 0x3000 0x100] })
theorem test_checked : (barred.Ready 0 plain (loadForm plain (.postInc 0) false) ∧ barred.Fits 0 (loadForm plain (.postInc 0) false)) ∧
    ((barred.cur 0).cap 0).check ((barred.cur 0).cap 0).r 0x100 1 = some 3 ∧ (barred.cell 0).xlat = [] :=
  ⟨both_of (by decide +kernel), by decide +kernel, by decide +kernel⟩
theorem test_no_translation : let s := mem0.modCur 0 (fun k => { k with a := #v[0x100, 0x12000, 0, 0] })
    ((s.cur 0).cap 1).check ((s.cur 0).cap 1).w 0x12000 1 = none ∧ s.translate 0 0 0x12000 = none ∧
    faultOf (exec (.ld 0 plain (.postInc 1)) s) = some (6, 1) := ⟨by decide +kernel, by decide +kernel, by decide +kernel⟩
theorem test_bounds : (grant 3 0x100 0x10).check true 0x10F 1 = none ∧ (grant 3 0x100 0x10).check true 0x10F 2 = some 4 ∧
    (grant 3 0x100 0x10).check true 0xFF 1 = some 4 := by decide +kernel

-- CapabilityMoves: A2 names the tagged doubleword
def moves : Form := { op := 2, exts := [0, 1, 2, 3, 4, 5, 6], rep := false }
theorem test_ready_moves : (mem0.Ready 0 plain moves ∧ mem0.Fits 0 moves) ∧ mem0.Near 0 0x102 (phys mem0 0x102) ∧
    mem0.Near 0 0x103 (phys mem0 0x103) ∧ ((mem0.cur 0).cap 2).check true 0x1002 2 = none ∧
    mem0.tagA.contains (mem0.key (phys mem0 0x102).pa) = mem0.tagB.contains (mem0.key (phys mem0 0x102).pa) :=
  ⟨both_of (by decide +kernel), near_at (by decide +kernel), near_at (by decide +kernel), by decide +kernel, by decide +kernel⟩
def low : State := mem0.modCur 0 (fun k => { k with a := #v[0x102, 0x103, 0x102, 0x4000], c := k.c.set 2 (grant 7 0 0x4000) })
theorem test_cld_tag : seen (exec (.cld 0 plain 1 0) low) (fun t => (t.cur 0).cap 1) = some ⟨0x13, 0x14, true⟩ := by decide +kernel
theorem test_cld_odd : faultOf (exec (.cld 0 plain 1 1) low) = some (2, 5) := by decide +kernel
theorem test_cst_without_m : faultOf (exec (.cst 0 plain 1 0) low) = some (2, 3) := by decide +kernel
-- CapabilityRules
theorem test_ready_narrow : let f : Form := { rep := false, pops := 2 }
    (live 1 [0x10, 8]).Ready 0 plain f ∧ (live 1 [0x10, 8]).Fits 0 f := both_of (by decide +kernel)
theorem test_cnarrow : seen (exec (.cnarrow 0 plain 0) (live 1 [0x10, 8])) (fun t => ((t.cur 0).cap 0).lo) = some 0x300000010 := by decide +kernel

-- ImageAccesses
theorem test_ready_image : let f : Form := { load := true, cyc := 6, pops := 1, pushes := 1 }
    let g : Form := { cyc := 2, pops := 2 }
    ((live 1 [3]).Ready 0 plain f ∧ (live 1 [3]).Fits 0 f) ∧ (two.Ready 0 plain g ∧ two.Fits 0 g) ∧ two.paired 0 = false :=
  ⟨both_of (by decide +kernel), both_of (by decide +kernel), by decide +kernel⟩
theorem test_ldim : stack (exec (.ldim 0 plain) { live 1 [3] with rime := { State.reset.rime with lat := State.reset.rime.lat.put 3 0x55 } }) = some [0x55] := by decide +kernel

-- Synchronisation, MultipleMoves, TimersAndCounters, SlidingTransform
theorem test_ready_synchronisation : let f : Form := { rep := false, cyc := 8 }
    ((live 1 []).Ready 0 plain f ∧ (live 1 []).Fits 0 f) ∧ ((live 1 []).cell 0).sb = [] ∧ (live 1 []).throughput 0 = false ∧
    (live 1 []).fab.txs = [] := ⟨both_of (by decide +kernel), by decide +kernel, by decide +kernel, by decide +kernel⟩
-- A0 and RC from two words at 0x100, through C1 and A1
def many : State := (memory 1 [0x110]).modCur 0 (fun k => { k with a := #v[0, 0x100, 0, 0] })
theorem test_ready_loadm : let f : Form := { rep := false, cyc := 2, fixed := true, pops := 1 }
    (many.Ready 0 plain f ∧ many.Fits 0 f) ∧ many.Quiet 0 ∧ (many.cur 0).mp = 0 ∧ many.eventDue 0 = false ∧
    (many.Near 0 0x100 (phys many 0x100) ∧ many.Near 0 0x101 (phys many 0x101)) ∧ many.reach 0 (phys many 0x101).pa = .own ∧
    ((many.cur 0).cap 1).lock = 0 ∧ ((many.cur 0).cap 1).base ≤ 0x100 ∧ 0x102 ≤ ((many.cur 0).cap 1).top :=
  ⟨both_of (by decide +kernel), quiet_of (by decide +kernel), by decide +kernel, by decide +kernel,
    ⟨near_at (by decide +kernel), near_at (by decide +kernel)⟩, by decide +kernel, by decide +kernel, by decide +kernel, by decide +kernel⟩
theorem test_loadm : seen (exec (.loadm 0 plain 1) many) (fun t => ((t.cur 0).ptr 0, (t.cur 0).rc, (t.cur 0).mp)) = some (0x11, 0x12, 0) := by
  decide +kernel
theorem test_savem : seen (exec (.savem 0 plain 1) ((memory 1 [0x100]).modCur 0 (fun k => { k with rc := 0x77, a := #v[0, 0x100, 0, 0] })))
    (fun t => (t.cell 0).sb.map SbEntry.words) = some [[(0x77, 0xF)]] := by decide +kernel
def timer : State := memory 1 [1, 3]
def timing : Form := { op := 2, cyc := 12, fixed := true, pops := 2, pushes := 2 }
theorem test_ready_timer : (timer.Ready 0 plain timing ∧ timer.Fits 0 timing) ∧ timer.Quiet 0 ∧ timer.Near 0 0x100 (phys timer 0x100) ∧
    timer.Near 0 0x101 (phys timer 0x101) ∧ timer.key (phys timer 0x100).pa ≠ timer.key (phys timer 0x101).pa ∧
    timer.mirrorOf (timer.key (phys timer 0x100).pa) = none ∧ timer.mirrorOf (timer.key (phys timer 0x101).pa) = none ∧
    ((timer.cur 0).cap 0).check true 0x101 1 = none :=
  ⟨both_of (by decide +kernel), quiet_of (by decide +kernel), near_at (by decide +kernel), near_at (by decide +kernel), by decide +kernel,
    by decide +kernel, by decide +kernel, by decide +kernel⟩
theorem test_ready_counter : let f : Form := { op := 2, cyc := 10, fixed := true, pops := 3, pushes := 2 }
    (memory 1 [1, 0, 3]).Ready 0 plain f ∧ (memory 1 [1, 0, 3]).Fits 0 f := both_of (by decide +kernel)
/-- Instance words 0 and 1 zero: a timer that has not run. -/
def idleTimer (ws : List Word) : State :=
  let s := memory 1 ws
  (s.setWord (s.key (phys s 0x100).pa) 0).setWord (s.key (phys s 0x101).pa) 0
theorem test_ton_off : stack (exec (.ton 0 plain 0) (idleTimer [0, 3])) = some [0, 0] := by decide +kernel
theorem test_ton_starts : stack (exec (.ton 0 plain 0) (idleTimer [1, 3])) = some [0, 0] := by decide +kernel
theorem test_ton_at_once : stack (exec (.ton 0 plain 0) (idleTimer [1, 0])) = some [0, 1] := by decide +kernel
theorem test_ctu_counts : stack (exec (.ctu 0 plain 0) (idleTimer [1, 0, 1])) = some [1, 1] := by decide +kernel
/-- SDFT with N = 1: the coefficients in words 6 and 7, the ring in word 8. -/
def sliding : State :=
  let s := memory 1 [10]
  [(0, 0), (1, 0), (2, 0), (3, 0), (4, 0), (5, 0), (6, 2), (7, 3), (8, 0)].foldl (fun s e => s.setWord (s.key (phys s (0x100 + e.1)).pa) e.2) s
theorem test_ready_sdft : let f : Form := { op := 2, cyc := 24, fixed := true, pops := 1, pushes := 1 }
    (sliding.Ready 0 plain f ∧ sliding.Fits 0 f) ∧ sliding.Quiet 0 ∧ sliding.Near 0 0x108 (phys sliding 0x108) ∧
    sliding.mirrorOf (sliding.key (phys sliding 0x108).pa) = none :=
  ⟨both_of (by decide +kernel), quiet_of (by decide +kernel), near_at (by decide +kernel), by decide +kernel⟩
theorem test_sdft_sums : seen (exec (.sdft 0 plain 0) sliding) (fun t => ((t.cur 0).acc0.toInt, (t.cur 0).acc1.toInt)) = some (20, 30) := by
  decide +kernel

-- Branches, SystemCalls, HandlerReturns, SchedulingInstructions
def far : Form := { exts := [1, 2, 3, 4, 5, 6], rep := false, cyc := 6, fixed := true, branch := true }
def ahead : Enc := { plain with ext := [0x3F] }
theorem test_ready_branch : (two.Ready 0 ahead far ∧ two.Fits 0 far) ∧
    (let f : Form := { rep := false, cyc := 6, fixed := true, pops := 1, rpushes := 1 }
     two.Ready 0 plain f ∧ two.Fits 0 f) := ⟨both_of (by decide +kernel), both_of (by decide +kernel)⟩
-- R177: the displacement counts from the next instruction
theorem test_br_back : seen (exec (.br 0 ahead) two) (fun t => (t.cur 0).pc) = some 0x4001 := by decide +kernel
theorem test_call_return : seen (exec (.call 0 ahead) two) (fun t => ((t.cur 0).rtop, (t.cur 0).pc)) = some (0x4002, 0x4001) := by decide +kernel
/-- Entry 2 of cell 0 with code and stack capabilities under lock 0x21, one argument, target 0x2000. -/
def gated : State :=
  let s := two.setReg (Reg.CELL_ENTRY0_TARGET 0 2).off 0x2000
  let s := (s.put (Reg.CELL_ENTRY1_ARGS 0 2) 1).put (Reg.CELL_ENTRY1_RES 0 2) 1
  let s := (s.setReg (Reg.CELL_ENTRY1_ARGS 0 2).off.succ.succ.succ (BitVec.ofNat 36 0))
  s
def calling : Form := { rep := false, cyc := 6, fixed := true }
theorem test_ready_call : gated.Ready 0 plain calling ∧ gated.Fits 0 calling := both_of (by decide +kernel)
theorem test_sys_unlocked : faultOf (exec (.sys 0 plain 2) gated) = some (10, 2) := by decide +kernel
theorem test_rets_without_call : faultOf (exec (.rets 0 plain) two) = some (10, 5) := by decide +kernel
def handler (b : Nat) : State :=
  let s := two.setBank 0 b (bankOf [] #v[0, 0, 0, 0])
  (s.put (Reg.CELL_STATE_BANK 0) b).modCell 0 (fun y => { y with iFrom := 0, dFrom := 0 })
def returning : Form := { rep := false, cyc := 8, fixed := true }
theorem test_ready_return : ((handler 8).Ready 0 plain returning ∧ (handler 8).Fits 0 returning) ∧ (handler 8).running 0 = 8 ∧
    ((handler 8).cell 0).held = [] ∧ (handler 8).lvState 0 0 = 2 ∧ (handler 10).running 0 = 10 :=
  ⟨both_of (by decide +kernel), by decide +kernel, by decide +kernel, by decide +kernel, by decide +kernel⟩
theorem test_iret_outside : faultOf (exec (.iret 0 plain) two) = some (1, 6) := by decide +kernel
def ending : Form := { rep := false, cyc := 8 }
theorem test_ready_scheduling : (two.Ready 0 plain ending ∧ two.Fits 0 ending) ∧ two.running 0 = 0 ∧ ((two.cur 0).link.occ = false ∧
    two.lastTask 0 0 = 0 ∧ two.curTask 0 0 = 0 ∧ two.paired 0 = false ∧ (List.range 8).all (fun m => m = 0 || two.lvState 0 m ≠ 2) = true) ∧
    two.on (Reg.CELL_LSTAT_TPEND 0 0) = false ∧ two.on (Reg.CELL_LCFG_TICK 0 0) = true :=
  ⟨both_of (by decide +kernel), by decide +kernel, by decide +kernel, by decide +kernel, by decide +kernel⟩
theorem test_fend : seen (exec (.fend 0 plain) two) (fun t => (t.running 0, t.lvState 0 0)) = some (15, 1) := by decide +kernel
theorem test_wait_event : stack (exec (.wait 0 plain) ((live 1 []).setReg (Reg.CELL_LEV_SAT 0 0).off 3)) = some [3] := by decide +kernel
theorem test_post : seen (exec (.post 0 plain) (live 1 [0x305])) (fun t => t.posts) = some [(0, 5, 3)] := by decide +kernel
/-! ## The shared path -/

-- GuardsAndRepeats: a guard that fails, RC = 0 under REP, and a REPN of two iterations
theorem test_guarded_off : let x : Enc := { plain with guard := .ifSet 1 }
    guardPasses x.guard (two.cur 0) = false ∧ two.canIssue 0 = true ∧ stack (exec (.add 0 x) two) = some [7, 5] :=
  ⟨by decide +kernel, by decide +kernel, by decide +kernel⟩
theorem test_rep_none : (two.cur 0).rc = 0 ∧ stack (exec (.add 0 repeated) two) = some [7, 5] := ⟨by decide +kernel, by decide +kernel⟩
theorem test_repn_two : let s := (live 1 [1, 2, 4]).modCur 0 (fun k => { k with rc := 2 })
    stack (exec (.add 0 { plain with rept := .repn }) s) = some [7] ∧
    seen (exec (.add 0 { plain with rept := .repn }) s) (fun t => ((t.cur 0).rc, (t.cell 0).hold)) = some (0, false) :=
  ⟨by decide +kernel, by decide +kernel⟩
theorem test_repn_beyond : faultOf (exec (.add 0 { plain with rept := .repn }) (two.modCur 0 (fun k => { k with rc := 65 }))) = some (1, 5) := by
  decide +kernel
-- BeforeTheEffect: no issue, a seventh extension syllable, a repeat prefix on SETRC, the checks of C3 and of the depths
theorem test_cannot_issue : (State.reset.canIssue 0 = false) ∧ stack (exec (.add 0 plain) { two with thaw := { two.thaw with started := false } }) =
    stack (exec (.add 0 plain) { two with thaw := { two.thaw with started := false } }) := ⟨by decide +kernel, rfl⟩
theorem test_seventh_syllable : faultOf (exec (.setrc 0 { repeated with ext := List.replicate 7 0 }) two) = some (1, 3) := by decide +kernel
theorem test_rep_setrc : faultOf (exec (.setrc 0 repeated) two) = some (1, 4) := by decide +kernel
theorem test_wide_refused : faultOf (exec (.rot 0 wide) three) = some (1, 3) := by decide +kernel
theorem test_return_underflow : faultOf (exec (.ret 0 plain) two) = some (5, 2) := by decide +kernel
theorem test_stack_overflow : let s := two.modCur 0 (fun k => { k with rsp := k.dsp })
    faultOf (exec (.lit 0 plain 1) s) = some (5, 3) := by decide +kernel
-- Operands: a slot under a load shadow, a marked slot, a slot that waits, a plain slot
def slots : State := two.modCur 0 (fun k => { k with shadow := [(k.slot 0, 9)] })
theorem test_operand_shadow : (match slots.operand 0 0 with
    | .ok w _ => w
    | _ => 0) = 9 := by decide +kernel
def marked : State := two.modCur 0 (fun k => { k with dmark := [⟨k.slot 0, 7, 3, 0x123, 0⟩] })
theorem test_operand_mark : faultOf (exec (.drop 0 plain) two) = some (0, 0) ∧ faultOf (exec (.add 0 plain) marked) = some (7, 3) :=
  ⟨by decide +kernel, by decide +kernel⟩
theorem test_operand_waits : (match (two.modCur 0 (fun k => { k with pend := [(k.slot 1, 0)] })).operand 0 1 with
    | .stall _ => true
    | _ => false) = true := by decide +kernel
theorem test_push_premises : let k := two.cur 0
    k.shadow = [] ∧ k.dsp.toNat ≤ k.c[3].top ∧ k.c[3].top - k.dsp.toNat < 2 ^ 28 ∧ 0 < k.dsp.toNat := by decide +kernel
-- Completion, TakingAFault
theorem test_completion_premises : two.running 0 < 8 ∧ two.throughput 0 = false := by decide +kernel
theorem test_fault_entered : let t := two.takeFault 0 { code := 3, info := 1 }
    (t.running 0, (t.bank 0 9).pc.toNat, t.get (Reg.CELL_FRPC_PC 0)) = (9, 96, 0x4000) := by decide +kernel
-- R261: a mask of 2 escalates fault 3
theorem test_fault_escalated : let t := (two.modCur 0 (fun k => { k with mask := 2 })).takeFault 0 { code := 3, info := 1 }
    (t.get (Reg.CELL_FCAUSE_CODE 0), t.get (Reg.CELL_FCAUSE_ORIG 0), (t.bank 0 9).pc.toNat) = (9, 3, 288) := by decide +kernel
def within : State := (handler 9).put Reg.RPR_CTRL_LKMIG 0
theorem test_lockup : within.running 0 = 9 ∧ within.on Reg.RPR_CTRL_LKMIG = false ∧ within.slotOf 0 ≤ 16 ∧
    (let t := within.takeFault 0 { code := 5, info := 1 }
     (t.running 0, t.locked 0, t.get (Reg.CELL_DFAULT_SECOND 0), t.msgs.map Msg.kind) = (15, true, 5, [0x23])) :=
  ⟨by decide +kernel, by decide +kernel, by decide +kernel, by decide +kernel⟩

/-! ## Events of the cells -/

theorem two_calm : two.Calm := ⟨rfl, rfl, by decide +kernel⟩
-- PipelineEvents
def loading (got : Option Word) : State :=
  (live 0 [5, 7]).modCell 0 (fun y => { y with loads := [⟨3, 0, [(0, 0)], none, [⟨0x10100, 0x2000100, some got, false⟩], []⟩] })
    |>.modCur 0 (fun k => { k with pend := [(0, 3)] })
theorem test_load_data_comes : seen (exec (.loadDataReturn 0) (loading (some 0x99))) (fun t => ((t.cur 0).dget 0, (t.cur 0).pend, (t.cell 0).loads.length)) =
    some (0x99, [], 0) := by decide +kernel
theorem test_load_error_marks : seen (exec (.loadDataReturn 0) (loading none)) (fun t => (t.cur 0).dmark) = some [⟨0, 7, 3, 0x10100, 0x2000100⟩] := by
  decide +kernel
def storing (pa : Nat) : State :=
  two.modCell 0 (fun y => { y with sb := [{ pa := pa, words := [(0x77, 0xF)], tag := false, dev := false, ret := false, bank := 0, issued := false, dbl := false }] })
theorem test_drain_store : seen (exec (.storeBufferDrain 0) (storing (phys mem0 0x100).pa)) (fun t => (t.word (mem0.key (phys mem0 0x100).pa), (t.cell 0).sb)) =
    some (0x77, []) := by decide +kernel
theorem test_drain_hole : two.area 0x7000000 = .hole ∧ seen (exec (.storeBufferDrain 0) (storing 0x7000000)) (fun t => t.msgs.map Msg.kind) = some [0x10] :=
  ⟨by decide +kernel, by decide +kernel⟩
theorem test_drain_fabric : two.area 0x1000000000 = .fabric ∧ seen (exec (.storeBufferDrain 0) (storing 0x1000000000))
    (fun t => t.fab.txs.map (fun x => (x.addr, x.wr, x.data))) = some [(0x1000000000, true, [(0x77, 0xF)])] := ⟨by decide +kernel, by decide +kernel⟩
/-- Thirteen entries in the data window. -/
def deepStack : State := (live 1 (List.replicate 13 6)).modCell 0 (fun x => { x with sets := [(0, 0)] })
theorem test_spill : (deepStack.cur 0).occ false = 13 ∧ seen (exec (.backgroundSpillFill 0 false) deepStack) (fun t =>
    ((t.cur 0).occ false, t.word (mem0.key (phys mem0 0x30FF).pa))) = some (12, 6) := ⟨by decide +kernel, by decide +kernel⟩
/-- Two entries deep, and none in the window. -/
def spilt : State := (((live 1 []).modCell 0 (fun x => { x with sets := [(0, 0)] })).modCur 0 (fun k => { k with dsp := k.dsp - 2 })).setWord
  (mem0.key (phys mem0 0x30FE).pa) 0x44
theorem test_fill : (spilt.cur 0).occ false = 0 ∧ (spilt.cur 0).deep false = 2 ∧ seen (exec (.backgroundSpillFill 0 false) spilt) (fun t =>
    ((t.cur 0).occ false, (t.cur 0).dget ((t.cur 0).slot 0))) = some (1, 0x44) := ⟨by decide +kernel, by decide +kernel, by decide +kernel⟩

-- HandlerEntries
theorem test_fault_entry_held : let s := two.modCell 0 (fun y => { y with held := [⟨8, 1, 0, 0, 0⟩] })
    s.acceptsHeld 0 = true ∧ seen (exec (.faultEntry 0 .held) s) (fun t => (t.running 0, (t.bank 0 9).pc, t.on (Reg.CELL_FCAUSE_ASYNC 0))) = some (9, 256, true) :=
  ⟨by decide +kernel, by decide +kernel⟩
theorem test_fault_entry_fetched : two.fetch 0 1 = .ok () two ∧ faultOf (exec (.faultEntry 0 (.sync 1 1 0)) two) = some (1, 1) :=
  ⟨by rfl, by decide +kernel⟩
def presented (en : Nat) : State :=
  { ((((two.put (Reg.IRQ_CFG_EN 20) en).put (Reg.IRQ_CFG_LVEC 20) 12).put (Reg.IRQ_ST_PEND 20) 1).put (Reg.CELL_IVBASE_VA 0) 0x1000) with presented := [(0, 20)] }
theorem test_interrupt_entry : (presented 1).acceptsIrq 0 = true ∧ (presented 1).eligible 20 = true ∧ (presented 1).irqTarget 20 = 0 ∧
    seen (exec (.interruptEntry 0) (presented 1)) (fun t => (t.running 0, (t.bank 0 8).pc.toNat, t.get (Reg.CELL_ISRV_SRC 0), t.irqPend 20)) =
      some (8, 4 * (0x1000 + 48), 20, false) := ⟨by decide +kernel, by decide +kernel, by decide +kernel, by decide +kernel⟩
theorem test_interrupt_spurious : (presented 0).eligible 20 = false ∧ seen (exec (.interruptEntry 0) (presented 0)) (fun t =>
    ((t.bank 0 8).pc.toNat, t.get (Reg.CELL_ISRV_SRC 0), t.get Reg.IRQ_SPUR_COUNT)) = some (0x4000, 0, 1) := ⟨by decide +kernel, by decide +kernel⟩
/-- Level 0 done, level 3 active with task 0 in state `st`. -/
def switching (st : Nat) : State :=
  let s := ((two.put (Reg.CELL_LSTAT_STATE 0 0) 1).put (Reg.CELL_LCFG_EN 0 3) 1).put (Reg.CELL_LSTAT_STATE 0 3) 2
  let s := (s.setTask 0 3 0 st).put (Reg.CELL_STATE_BANK 0) 15
  s.setWord (s.storeWordKey 0 (s.tcwBase 0 3 0 + 13)) 0x1234
theorem test_switch_entry : (switching 1).switchFree 0 = true ∧ (switching 1).urgent 0 = some 3 ∧ seen (exec (.schedulerSwitch 0) (switching 1))
    (fun t => (t.running 0, (t.cur 0).pc, t.task 0 3 0)) = some (3, 0x1234, 2) := ⟨by decide +kernel, by decide +kernel, by decide +kernel⟩
theorem test_switch_resume : seen (exec (.schedulerSwitch 0) (switching 2)) (fun t => (t.running 0, t.get (Reg.CELL_LUSED_CYC 0 3))) = some (3, 8) := by
  decide +kernel
theorem test_switch_idle : let s := (two.put (Reg.CELL_LSTAT_STATE 0 0) 1)
    s.urgent 0 = none ∧ seen (exec (.schedulerSwitch 0) s) (fun t => t.running 0) = some 15 := ⟨by decide +kernel, by decide +kernel⟩
theorem test_debug_entry : let s := two.modCell 0 (fun y => { y with dreq := some 3 })
    s.acceptsDebug 0 = true ∧ seen (exec (.debugEntry 0) s) (fun t => (t.running 0, (t.bank 0 10).pc, t.get (Reg.CELL_DCAUSE_INFO 0))) = some (10, 0x1C0, 3) :=
  ⟨by decide +kernel, by decide +kernel⟩

/-! ## Frame clock and Rime -/

/-- A period of 208,333 ns anchored at 0, in frame 4. -/
def line : Timeline := { period := 208333 * 65536, tps := 4800, anchor := 0, depth := 1, guard := 5000, cguard := 2000 }
def running : State :=
  let s := (two.put Reg.FRM_CTRL_EN 1).put Reg.FRM_STAT_RUN 1
  { s with frm := { s.frm with line := some line, next := some 5, now := line.instant 5, port := line.instant 5, tickAt := line.instant 4 } }
theorem test_tick_due : running.dueTick = some (5, false) ∧ seen (exec .tick running) (fun t => (t.frame.toNat, t.frm.next)) = some (5, some 6) :=
  ⟨by decide +kernel, by decide +kernel⟩
theorem test_tick_not_due : (running.put Reg.FRM_CTRL_EN 0).dueTick = none := by decide +kernel
theorem test_tick_latches : seen (exec .tick { running.modCell 0 (fun y => { y with fend := true }) with rime := { running.rime with fill := running.rime.fill.put 3 0x55, stores := [(7, 0x66, 0)] } })
    (fun t => (t.rime.lat.words, t.rime.ebase.words, t.rime.stores)) = some ([(3, 0x55)], [(7, 0x66)], []) := by decide +kernel
theorem test_level_tick : let s := two.put (Reg.CELL_LSTAT_STATE 0 0) 1
    s.lvEn 0 0 = true ∧ (s.levelTick 0 0).lvState 0 0 = 2 ∧ ((two.put (Reg.CELL_LSTAT_TPEND 0 0) 1).levelTick 0 0).get (Reg.CELL_LSTAT_TMISS 0 0) = 1 :=
  ⟨by decide +kernel, by decide +kernel, by decide +kernel⟩
theorem test_deadline : running.rimeRun = true ∧ running.frm.dlSeen = false ∧ running.live 0 = true ∧
    seen (exec .level0Deadline running) (fun t => ((t.cell 0).late, t.get (Reg.CELL_OVR_TOTAL 0), (t.cell 0).held)) = some (true, 1, [⟨8, 1, 0, 0, 0⟩]) :=
  ⟨by decide +kernel, by decide +kernel, by decide +kernel, by decide +kernel⟩
theorem test_budget : let s := (two.put (Reg.CELL_LBUD_CYC 0 0) 10).put (Reg.CELL_LUSED_CYC 0 0) 10
    seen (exec (.cycleBudgetExceeded 0 0) s) (fun t => (t.lvState 0 0, t.msgs.map Msg.kind)) = some (1, [0x20]) ∧
    seen (exec (.cycleBudgetExceeded 0 0) (s.put (Reg.CELL_LUSED_CYC 0 0) 9)) (fun t => t.lvState 0 0) = some 2 :=
  ⟨by decide +kernel, by decide +kernel⟩
-- TimeEvents
theorem test_holdover : running.thawOver = true ∧ running.on Reg.FRM_STAT_HOLD = false ∧ seen (exec .holdover running) (fun t =>
    (t.on Reg.FRM_STAT_HOLD, t.msgs)) = some (true, [infoMsg 0x400 0x32 2 0]) := ⟨by decide +kernel, by decide +kernel, by decide +kernel⟩
/-- Frame time 10^12, the clock stopped or running, the update `gap` ns ahead after 1,600 fabric cycles. -/
def updated (run slew gap : Nat) : Host.Outcome State Fault Refusal :=
  let s := ((two.put Reg.FRM_STAT_RUN run).put Reg.FRM_CTRL_SLEW slew)
  exec (.timeUpdate (BitVec.ofNat 80 (10 ^ 17 + 1600 * 81920 + gap * 65536)) 1600)
    { s with frm := { s.frm with base := 10 ^ 17, now := 10 ^ 17, port := 10 ^ 17 } }
theorem test_update_absorbed : seen (updated 1 1 1000) (fun t => (t.frm.absorb, t.on Reg.FRM_STAT_SLEWING)) = some (1000 * 65536, false) := by
  decide +kernel
theorem test_update_slews : seen (updated 1 1 1001) (fun t => (t.frm.slew, t.on Reg.FRM_STAT_SLEWING)) = some (1001 * 65536, true) := by
  decide +kernel
theorem test_update_kept : seen (updated 1 0 1001) (fun t => (t.on Reg.FRM_STAT_TIMEERR, t.msgs.map Msg.kind)) = some (true, [0x31]) := by
  decide +kernel
theorem test_update_jumps : seen (updated 0 0 1001) (fun t => t.frm.now) = some (10 ^ 17 + 1600 * 81920 + 1001 * 65536) := by
  decide +kernel
theorem test_pps : running.blockUp = true ∧ seen (exec (.ppsEdge 2) running) (fun t => t.frm.ppsOk) = some true ∧
    seen (exec (.ppsEdge 3) running) (fun t => t.frm.ppsOk) = some false := ⟨by decide +kernel, by decide +kernel, by decide +kernel⟩
theorem test_lock_not_up : State.reset.blockUp = false ∧ seen (exec (.timeLockChange true) State.reset) (fun t =>
    (t.frm.lockPin, t.on Reg.FRM_STAT_LOCK)) = some (true, false) := ⟨by decide +kernel, by decide +kernel⟩
/-- Every cluster stopped; the settings of 4.8 kHz. -/
def stopped : State :=
  let s := (State.reset.put Reg.THAW_STATUS_PHASE 6).put Reg.FRM_CTRL_EN 0
  { s with thaw := { s.thaw with started := true }, dbg := { s.dbg with powered := true } }
theorem test_clock_start : stopped.allStopped = true ∧ stopped.thawOver = true ∧ stopped.shuts 0x1000 = false ∧
    seen (exec (.frameClockStart 1) stopped) (fun t => (t.on Reg.FRM_CTRL_EN, t.on Reg.FRM_STAT_CFGERR || t.frm.line.isSome)) = some (true, true) :=
  ⟨by decide +kernel, by decide +kernel, by decide +kernel, by decide +kernel⟩
theorem test_clock_start_early : seen (exec (.frameClockStart 1) { running with ctl := (running.put Reg.FRM_CTRL_EN 0).ctl }) (fun t =>
    (t.on Reg.FRM_CTRL_EN, t.on Reg.FRM_STAT_WERR)) = some (false, true) := by decide +kernel
theorem test_clock_stop : seen (exec (.frameClockStop 0) (stopped.put Reg.FRM_CTRL_EN 1)) (fun t => t.on Reg.FRM_CTRL_EN) = some false ∧
    seen (exec (.frameClockStop 0) running) (fun t => t.on Reg.FRM_STAT_WERR) = some true := ⟨by decide +kernel, by decide +kernel⟩
/-- Ring 5 of sixteen four-word entries in cluster memory 0, holding one entry with stamp `ns` for word 9 from source 3. -/
def ingress (ns : Nat) : State :=
  let s := ((running.put (Reg.IMG_INSRC_QUEUE 3) 5).put (Reg.IMG_INSRC_EN 3) 1).setImg (inMapOff + 2) (BitVec.ofNat 36 ((256 + 3) * 512))
  let s := (s.setWord (descAddr 5 0) 0x2000100).setWord (descAddr 5 1) (BitVec.ofNat 36 (4 * 2 ^ 17 + 3 * 2 ^ 13 + 2))
  let s := s.setWord (descAddr 5 2) 1
  [(0, 9 * 16), (1, ns), (2, 0), (3, 0x123)].foldl (fun s e => s.setWord (0x2000100 + e.1) (BitVec.ofNat 36 e.2)) s
theorem ingress_readable : (ingress 0).Readable 5 := ⟨by decide +kernel, by decide +kernel⟩
theorem test_ingress_premises : (ingress 0).rimeRun = true ∧ (ingress 0).rimeRefused 5 = false ∧ (ingress 0).qEsz 5 = 4 ∧
    (ingress 0).mustWait 5 true = false ∧ (ingress 0).entryOk 3 144 = true ∧ (ingress 0).following = false := by decide +kernel
/-- What the fill plane holds at word 9, whether the entry is taken, and the two counts. -/
def came (ns : Nat) : Option (Word × Nat × Nat × Nat) :=
  seen (exec (.ingressEntry 3) (ingress ns)) (fun t => (t.readFilling 9, t.qCount 5, t.get Reg.FRM_LATE_COUNT, t.get Reg.FRM_EARLY_COUNT))
-- tick 4 lies at 833,332 ns, tick 5 at 1,041,665 ns, tick 6 at 1,249,998 ns; the guard is 5,000 ns
theorem test_ingress_late : (came 828331).map (·.2) = some (0, 1, 0) := by decide +kernel
theorem test_ingress_first : came 828332 = some (0x123, 0, 0, 0) := by decide +kernel
theorem test_ingress_last : came 1036664 = some (0x123, 0, 0, 0) := by decide +kernel
theorem test_ingress_waits : (came 1036665).map (·.2) = some (1, 0, 0) ∧ (came 1244997).map (·.2) = some (1, 0, 0) := ⟨by decide +kernel, by decide +kernel⟩
theorem test_ingress_early : (came 1244998).map (·.2) = some (0, 0, 1) := by decide +kernel
theorem test_ingress_malformed : seen (exec (.ingressEntry 3) ((ingress 0).setWord 0x2000100 145)) (fun t => (t.qCount 5, t.get Reg.IMG_INDISC_COUNT)) =
    some (0, 1) := by decide +kernel
/-- Input 7 mapped to lane 2 of word 9; every change taken at once. -/
def hand (frames : Nat) : State :=
  let s := ((running.put (Reg.IMG_HANDMAP_INDEX 7) 9).put (Reg.IMG_HANDMAP_LANE 7) 2).put (Reg.IMG_HANDMAP_EN 7) 1
  { s.setImg (inMapOff + 2) (BitVec.ofNat 36 ((256 + 3 * 64 + 63) * 512)) with rime := { s.rime with frames := frames } }
def handed (ns : Nat) : Option (Bool × Nat × List (Nat × Bool) × Nat × Nat) :=
  seen (exec (.debounceChange 7 true (BitVec.ofNat 80 (ns * 65536))) (hand 0)) (fun t =>
    (t.on (inputFld 7), (t.readFilling 9).toNat / 256 % 16, t.rime.hand, t.get Reg.FRM_LATE_COUNT, t.get Reg.FRM_EARLY_COUNT))
theorem test_hand_premises : (hand 0).blockUp = true ∧ (hand 0).inType 9 = 3 := by decide +kernel
theorem test_hand_late : (handed 828331).map (·.2.2) = some ([], 1, 0) := by decide +kernel
theorem test_hand_now : handed 828332 = some (true, 1, [], 0, 0) ∧ handed 1036664 = some (true, 1, [], 0, 0) := ⟨by decide +kernel, by decide +kernel⟩
theorem test_hand_next : (handed 1036665).map (·.2.2) = some ([(7, true)], 0, 0) ∧ (handed 1244997).map (·.2.2) = some ([(7, true)], 0, 0) :=
  ⟨by decide +kernel, by decide +kernel⟩
theorem test_hand_early : (handed 1244998).map (·.2.2) = some ([], 0, 1) := by decide +kernel
theorem test_hand_same : seen (exec (.debounceChange 7 false 0) (hand 0)) (fun t => (t.rime.differs, t.on (inputFld 7))) = some ([], false) := by
  decide +kernel
theorem test_hand_differs : seen (exec (.debounceChange 7 true 0) (hand 2)) (fun t => (t.rime.differs, t.on (inputFld 7))) = some ([7], false) := by
  decide +kernel
theorem test_hand_unmapped : seen (exec (.debounceChange 32 true 0) (hand 0)) (fun t => (t.on (inputFld 32), t.rime.hand)) = some (true, []) := by
  decide +kernel
theorem test_debounce_count : let s := { hand 3 with rime := { (hand 3).rime with differs := [7], counts := [(7, 1)] } }
    (s.debounceTick).on (inputFld 7) = false ∧ (s.debounceTick.debounceTick).on (inputFld 7) = true := ⟨by decide +kernel, by decide +kernel⟩
/-- Record 0 sends output word 4 to queue 5. -/
def publishing : State :=
  let s := (ingress 0).setImg (recOff 0 0) (BitVec.ofNat 36 (2 ^ 35 + 4))
  { s.setImg (recOff 0 1) (BitVec.ofNat 36 (1 * 2 ^ 34 + 5)) with rime := { s.rime with egress := some ⟨4, line.instant 4, true, 2000, false⟩ } }
theorem test_egress_none : running.rime.egress = none ∧ seen (exec .egressPublication running) (fun t => t.msgs) = some [] :=
  ⟨by decide +kernel, by decide +kernel⟩
theorem test_egress : publishing.records = [0] ∧ publishing.recordOk 0 = true ∧ publishing.withheld ⟨4, line.instant 4, true, 2000, false⟩ 0 = none ∧
    publishing.recordPath 0 = 1 ∧ publishing.mirrorOf (imageBase + recOff 0 3) = none ∧
    seen (exec .egressPublication publishing) (fun t => (t.qCount 5, t.img (recOff 0 3), t.rime.egress.isNone)) = some (2, 4, true) :=
  ⟨by decide +kernel, by decide +kernel, by decide +kernel, by decide +kernel, by decide +kernel, by decide +kernel⟩

/-! ## Distributor and scheduler -/

def source (n : Nat) : BitVec 12 := BitVec.ofNat 12 n
theorem two_settled : two.Settled := by
  intro src h h'
  have : src = 1 ∨ src = 2 ∨ src = 3 ∨ src = 4 ∨ src = 5 ∨ src = 6 ∨ src = 7 := by omega
  rcases this with e | e | e | e | e | e | e <;> subst e <;> decide +kernel
-- sources 15 and 16: a unit's line may not be asserted
theorem test_irq_unit_source : seen (exec (.irqAssert (source 15)) two) (fun t => (t.irqPend 15, t.on Reg.IRQ_STAT_BADSRC)) = some (false, true) := by
  decide +kernel
theorem test_irq_first_source : seen (exec (.irqAssert (source 16)) two) (fun t => (t.irqLine 16, t.irqPend 16)) = some (true, true) := by decide +kernel
theorem test_irq_pulse_counts : seen (exec (.irqPulse (source 16)) (two.put (Reg.IRQ_ST_PEND 16) 1)) (fun t =>
    (t.irqLine 16, t.get (Reg.IRQ_ST_CNT 16))) = some (false, 1) := by decide +kernel
theorem test_irq_count_full : seen (exec (.irqPulse (source 16)) ((two.put (Reg.IRQ_ST_PEND 16) 1).put (Reg.IRQ_ST_CNT 16) 15)) (fun t =>
    (t.get (Reg.IRQ_ST_CNT 16), t.on (Reg.IRQ_ST_SAT 16), t.get Reg.IRQ_LOST_COUNT)) = some (15, true, 1) := by decide +kernel
theorem test_irq_level : let s := two.put (Reg.IRQ_ST_PEND 16) 1
    (if s.irqLevel 16 then true else s.irqPend 16) = true := by decide +kernel
theorem test_irq_deassert : seen (exec (.irqDeassert (source 16)) (two.put (Reg.IRQ_ST_LINE 16) 1)) (fun t => t.irqLine 16) = some false := by decide +kernel
theorem test_irq_pendclr : seen (exec (.irqPendclr (source 20)) (presented 1)) (fun t => t.irqPend 20) = some false := by decide +kernel
theorem test_irq_pendset : seen (exec (.irqPendset (source 9)) two) (fun t => t.irqPend 9) = some true := by decide +kernel
theorem test_irq_lowest : let s := (((presented 1).put (Reg.IRQ_CFG_EN 18) 1).put (Reg.IRQ_CFG_LVEC 18) 3).put (Reg.IRQ_ST_PEND 18) 1
    s.choose 0 = some 18 ∧ slookup 0 (s.present 0).presented = some 18 := ⟨by decide +kernel, by decide +kernel⟩

/-- Level 3 enabled for posts and doorbells, done, not started by the tick. -/
def posted : State :=
  let s := ((two.put (Reg.CELL_LCFG_EN 0 3) 1).put (Reg.CELL_LCFG_POSTE 0 3) 1).put (Reg.CELL_LCFG_TICK 0 3) 0
  { (s.put (Reg.CELL_LSTAT_STATE 0 3) 1) with posts := [(1, 0, 3)], bells := [(0, 3)] }
theorem test_post_wakes : seen (exec (.postArrival 1 0 3) posted) (fun t => (t.get (Reg.CELL_LEV_POST 0 3), t.lvState 0 3, t.posts)) = some (1, 2, []) := by
  decide +kernel
theorem test_post_full : seen (exec (.postArrival 1 0 3) (posted.put (Reg.CELL_LEV_POST 0 3) 255)) (fun t =>
    (t.get (Reg.CELL_LEV_POST 0 3), t.on (Reg.CELL_LEV_SAT 0 3), t.get (Reg.CELL_LDROP_COUNT 0 3))) = some (255, true, 1) := by decide +kernel
theorem test_doorbell_dropped : seen (exec (.doorbell 0 3) posted) (fun t => (t.get (Reg.CELL_LEV_DB 0 3), t.get (Reg.CELL_LDROP_COUNT 0 3), t.bells)) =
    some (0, 1, []) := by decide +kernel
theorem test_timer : let s := ((posted.put (Reg.CELL_TIM_EN 0 3) 1).put (Reg.CELL_LCFG_TIME 0 3) 1).put (Reg.CELL_TREL_RELOAD 0 3) 500
    seen (exec (.timerExpiry 0 3) s) (fun t => (t.get (Reg.CELL_LEV_TIM 0 3), t.get (Reg.CELL_TIM_COUNT 0 3), t.on (Reg.CELL_TIM_EN 0 3))) = some (1, 500, true) := by
  decide +kernel
-- 512 task control words of 32 words fill the store: TCWB 511 holds one task and no second
theorem test_level_enable : let v : Word := BitVec.ofNat 36 (511 * 2 ^ 14)
    seen (exec (.levelEnable 0 5 v) two) (fun t => (t.lvEn 0 5, t.lvState 0 5)) = some (true, 3) ∧
    seen (exec (.levelEnable 0 5 (v + BitVec.ofNat 36 (2 ^ 27))) two) (fun t => (t.lvEn 0 5, t.on (Reg.CELL_STATE_CFGERR 0))) = some (false, true) :=
  ⟨by decide +kernel, by decide +kernel⟩
theorem test_level_disable : seen (exec (.levelDisable 0 0 0) two) (fun t => (t.lvState 0 0, t.running 0)) = some (0, 15) := by decide +kernel
theorem test_loading_end : let s := (posted.put (Reg.CELL_LSTAT_STATE 0 3) 3).setWord (storeKey 0 (posted.slotOf 0) 17) 0x88
    seen (exec (.loadingEnd 0 3) s) (fun t => (t.lvState 0 3, (t.bank 0 3).rc)) = some (1, 0x88) := by decide +kernel
def staged : State := ((live 0 [1]).put (Reg.CELL_LCFG_NTASK 0 0) 1).setTask 0 0 1 2
theorem test_staging : staged.nextTask 0 0 = some 1 ∧ staged.throughput 0 = true ∧ seen (exec (.stagingReady 0) (staged.modCell 0 (fun y => { y with staging := none })))
    (fun t => (t.cell 0).staging.map (fun g => (g.level, g.task))) = some (some (0, 1)) := ⟨by decide +kernel, by decide +kernel, by decide +kernel⟩

/-! ## Queue manager -/

theorem test_channel_starts : seen (exec (.channelDequeue 2 5) (ingress 0)) (fun t => (t.on (Reg.QM_CHST_BUSY 2), t.qm.held.map QReq.plan)) =
    some (true, [.status 5]) := by decide +kernel
theorem test_channel_busy : seen (exec (.channelEnqueue 2 6) ((ingress 0).put (Reg.QM_CHST_BUSY 2) 1)) (fun t => t.qm.held.length) = some 0 := by decide +kernel
theorem test_channel_illegal : seen (exec (.channelIllegalOp 2 true 6) two) (fun t => (t.get (Reg.QM_CHST_ST 2), t.on (Reg.QM_CHST_BUSY 2))) = some (5, false) := by
  decide +kernel
/-- The ring without the ingress source that names it. -/
def ring : State := (ingress 7).put (Reg.IMG_INSRC_EN 3) 0
theorem test_channel_dequeues : let s := { ring.put (Reg.QM_CHST_BUSY 2) 1 with qm := { ring.qm with held := [⟨5, true, .channel 2, .go⟩] } }
    seen (exec (.channelCompletion 2) s) (fun t => (t.qCount 5, t.qHead 5, t.reg (Reg.QM_BUF_DATA 2 1).off, t.get (Reg.QM_CHST_ST 2))) = some (0, 1, 7, 0) := by
  decide +kernel
theorem test_channel_enqueues : let s := { ring.setReg (Reg.QM_BUF_DATA 2 1).off 0x99 with qm := { ring.qm with held := [⟨5, false, .channel 2, .go⟩] } }
    seen (exec (.channelCompletion 2) s) (fun t => (t.qCount 5, t.word 0x2000105)) = some (2, 0x99) := by decide +kernel
theorem test_channel_full : let s := { ring with qm := { ring.qm with held := [⟨5, false, .channel 2, .status 3⟩] } }
    seen (exec (.channelCompletion 2) s) (fun t => (t.qCount 5, t.get (Reg.QM_CHST_ST 2), t.desc 5 3)) = some (1, 3, 1) := by decide +kernel
theorem test_grant : let s := { ring with qm := { ring.qm with waiting := [⟨5, true, .channel 2, .go⟩] } }
    s.reserved 5 true = false ∧ seen (exec (.reservationGrant 5 true) s) (fun t => (t.qm.waiting, t.qm.held.length)) = some ([], 1) :=
  ⟨by decide +kernel, by decide +kernel⟩
theorem test_descriptor_watermark : seen (exec (.descriptorWrite .debug 5 1 (BitVec.ofNat 36 (4 * 2 ^ 17 + 3 * 2 ^ 13 + 9 * 2 ^ 5 + 2))) ring) (fun t => t.qWm 5) =
    some 9 := by decide +kernel
theorem test_descriptor_refused : seen (exec (.descriptorWrite .debug 5 2 3) ring) (fun t => (t.qCount 5, t.get Reg.QM_WERR_COUNT)) = some (1, 1) := by
  decide +kernel
-- causes 1 (LOG2 3 or 25), 2 (COUNT over the size), 3 (a ring outside every store), and a sound descriptor with LOG2 4 and 24
def validate (log cnt base : Nat) : Option (Bool × Nat) :=
  let s := (two.setWord (descAddr 6 0) (BitVec.ofNat 36 base)).setWord (descAddr 6 2) (BitVec.ofNat 36 cnt)
  seen (exec (.descriptorWrite .debug 6 1 (BitVec.ofNat 36 (log * 2 ^ 17 + 2))) s) (fun t => (t.qValid 6, t.get Reg.QM_DERRQ_CAUSE))
theorem test_descriptor_log2 : validate 3 0 0x2000000 = some (false, 1) ∧ validate 25 0 0x2000000 = some (false, 1) ∧ validate 4 0 0x2000000 = some (true, 0) :=
  ⟨by decide +kernel, by decide +kernel, by decide +kernel⟩
theorem test_descriptor_count : validate 4 17 0x2000000 = some (false, 2) ∧ validate 4 16 0x2000000 = some (true, 0) := ⟨by decide +kernel, by decide +kernel⟩
theorem test_descriptor_place : validate 4 0 0x7000000 = some (false, 3) := by decide +kernel
/-! ## Backplane ports -/

/-- Port 1 on the bus, filter 0 taking every base frame into receive buffer 5; buffer 9 ready to send. -/
def port1 : State :=
  let s := ((running.put (Reg.BP_CTRL_EN 1) 1).put (Reg.BP_STAT_SYNC 1) 1).put (Reg.BP_ERR_STATE 1) 0
  let s := (s.put (filterFld 1 0 0 35 1) 1).put (filterFld 1 0 1 30 6) 5
  let s := (s.put (bufFld 1 5 0 35 1) 1).put (bufFld 1 5 0 34 1) 0
  let s := ((s.put (bufFld 1 9 0 35 1) 1).put (bufFld 1 9 0 34 1) 1).put (bufFld 1 9 1 0 29) 0x40000
  s.put (bufFld 1 9 3 28 4) 2
def got (x : CanFrame) : Host.Outcome State Fault Refusal := exec (.frameReception 1 x 0) port1
theorem test_port_enable : let s := running.put Reg.THAW_STATUS_PHASE 6
    s.timingOk 1 false = true ∧ seen (exec (.portEnable 1 0) s) (fun t => (t.on (Reg.BP_CTRL_EN 1), t.get (Reg.BP_ERR_STATE 1))) = some (true, 3) :=
  ⟨by decide +kernel, by decide +kernel⟩
theorem test_port_timing : let s := running.put (Reg.BP_NBT_NTSEG1 1) 0
    s.timingOk 1 false = false ∧ seen (exec (.portEnable 1 0) s) (fun t => (t.on (Reg.BP_CTRL_EN 1), t.on (Reg.BP_STAT_CFGERR 1))) = some (false, true) :=
  ⟨by decide +kernel, by decide +kernel⟩
theorem test_port_disable : let s := port1.put (Reg.BP_STAT_SYNC 1) 0
    s.onBus 1 = false ∧ seen (exec (.portDisable 1 0) s) (fun t => (t.on (Reg.BP_CTRL_EN 1), t.get (Reg.BP_ERR_STATE 1))) = some (false, 3) :=
  ⟨by decide +kernel, by decide +kernel⟩
theorem test_integration : seen (exec (.busIntegration 1) (port1.put (Reg.BP_ERR_STATE 1) 3)) (fun t => (t.on (Reg.BP_STAT_SYNC 1), t.get (Reg.BP_ERR_STATE 1))) =
    some (true, 0) := by decide +kernel
theorem test_reception : port1.onBus 1 = true ∧ port1.filterFor 1 frame = some (0, 5) ∧ port1.isRx 1 5 = true ∧
    seen (got frame) (fun t => (slookup 5 (t.port 1).shadows).map (fun h => (h.filt, h.frame.data))) = some (some (0, [1, 2])) :=
  ⟨by decide +kernel, by decide +kernel, by decide +kernel, by decide +kernel⟩
-- the filters: the first that matches, one for the other frame format, and none
theorem test_filter_first : (port1.put (filterFld 1 127 0 35 1) 1).filterFor 1 frame = some (0, 5) ∧
    ((port1.put (filterFld 1 0 0 35 1) 0).put (filterFld 1 127 0 35 1) 1).filterFor 1 frame = some (127, 0) := ⟨by decide +kernel, by decide +kernel⟩
theorem test_filter_mask : let s := port1.put (filterFld 1 0 1 0 29) (2 ^ 29 - 1)
    s.filterFor 1 frame = none ∧ (s.put (filterFld 1 0 0 0 29) (0x7FF * 2 ^ 18)).filterFor 1 frame = some (0, 5) := ⟨by decide +kernel, by decide +kernel⟩
theorem test_filter_none : seen (exec (.frameReception 1 { frame with ide := true } 0) port1) (fun t => t.get (Reg.BP_RXDROP_COUNT 1)) = some 1 := by
  decide +kernel
theorem test_filter_urgent : let s := (port1.put (filterFld 1 0 0 31 1) 1).put (bufFld 1 63 0 35 1) 1
    s.filterFor 1 frame = some (0, 63) ∧ seen (exec (.frameReception 1 frame 0) s) (fun t => t.irqPend 9) = some true :=
  ⟨by decide +kernel, by decide +kernel⟩
theorem test_reception_fd : let s := port1.put (Reg.BP_CTRL_FDOE 1) 0
    s.on (Reg.BP_CTRL_FDOE 1) = false ∧ seen (exec (.frameReception 1 { frame with fdf := true } 0) s) (fun t => t.get (Reg.BP_ERR_LEC 1)) = some 2 :=
  ⟨by decide +kernel, by decide +kernel⟩
theorem test_reception_counter : seen (exec (.frameReception 1 frame 0) (port1.put (Reg.BP_ERR_REC 1) 127)) (fun t => t.get (Reg.BP_ERR_REC 1)) = some 126 := by
  decide +kernel
theorem test_leaving_port : let s := (port1.put (Reg.BP_CTRL_EN 1) 0).modPort 1 (fun p => { p with leaving := true })
    s.onBus 1 = true ∧ seen (exec (.frameReception 1 frame 0) s) (fun t => ((t.port 1).leaving, t.get (Reg.BP_ERR_STATE 1))) = some (false, 3) :=
  ⟨by decide +kernel, by decide +kernel⟩
def shadowed : State := port1.modPort 1 (fun p => { p with shadows := [(5, ⟨frame, 0, false⟩)] })
theorem test_transfer : seen (exec (.shadowTransfer 1 5) shadowed) (fun t => (t.get (bufFld 1 5 1 0 29), t.get (bufFld 1 5 3 28 4), (t.port 1).shadows)) =
    some (0x7FF * 2 ^ 18, 2, []) := by decide +kernel
def held5 : State := shadowed.modPort 1 (fun p => { p with lock := some 5 })
theorem test_transfer_locked : seen (exec (.shadowTransfer 1 5) held5) (fun t => (t.port 1).shadows.length) = some 1 := by decide +kernel
theorem test_lock : seen (exec (.bufferLock 1 5) port1) (fun t => (t.port 1).lock) = some (some 5) ∧
    seen (exec (.lockRelease 1 5) held5) (fun t => ((t.port 1).lock, (t.port 1).shadows)) = some (none, []) := ⟨by decide +kernel, by decide +kernel⟩
theorem test_lock_release_plain : seen (exec (.lockRelease 1 5) (port1.modPort 1 (fun p => { p with lock := some 5 }))) (fun t => (t.port 1).lock) = some none := by
  decide +kernel
theorem test_lock_timeout : seen (exec (.lockTimeout 1) (port1.modPort 1 (fun p => { p with lock := some 5 }))) (fun t =>
    ((t.port 1).lock, t.on (Reg.BP_STAT_LOCKTO 1))) = some (none, true) := by decide +kernel
theorem test_recovery : let s := port1.put (Reg.BP_ERR_STATE 1) 2
    seen (exec (.recover 1) s) (fun t => (t.port 1).recovering) = some true ∧
    seen (exec (.busOffRecoveryEnd 1) (s.modPort 1 (fun p => { p with recovering := true }))) (fun t => t.get (Reg.BP_ERR_STATE 1)) = some 0 :=
  ⟨by decide +kernel, by decide +kernel⟩
theorem test_request : seen (exec (.transmitRequest 1 9) port1) (fun t => (t.on (reqFld 1 9), t.get (txstFld 1 9))) = some (true, 1) := by decide +kernel
def requested : State := (port1.put (reqFld 1 9) 1).put (txstFld 1 9) 1
theorem test_withdraw : seen (exec (.transmitWithdraw 1 9) requested) (fun t => (t.on (reqFld 1 9), t.get (txstFld 1 9))) = some (false, 0) := by decide +kernel
theorem test_frame_start : requested.rxOnly 1 = false ∧ requested.notSendable 1 9 = false ∧ requested.windowOpen 1 9 0 = true ∧
    seen (exec (.frameStart 1 0) requested) (fun t => (t.port 1).tx.map (fun x => (x.buf, x.frame.dlc))) = some (some (9, 2)) :=
  ⟨by decide +kernel, by decide +kernel, by decide +kernel, by decide +kernel⟩
def sending (again closed missed : Bool) : State :=
  requested.modPort 1 (fun p => { p with tx := some ⟨9, port1.frameOf 1 9, again, closed, missed, false⟩ })
/-- REQ, TXST and the frame in progress after a frame's end. -/
def endsAs (e : TxEnd) (again closed missed : Bool) : Option (Bool × Nat × Bool) :=
  seen (exec (.frameEnd 1 e none) (sending again closed missed)) (fun t => (t.on (reqFld 1 9), t.get (txstFld 1 9), (t.port 1).tx.isSome))
theorem test_frame_sent : endsAs .sent false false false = some (false, 2, false) ∧ endsAs .sent true false false = some (true, 1, false) ∧
    endsAs .sent false true true = some (false, 3, false) := ⟨by decide +kernel, by decide +kernel, by decide +kernel⟩
theorem test_frame_lost : endsAs .lostArbitration false false false = some (true, 1, false) ∧ endsAs .error false true false = some (false, 3, false) ∧
    endsAs .error true true false = some (true, 1, false) := ⟨by decide +kernel, by decide +kernel, by decide +kernel⟩
theorem test_request_again : seen (exec (.transmitRequest 1 9) (sending false false false)) (fun t => (t.port 1).tx.map TxNow.again) = some (some true) := by
  decide +kernel
theorem test_window_close : let s := requested.put (bufFld 1 9 2 0 16) 10
    seen (exec (.windowClose 1 9) s) (fun t => (t.on (reqFld 1 9), t.get (txstFld 1 9), t.get (Reg.BP_TXMISS_COUNT 1))) = some (false, 3, 1) := by decide +kernel
theorem test_window_close_sending : seen (exec (.windowClose 1 9) ((sending true false false).put (bufFld 1 9 2 0 16) 10)) (fun t =>
    (t.port 1).tx.map (fun x => (x.closed, x.missed, x.again))) = some (some (true, true, false)) := by decide +kernel
/-- TEC, REC and the state after an error with TEC `tec` before it. -/
def erred (tec : Nat) : Option (Nat × Nat × List (BitVec 8)) :=
  seen (exec (.errorFrame 1 3 8 0) (port1.put (Reg.BP_ERR_TEC 1) tec)) (fun t => (t.get (Reg.BP_ERR_STATE 1), t.get (Reg.BP_ERR_TEC 1), t.msgs.map Msg.kind))
-- error passive from 128, bus off past 255
theorem test_error_active : erred 119 = some (0, 127, []) := by decide +kernel
theorem test_error_passive : erred 120 = some (1, 128, [0x50]) := by decide +kernel
theorem test_bus_off : erred 248 = some (2, 255, [0x51]) := by decide +kernel
def held : State := (port1.put Reg.THAW_STATUS_HOLD 1).put (Reg.BP_HOLDID_EN 1) 1
theorem test_hold_frame : seen (exec (.holdStatusFrame 1) held) (fun t => (t.port 1).tx.map (fun x => (x.buf, x.frame.dlc))) = some (some (64, 8)) ∧
    seen (exec (.holdStatusFrame 1) (held.put (Reg.BP_STAT_SYNC 1) 0)) (fun t => (t.port 1).statusDue) = some true := ⟨by decide +kernel, by decide +kernel⟩
theorem test_hold_frame_end : let s := held.modPort 1 (fun p => { p with tx := some ⟨64, port1.frameOf 1 9, false, false, false, false⟩ })
    seen (exec (.frameEnd 1 .sent none) s) (fun t => (t.port 1).status) = some 1 ∧
    seen (exec (.frameEnd 1 .error none) s) (fun t => (t.port 1).statusDue) = some true := ⟨by decide +kernel, by decide +kernel⟩

/-! ## Firn -/

def flash : FlashParams := { mbit := 64, pageBytes := 256, erase64k := true, fourByte := false, quad114 := some (0x6B, 8), quad144 := none,
                             typPP := 14000, mult := 2, eraseOp := 0xD8, tErase := 100000000, suspend := none }
/-- The store ready and empty: a device of 64 Mbit with blank log blocks, the supply good and the hold-up ample. -/
def firn : State :=
  let s := ((two.put Reg.KEEP_STAT_READY 1).put Reg.KEEP_STAT_PH1 1).put Reg.KEEP_CFG_EN 1
  let s := s.put Reg.KEEP_HOLDUP_US 0xFFFFF
  { s with firn := { s.firn with dev := some flash, pfOk := true } }
/-- ST and BUSY after a command. -/
def kept (o : Host.Outcome State Fault Refusal) : Option (Nat × Bool) := seen o (fun t => (t.get Reg.KEEP_CSTAT_ST, t.on Reg.KEEP_CSTAT_BUSY))
theorem test_keep_busy : seen (exec .lock (firn.put Reg.KEEP_CSTAT_BUSY 1)) (fun t => t.on Reg.KEEP_STAT_WERR) = some true := by decide +kernel
theorem test_keep_deverr : kept (exec .format (firn.put Reg.KEEP_STAT_DEVERR 1)) = some (10, false) := by decide +kernel
theorem test_keep_illegal : kept (exec (.keepIllegalOp 10 0) firn) = some (11, false) := by decide +kernel
theorem test_read_missing : kept (exec (.read 7 false false) firn) = some (1, false) ∧ kept (exec (.read 1023 false false) firn) = some (11, false) ∧
    kept (exec (.read 7 false false) (firn.put Reg.KEEP_STAT_READY 0)) = some (7, false) := ⟨by decide +kernel, by decide +kernel, by decide +kernel⟩
theorem test_commit_empty : kept (exec (.commit 0) firn) = some (6, false) := by decide +kernel
-- one record of one word under key 7
theorem test_commit : seen (exec (.commit 2) ((firn.setWord (firnBase + 0x200) (7 * 4096 + 1)).setWord (firnBase + 0x201) 0x99)) (fun t =>
    (t.on Reg.KEEP_CSTAT_BUSY, t.reg Reg.KEEP_SEQ_SEQ.off)) = some (true, 2) := by decide +kernel
theorem test_commit_supply : kept (exec (.commit 2) (({ firn with firn := { firn.firn with pfWarn := true } }.setWord (firnBase + 0x200) (7 * 4096 + 1)))) = some (3, false) := by
  decide +kernel
theorem test_unlock : kept (exec .unlockr firn) = some (0, false) := by decide +kernel
theorem test_unlock_wrong : seen (exec .unlockr (firn.setReg Reg.KEEP_KEY0_KEY.off 5)) (fun t => (t.get Reg.KEEP_CSTAT_ST, t.get Reg.KEEP_STAT_FAIL)) = some (8, 1) := by
  decide +kernel
theorem test_lockout : seen (exec .unlockr ((firn.setReg Reg.KEEP_KEY0_KEY.off 5).put Reg.KEEP_STAT_FAIL 2)) (fun t => t.on Reg.KEEP_STAT_LOCKOUT) = some true ∧
    kept (exec .unlockr (firn.put Reg.KEEP_STAT_LOCKOUT 1)) = some (9, false) := ⟨by decide +kernel, by decide +kernel⟩
theorem test_hotsave : seen (exec .hotsave firn) (fun t => (t.on Reg.KEEP_CSTAT_BUSY, t.firn.saveDue, t.firn.saveReady)) = some (true, true, true) := by decide +kernel
theorem test_format : seen (exec .format firn) (fun t => decide (t.firn.job = some (.format 4))) = some true := by decide +kernel
theorem test_keep_enable : seen (exec (.keepEnable 1) (firn.put Reg.KEEP_CFG_EN 0)) (fun t => (t.on Reg.KEEP_CFG_EN, t.firn.scan)) = some (true, true) := by
  decide +kernel
theorem test_store_ready : seen (exec .storeReady ({ firn.put Reg.KEEP_STAT_READY 0 with firn := { firn.firn with scan := true } })) (fun t =>
    (t.on Reg.KEEP_STAT_READY, t.firn.scan)) = some (true, false) := by decide +kernel
theorem test_format_step : let s := { firn with firn := { firn.firn with job := some (.format 4) } }
    seen (exec (.flashOpComplete true) s) (fun t => ((t.blockOf 4).erases, decide (t.firn.job = some (.format 5)))) = some (1, true) := by decide +kernel
theorem test_flash_idle : seen (exec (.flashOpComplete true) firn) (fun t => t.firn.task.isNone) = some true := by decide +kernel
def saving (left : Nat) (slot : Option Nat) : State := { firn with firn := { firn.firn with save := some ⟨recWords 5 0 0 [], slot, left, true⟩, unread := [3, 4] } }
theorem test_save_page : seen (exec (.flashOpComplete true) (saving 2 (some 9))) (fun t => t.firn.save.map HotWrite.left) = some (some 1) ∧
    seen (exec (.flashOpComplete true) (saving 1 (some 9))) (fun t => (t.firn.save.isNone, t.on Reg.KEEP_IRQ_HOTDONE, t.get Reg.KEEP_CSTAT_ST)) = some (true, true, 0) :=
  ⟨by decide +kernel, by decide +kernel⟩
theorem test_save_prepares : seen (exec (.flashOpComplete true) (saving 10 none)) (fun t => (t.firn.save.bind HotWrite.slot, t.firn.unread)) = some (some 3, [4]) ∧
    seen (exec (.flashOpComplete false) (saving 10 none)) (fun t => (t.get Reg.KEEP_SKIP_COUNT, t.firn.unread)) = some (1, [4]) :=
  ⟨by decide +kernel, by decide +kernel⟩
theorem test_supply : seen (exec .pfWarn firn) (fun t => (t.firn.pfWarn, t.firn.saveDue)) = some (true, true) ∧
    seen (exec .pfOkFall firn) (fun t => t.firn.pfOk) = some false ∧ seen (exec .pfOkRise firn) (fun t => t.firn.pfOk) = some true ∧
    seen (exec .pfWarnFall firn) (fun t => t.firn.pfWarn) = some false := ⟨by decide +kernel, by decide +kernel, by decide +kernel, by decide +kernel⟩
theorem test_hot_save : seen (exec .hotSave { firn with firn := { firn.firn with saveDue := true } }) (fun t => (t.firn.saveDue, t.firn.save.map HotWrite.left)) =
    some (false, some 10) := by decide +kernel
def recording (half : Bool) (n : Nat) : State :=
  { firn with rpr := { firn.rpr with records := [0x100000000] }, firn := { firn.firn with half := half, area2 := List.replicate n none, area3 := [none] } }
theorem test_record_append : (recording false 3).firnIdle = true ∧ seen (exec (.repairRecordAppend true) (recording false 3)) (fun t => (t.firn.half, t.firn.area2.length)) =
    some (true, 4) ∧ seen (exec (.repairRecordAppend true) (recording true 3)) (fun t => (t.firn.half, t.firn.area3.length, t.rpr.records)) = some (false, 2, []) :=
  ⟨by decide +kernel, by decide +kernel, by decide +kernel⟩
theorem test_record_skips : seen (exec (.repairRecordAppend false) (recording false 3)) (fun t => (t.firn.area2.length, t.get Reg.KEEP_SKIP_COUNT)) = some (28, 1) := by
  decide +kernel
theorem test_reclaim_not_due : 4 ≤ firn.freeCount false ∧ seen (exec (.reclaim false) firn) (fun t => t.firn.task.isNone) = some true :=
  ⟨by decide +kernel, by decide +kernel⟩
/-! ## Moraine -/

/-- A command that only closes: it leaves the state as it was. -/
def stays (o : Host.Outcome State Fault Refusal) (s : State) : Bool := seen o (fun t => decide (t = s.close)) == some true

/-- One message of source `src`, kind 0x10, that waits. -/
def telling (src cls info : Nat) : State := { two with msgs := [infoMsg src 0x10 cls info] }
/-- The same with an entry of the log that it merges into. -/
def repeating (cls old : Nat) : State :=
  let s := ((telling 0x411 cls 5).setReg 0x2400 (BitVec.ofNat 36 (0x411 * 2 ^ 24 + 0x10 * 2 ^ 16 + old * 2 ^ 14))).setReg 0x2401 5
  (s.put Reg.MOR_LOGCNT_COUNT 1).put Reg.MOR_LOGHEAD_NEXT 1
theorem test_message : seen (exec .messageTaken (telling 0x411 2 5)) (fun t => (t.msgs, t.get Reg.MOR_CNTU_COUNT, t.on (Reg.MOR_SRCST_FS 0x411),
    t.on (Reg.MOR_SRCST_UU 0x411), t.on Reg.MOR_STAT_FVALID, t.reg 0x2002)) =
      some ([], 1, true, true, true, BitVec.ofNat 36 (0x411 * 2 ^ 24 + 0x10 * 2 ^ 16 + 2 * 2 ^ 14)) := by decide +kernel
theorem test_message_logged : (telling 0x411 2 5).on Reg.MOR_CTRL_LOGEN = true ∧ seen (exec .messageTaken (telling 0x411 2 5)) (fun t =>
    (t.reg 0x2400, t.reg 0x2401, t.get Reg.MOR_LOGCNT_COUNT, t.get Reg.MOR_LOGHEAD_NEXT)) =
      some (BitVec.ofNat 36 (0x411 * 2 ^ 24 + 0x10 * 2 ^ 16 + 2 * 2 ^ 14), 5, 1, 1) := ⟨by decide +kernel, by decide +kernel⟩
theorem test_message_full : seen (exec .messageTaken ((telling 0x411 2 5).put Reg.MOR_LOGCNT_COUNT 256)) (fun t =>
    (t.get Reg.MOR_LOGCNT_COUNT, t.get Reg.MOR_LOGLOST_COUNT, t.get Reg.MOR_LOGTAIL_TAIL)) = some (256, 1, 1) := by decide +kernel
theorem test_message_second : seen (exec .messageTaken ((telling 0x411 1 5).put Reg.MOR_STAT_FVALID 1)) (fun t => (t.on Reg.MOR_STAT_OVF, t.reg 0x2002)) =
    some (true, 0) := by decide +kernel
theorem test_message_escalates : seen (exec .messageTaken (((telling 0x411 1 5).put (Reg.MOR_SRCST_UC 0x411) 1).put Reg.MOR_CTRL_ESCC 1)) (fun t =>
    (t.get Reg.MOR_CNTC_COUNT, t.get Reg.MOR_CNTU_COUNT)) = some (0, 1) := by decide +kernel
theorem test_message_merges : seen (exec .messageTaken (repeating 1 2)) (fun t => (t.get Reg.MOR_CNTC_COUNT, t.get Reg.MOR_CNTU_COUNT, t.get Reg.MOR_LOGCNT_COUNT,
    (t.reg 0x2403).toNat / 2 ^ 20)) = some (0, 1, 1, 1) := by decide +kernel
theorem test_messages_none : stays (exec .messageTaken two) two = true := by decide +kernel
theorem test_ack_source : let s := ((two.put (Reg.MOR_SRCST_UC 0x411) 1).put (Reg.MOR_SRCST_UF 0x411) 1).put (Reg.MOR_SRCST_FS 0x411) 1
    seen (exec (.morAckSrcv 0x411) s) (fun t => (t.on (Reg.MOR_SRCST_UC 0x411), t.on (Reg.MOR_SRCST_UF 0x411), t.on (Reg.MOR_SRCST_FS 0x411))) =
      some (false, false, true) ∧ seen (exec .morAckAll s) (fun t => t.on (Reg.MOR_SRCST_UF 0x411)) = some false := ⟨by decide +kernel, by decide +kernel⟩
-- the sources at the ends of R458's ranges, and the first ones that are none
theorem test_ack_ends : [0, 0x10F, 0x200, 0x20F, 0x400, 0x413].all (fun n => seen (exec (.morAckSrcv (BitVec.ofNat 12 n)) (two.put (Reg.MOR_SRCST_UC n) 1))
      (fun t => t.on (Reg.MOR_SRCST_UC n)) == some false) = true ∧
    [0x110, 0x1FF, 0x210, 0x3FF, 0x414].all (fun n => seen (exec (.morAckSrcv (BitVec.ofNat 12 n)) two) (fun t => decide (t = two.close)) == some true) = true :=
  ⟨by decide +kernel, by decide +kernel⟩
def quiet (n : Nat) : State := ((running.put (Reg.MOR_SRCST_FS 0x411) 1).put (Reg.MOR_SRCST_QUIET 0x411) n).put Reg.MOR_QUIET_FRAMES 3
theorem test_quiet_exit : seen (exec (.quietExit 0x411) (quiet 3)) (fun t => (t.on (Reg.MOR_SRCST_FS 0x411), t.get Reg.MOR_RECOV_COUNT)) = some (false, 1) ∧
    seen (exec (.quietExit 0x411) (quiet 2)) (fun t => t.on (Reg.MOR_SRCST_FS 0x411)) = some true := ⟨by decide +kernel, by decide +kernel⟩
theorem test_ack_first : seen (exec .morAckFirst ((two.put Reg.MOR_STAT_FVALID 1).put Reg.MOR_STAT_OVF 1)) (fun t =>
    (t.on Reg.MOR_STAT_FVALID, t.on Reg.MOR_STAT_OVF)) = some (false, true) := by decide +kernel
theorem test_log_pop : seen (exec (.morLogpop 5) (two.put Reg.MOR_LOGCNT_COUNT 3)) (fun t => (t.get Reg.MOR_LOGCNT_COUNT, t.get Reg.MOR_LOGTAIL_TAIL)) = some (0, 3) ∧
    seen (exec (.morLogpop 2) ((two.put Reg.MOR_LOGCNT_COUNT 3).put Reg.MOR_LOGTAIL_TAIL 255)) (fun t => (t.get Reg.MOR_LOGCNT_COUNT, t.get Reg.MOR_LOGTAIL_TAIL)) =
      some (1, 1) := ⟨by decide +kernel, by decide +kernel⟩
theorem test_first_read : seen (exec .morFirst0Read two) (fun t => t.on Reg.MOR_STAT_FREAD) = some true := by decide +kernel

/-! ## Repair -/

/-- The spare of cluster 0 is slot 16, in use as such. -/
def spared : State := two.put (Reg.RPR_SP_STATE 0) 1
def answer (o : Host.Outcome State Fault Refusal) : Option (Nat × Bool) := seen o (fun t => (t.get Reg.RPR_CSTAT_ST, t.on Reg.RPR_CSTAT_BUSY))
theorem test_repair_busy : seen (exec (.migrate 0) (spared.put Reg.RPR_CSTAT_BUSY 1)) (fun t => t.on Reg.RPR_STAT_CMDERR) = some true := by decide +kernel
theorem test_repair_illegal : answer (exec (.rprIllegalOp 4 0) spared) = some (2, false) ∧ answer (exec (.rprIllegalOp 0 0) spared) = some (2, false) :=
  ⟨by decide +kernel, by decide +kernel⟩
theorem test_migrate : seen (exec (.migrate 3) spared) (fun t => (t.on Reg.RPR_CSTAT_BUSY, t.get (Reg.RPR_SP_STATE 0), t.rpr.migs)) =
    some (true, 4, [⟨0, 3, 3, 16, 7, false, false⟩]) := by decide +kernel
theorem test_migrate_no_spare : answer (exec (.migrate 3) (spared.put (Reg.RPR_SP_SLOT 0) 31)) = some (1, false) := by decide +kernel
theorem test_migrate_defective : answer (exec (.migrate 3) (spared.put (Reg.CLU_RUNSTAT_STATE 0) 4)) = some (3, false) := by decide +kernel
theorem test_slot_test : seen (exec (.test 0 16) spared) (fun t => (t.rpr.test, t.get (Reg.RPR_SP_STATE 0))) = some (some (0, 16), 5) ∧
    answer (exec (.test 0 17) spared) = some (2, false) ∧ answer (exec (.test 0 3) spared) = some (3, false) :=
  ⟨by decide +kernel, by decide +kernel, by decide +kernel⟩
def tested : State := { spared with rpr := { spared.rpr with test := some (0, 16) } }
theorem test_slot_passes : seen (exec (.testEnd 0 16 true) tested) (fun t => (t.rpr.test, t.rpr.passed, t.get Reg.RPR_CSTAT_ST, t.get (Reg.RPR_SP_STATE 0))) =
    some (none, [16], 0, 1) := by decide +kernel
theorem test_slot_fails : seen (exec (.testEnd 0 16 false) tested) (fun t => (t.rpr.passed, t.get Reg.RPR_CSTAT_ST, t.msgs)) =
    some ([], 4, [infoMsg 0x40D 0x8B 2 16]) := by decide +kernel
/-- Slot 16 retired, with a pass. -/
def retired : State :=
  let s := (two.put (Reg.RPR_SP_SLOT 0) 31).put (slotFld 0 16) 2
  { s with rpr := { s.rpr with passed := [16] } }
theorem test_restore : answer (exec (.restore 0 17) retired) = some (2, false) ∧ answer (exec (.restore 0 16) spared) = some (1, false) ∧
    answer (exec (.restore 0 16) { retired with rpr := two.rpr }) = some (3, false) ∧
    seen (exec (.restore 0 16) retired) (fun t => (t.slotState 0 16, t.get (Reg.RPR_SP_SLOT 0), t.rpr.passed)) = some (1, 16, []) :=
  ⟨by decide +kernel, by decide +kernel, by decide +kernel, by decide +kernel⟩
/-- The self-test of the pair 0 of cluster 0 after a mismatch. -/
def localising (got : List (Nat × Bool)) : State := { (two.put Reg.RPR_CTRL_AUTO 1).put (Reg.RPR_SP_SLOT 0) 31 with rpr := { two.rpr with loc := [⟨0, true, got⟩] } }
theorem test_localise : seen (exec (.testEnd 0 1 true) (localising [])) (fun t => t.rpr.loc) = some [⟨0, true, [(1, true)]⟩] ∧
    seen (exec (.testEnd 0 0 false) (localising [])) (fun t => (t.rpr.loc, t.slotState 0 0, t.pins, t.rpr.doomed)) =
      some ([⟨0, true, [(0, false)]⟩], 3, [0], [0]) := ⟨by decide +kernel, by decide +kernel⟩
theorem test_check_error : (spared.on Reg.RPR_CTRL_AUTO) = true ∧ seen (exec (.cellCheckError 0 3) spared) (fun t => (t.slotState 0 3, t.pins, t.failed 3, t.rpr.migs.map Migration.new)) =
    some (3, [3], true, [16]) := ⟨by decide +kernel, by decide +kernel⟩
theorem test_check_spare : seen (exec (.cellCheckError 0 16) spared) (fun t => (t.slotState 0 16, t.get (Reg.RPR_SP_SLOT 0), t.on Reg.RPR_STAT_NOSPARE)) =
    some (2, 31, true) := by decide +kernel
theorem test_check_none : stays (exec (.cellCheckError 0 17) spared) spared = true := by decide +kernel
theorem test_snapshot : let snap : Snapshot := { banks := [], staging := none, sets := [], regs := [], tags := [] }
    seen (exec (.snapshotDrainEnd 0) { spared with rpr := { spared.rpr with drains := [(0, snap)] } }) (fun t => (t.rpr.snaps, t.rpr.drains)) = some ([(0, snap)], []) ∧
    stays (exec (.snapshotDrainEnd 0) spared) spared = true := ⟨by decide +kernel, by decide +kernel⟩
theorem test_copy_none : stays (exec (.migrationCopyEnd 0) spared) spared = true := by decide +kernel
def moving : State := { spared with rpr := { spared.rpr with migs := [⟨0, 3, 3, 16, 7, false, false⟩] } }
theorem test_copy : let s := (moving.put Reg.FRM_STAT_RUN 1).setWord (storeKey 0 3 0x20) 0x77
    seen (exec (.migrationCopyEnd 0) s) (fun t => (t.word (storeKey 0 16 0x20), t.rpr.migs.map Migration.due, t.slotOf 3)) = some (0x77, [true], 3) := by decide +kernel
theorem test_moved : moving.rimeRun = false ∧ seen (exec (.migrationCopyEnd 0) moving) (fun t => (t.slotOf 3, t.slotState 0 3, t.get (Reg.RPR_SP_SLOT 0), t.get Reg.RPR_MIGCNT_COUNT)) =
    some (16, 1, 3, 1) := ⟨by decide +kernel, by decide +kernel⟩
-- a lowering and a rise of the temperature at the ends of their ranges
def measured (temp margin cur : Nat) : Option (Nat × List Nat × List Nat × List (BitVec 8)) :=
  let s := (((two.put Reg.RPR_TLIM_TWARN 90).put Reg.RPR_TLIM_TCRIT 110).put Reg.RPR_TLIM_WLIM 10).put (Reg.RPR_CLK_CUR 0) cur
  seen (exec (.clockStepLowering 0 (BitVec.ofNat 6 margin) (BitVec.ofNat 9 temp)) (s.put (Reg.RPR_CLK_FLOOR 0) 3)) (fun t => (t.get (Reg.RPR_CLK_CUR 0), t.rpr.hot, t.rpr.slow, t.msgs.map Msg.kind))
theorem test_lowering : measured 89 10 1 = some (1, [], [], []) ∧ measured 90 10 1 = some (2, [], [], [0x87]) ∧ measured 89 9 1 = some (2, [], [], [0x87]) ∧
    measured 90 10 3 = some (3, [], [0], [0x88]) ∧ measured 110 10 1 = some (2, [0], [], [0x89, 0x87]) :=
  ⟨by decide +kernel, by decide +kernel, by decide +kernel, by decide +kernel, by decide +kernel⟩
theorem test_monitor_recovery : seen (exec (.monitorRecovery 0 20 40) two) (fun t => (t.get (Reg.RPR_SENS_MARGIN 0), t.get (Reg.RPR_SENS_TEMP 0))) = some (20, 40) := by
  decide +kernel
theorem test_calibration : seen (exec (.calibration 0 false) (two.put Reg.RPR_CTRL_CALEN 1)) (fun t => (t.get Reg.RPR_CALSTARVE_COUNT, t.msgs.map Msg.kind)) =
    some (1, [0x8C]) ∧ stays (exec (.calibration 0 false) (two.put Reg.RPR_CTRL_CALEN 0)) (two.put Reg.RPR_CTRL_CALEN 0) = true := ⟨by decide +kernel, by decide +kernel⟩
theorem test_row_none : stays (exec .fieldRowRepair two) two = true := by decide +kernel
/-! ## Memories, regions, the fabric and the slave port -/

/-- The scrubber of cluster 0's memory reads word 0x100 next. -/
def scrubbing (yields : Nat) : State := (two.setWord 0x2000100 0x21).setScrubber (.cluster 0) ⟨0x100, yields⟩
def scrubbed (o : Host.Outcome State Fault Refusal) : Option (Nat × Nat × List Msg) :=
  seen o (fun t => ((t.scrubberAt (.cluster 0)).pos, (t.scrubberAt (.cluster 0)).yields, t.msgs))
theorem test_scrub : scrubbed (exec (.scrub (.cluster 0) .clean false) (scrubbing 3)) = some (0x101, 0, []) ∧
    scrubbed (exec (.scrub (.cluster 0) .single false) (scrubbing 3)) = some (0x101, 0, [addrMsg 0x200 1 1 0x2000100]) ∧
    scrubbed (exec (.scrub (.cluster 0) .double false) (scrubbing 3)) = some (0x101, 0, [addrMsg 0x200 2 2 0x2000100]) :=
  ⟨by decide +kernel, by decide +kernel, by decide +kernel⟩
theorem test_scrub_yields : scrubbed (exec (.scrub (.cluster 0) .clean true) (scrubbing 1022)) = some (0x100, 1023, []) ∧
    seen (exec (.scrub (.cluster 0) .clean true) (scrubbing 1023)) (fun t => ((t.scrubberAt (.cluster 0)).pos, t.get Reg.BLK_SCRFORCE_COUNT)) = some (0x101, 1) :=
  ⟨by decide +kernel, by decide +kernel⟩
theorem test_scrub_off : stays (exec (.scrub (.cluster 0) .double false) (two.put Reg.BLK_SCRCTL_EN 0)) (two.put Reg.BLK_SCRCTL_EN 0) = true := by decide +kernel
theorem test_scrub_tags : let s := ((scrubbing 0).setTag 0x2000200 true)
    seen (exec (.scrub (.clusterTags 0) .tagsDiffer false) (s.setScrubber (.clusterTags 0) ⟨0x100, 0⟩)) (fun t => (t.tagOf 0x2000200, t.msgs)) =
      some (false, [addrMsg 0x200 3 2 0x2000200]) := by decide +kernel
theorem test_scrub_spare : seen (exec (.scrub (.control 0 16) .double false) spared) (fun t => (t.slotState 0 16, t.get (Reg.RPR_SP_SLOT 0))) = some (2, 31) := by
  decide +kernel
theorem test_scrub_starves : let s := two.setScrubber (.store 0 3) ⟨5, 2 ^ 20 - 1⟩
    seen (exec (.scrub (.store 0 3) .clean true) s) (fun t => (t.get Reg.BLK_SCRSTARVE_COUNT, t.msgs.map Msg.kind)) = some (1, [4]) ∧
    seen (exec (.scrubberStarved (.store 0 3)) (two.setScrubber (.store 0 3) ⟨5, 7⟩)) (fun t => t.get Reg.BLK_SCRSTARVE_COUNT) = some 1 ∧
    stays (exec (.scrubberStarved (.cluster 0)) two) two = true := ⟨by decide +kernel, by decide +kernel, by decide +kernel⟩
/-- Region 1 of domain 2 prepared over `size` units of 64 words of cluster 0's memory. -/
def prepared (size : Nat) : State := ((two.setReg (0x20000 + 4 * 17 + 1) (BitVec.ofNat 36 size)).setReg (0x20000 + 4 * 17 + 2) (BitVec.ofNat 36 0x2000000)).setReg (0x20000 + 4 * 17 + 3) 0
def installed (o : Host.Outcome State Fault Refusal) : Option (Bool × Nat) := seen o (fun t => ((slookup 17 t.installed).isSome, (t.reg 0x30).toNat % 8))
theorem test_install : installed (exec (.regionInstall .debug 2 1 0x800010000) (prepared 1)) = some (true, 0) := by decide +kernel
-- SIZE 0; a region wholly inside the home region, and one that ends above it; one past 2^32, and one that ends there; all of a cluster's memory, and one unit more
theorem test_install_ends : installed (exec (.regionInstall .debug 2 1 0x800000400) (prepared 0)) = some (false, 1) ∧
    installed (exec (.regionInstall .debug 2 1 0x800000000) (prepared 0x100)) = some (false, 2) ∧
    installed (exec (.regionInstall .debug 2 1 0x800003FC0) (prepared 0x101)) = some (true, 0) ∧
    installed (exec (.regionInstall .debug 2 1 0x8FFFFFFC0) (prepared 2)) = some (false, 2) ∧
    installed (exec (.regionInstall .debug 2 1 0x8FFFFFFC0) (prepared 1)) = some (true, 0) ∧
    installed (exec (.regionInstall .debug 2 1 0x800010000) (prepared 0x1000)) = some (true, 0) ∧
    installed (exec (.regionInstall .debug 2 1 0x800010000) (prepared 0x1001)) = some (false, 3) :=
  ⟨by decide +kernel, by decide +kernel, by decide +kernel, by decide +kernel, by decide +kernel, by decide +kernel, by decide +kernel⟩
theorem test_uninstall : seen (exec (.regionInstall .debug 2 1 0x10000) { prepared 1 with installed := [(17, ⟨0x400, 1, 0x2000000, false, false, 0⟩)] })
    (fun t => (slookup 17 t.installed).isSome) = some false := by decide +kernel
/-- A transaction of cell 0 at port 0 with TAG 3. -/
def transacting (x : FabTx) : State := { two with fab := { two.fab with txs := [x] } }
def fabWrite : FabTx := ⟨0, 3, 0, fabricBase, 1, true, false, false, false, [], .write, 0, false⟩
theorem test_fabric_none : stays (exec (.fabricResponse 0 3 0 []) two) two = true ∧ stays (exec (.retryReissue 0 3) two) two = true := ⟨by decide +kernel, by decide +kernel⟩
theorem test_fabric_write : seen (exec (.fabricResponse 0 3 0 []) (transacting fabWrite)) (fun t => (t.fab.txs, t.msgs)) = some ([], []) ∧
    seen (exec (.fabricResponse 0 3 2 []) (transacting fabWrite)) (fun t => (t.fab.txs, t.get (Reg.BLK_FMERR_COUNT 0), t.msgs)) =
      some ([], 1, [addrMsg 0 0x10 2 fabricBase]) := ⟨by decide +kernel, by decide +kernel⟩
theorem test_fabric_retry : seen (exec (.fabricResponse 0 3 1 []) (transacting fabWrite)) (fun t => t.fab.txs.map FabTx.retry) = some [true] ∧
    seen (exec (.retryReissue 0 3) (transacting { fabWrite with retry := true })) (fun t => t.fab.txs.map FabTx.retry) = some [false] ∧
    stays (exec (.retryReissue 0 3) (transacting fabWrite)) (transacting fabWrite) = true ∧
    seen (exec (.fabricResponse 0 3 1 []) (transacting { fabWrite with spec := true, purpose := .prefetch 9 })) (fun t => t.fab.txs) = some [] :=
  ⟨by decide +kernel, by decide +kernel, by decide +kernel, by decide +kernel⟩
theorem test_fabric_timeout : seen (exec (.fabricTimeout 0 3) (transacting fabWrite)) (fun t => (t.fab.txs, t.fab.retired)) = some ([], [(0, 3)]) ∧
    seen (exec (.fabricResponse 0 3 0 []) { two with fab := { two.fab with retired := [(0, 3)] } }) (fun t => (t.fab.retired, t.get (Reg.BLK_FMLATE_COUNT 0))) = some ([], 1) :=
  ⟨by decide +kernel, by decide +kernel⟩
def fabLoad (x : FabTx) : State :=
  (transacting { x with wr := false, purpose := .load 5 none }).modCell 0 (fun y =>
    { (y.setBank 0 { y.bank 0 with pend := [((y.bank 0).slot 0, 5)] }) with loads := [⟨5, 0, [((y.bank 0).slot 0, 0)], none, [⟨0x20000, fabricBase, none, false⟩], []⟩] })
theorem test_fabric_load : seen (exec (.fabricResponse 0 3 0 [0x66, 0x77]) (fabLoad fabWrite)) (fun t => ((t.cell 0).loads, (t.bank 0 0).dget ((t.bank 0 0).slot 0), (t.bank 0 0).pend)) =
      some ([], 0x66, []) ∧
    seen (exec (.fabricResponse 0 3 2 []) (fabLoad fabWrite)) (fun t => (((t.bank 0 0).dmark.map SlotMark.code), (t.bank 0 0).pend)) = some ([7], []) :=
  ⟨by decide +kernel, by decide +kernel⟩
def fabDrain : State := (transacting { fabWrite with purpose := .drain }).modCell 0 (fun y =>
  { y with sb := [{ pa := fabricBase, words := [(0x55, 0xF)], tag := false, dev := false, ret := false, bank := 0, issued := true, dbl := false }] })
theorem test_fabric_drain : seen (exec (.fabricResponse 0 3 0 []) fabDrain) (fun t => ((t.cell 0).sb, t.fab.txs)) = some ([], []) ∧
    seen (exec (.fabricResponse 0 3 2 []) fabDrain) (fun t => ((t.cell 0).sb, t.msgs)) = some ([], [addrMsg 0 0x10 2 fabricBase]) := ⟨by decide +kernel, by decide +kernel⟩
theorem test_credit : seen (exec (.creditReturn 2) two) (fun t => (t.fab.credits.toList, t.fab.qinit.toList)) = some ([0, 0, 1, 0], [true, true, false, true]) ∧
    seen (exec (.creditReturn 2) { two with fab := { two.fab with credits := #v[0, 0, 64, 0] } }) (fun t => t.fab.credits.toList) = some [0, 0, 64, 0] ∧
    seen (exec (.creditReturn 0) (transacting { fabWrite with unsent := 2 })) (fun t => (t.fab.txs.map FabTx.unsent, t.fab.credits.toList)) = some ([1], [0, 0, 0, 0]) :=
  ⟨by decide +kernel, by decide +kernel, by decide +kernel⟩
/-- The chip holds `n` credits; a doubleword stands at 0x2000100. -/
def granted (n : Nat) : State := { (scrubbing 0).setWord 0x2000101 0x22 with slave := { two.slave with credits := n } }
def accessed (o : Host.Outcome State Fault Refusal) : Option (Option (BitVec 8 × Answer)) := seen o (fun t => t.slave.last)
theorem test_slave_credits : stays (exec (.slaveMemoryAccess 9 0x2000100 false [(0xFF, 0)]) (granted 0)) (granted 0) = true ∧
    stays (exec (.slaveMemoryAccess 9 0x2000100 true [(0xFF, 0)]) (granted 1)) (granted 1) = true := ⟨by decide +kernel, by decide +kernel⟩
theorem test_slave_read : accessed (exec (.slaveMemoryAccess 9 0x2000101 false [(0xFF, 0)]) (granted 1)) = some (some (9, .okay [dword 0x21 0x22])) := by decide +kernel
theorem test_slave_write : seen (exec (.slaveMemoryAccess 9 0x2000100 true [(0x10, dword 0 0x1FF)]) (granted 2)) (fun t => (t.word 0x2000100, t.word 0x2000101, t.slave.last)) =
    some (0x21, 0x1FF, some (9, .okay [])) := by decide +kernel
theorem test_slave_hole : seen (exec (.slaveMemoryAccess 9 0x7000000 false [(0xFF, 0)]) (granted 1)) (fun t => (t.slave.last, t.get Reg.BLK_SPERR_COUNT)) =
    some (some (9, .error), 1) := by decide +kernel
theorem test_slave_bad_word : seen (exec (.slaveMemoryAccess 9 0x2000100 false [(0x0F, 0)]) ((granted 1).setEcc 0x2000100 true)) (fun t => (t.slave.last, t.msgs)) =
    some (some (9, .error), [addrMsg 0x200 2 2 0x2000100]) := by decide +kernel
theorem test_slave_retry : let s := { granted 1 with thaw := { two.thaw with started := true } }.put Reg.THAW_STATUS_PHASE 2
    s.underTest 0x2000100 = true ∧ accessed (exec (.slaveMemoryAccess 9 0x2000100 false [(0xFF, 0)]) s) = some (some (9, .retry)) := ⟨by decide +kernel, by decide +kernel⟩
theorem test_register_write : seen (exec (.registerWrite .debug 0x2000 0xF 15 []) two) (fun t => t.reg 0x2000) = some 7 := by decide +kernel
theorem test_register_partial : seen (exec (.registerWrite .slave 0x2000 0xF 7 []) (granted 2)) (fun t => (t.slave.last, t.reg 0x2000)) =
    some (some (0, .error), two.reg 0x2000) := by decide +kernel
theorem test_register_both : seen (exec (.registerWrite .debug 0x2000 3 15 [(.slave, 5)]) (granted 2)) (fun t => (t.reg 0x2000).toNat % 8) = some 5 ∧
    masterRank .debug < masterRank .slave := ⟨by decide +kernel, by decide +kernel⟩
theorem test_register_read : accessed (exec (.registerReadClear 0x2000) (granted 1)) = some (some (0, .okay [dword (two.reg 0x2000) 0])) := by decide +kernel

/-! ## The load verifier -/

def receiving (n : Nat) : State := { two.put Reg.LDV_STAT_STATE 1 with ldv := { two.ldv with buf := List.replicate n 0, target := 1 } }
def verifier (o : Host.Outcome State Fault Refusal) : Option (Nat × Nat) := seen o (fun t => (t.get Reg.LDV_STAT_STATE, t.get Reg.LDV_STAT_CODE))
theorem test_ldv_start : [0, 4, 5].all (fun st => verifier (exec (.ldvStart 3) (two.put Reg.LDV_STAT_STATE st)) == some (1, 0)) = true ∧
    [1, 2, 3].all (fun st => verifier (exec (.ldvStart 3) (two.put Reg.LDV_STAT_STATE st)) == some (st, 0)) = true := ⟨by decide +kernel, by decide +kernel⟩
theorem test_ldv_abort : verifier (exec .ldvAbort (receiving 3)) = some (5, 10) ∧ verifier (exec .ldvAbort ((receiving 3).put Reg.LDV_STAT_STATE 2)) = some (5, 10) ∧
    verifier (exec .ldvAbort two) = some (0, 0) := ⟨by decide +kernel, by decide +kernel, by decide +kernel⟩
theorem test_ldv_length : verifier (exec (.ldvData 8124) (receiving 4)) = some (1, 0) ∧ verifier (exec (.ldvData 8126) (receiving 4)) = some (5, 9) ∧
    verifier (exec (.ldvData 3) (receiving 4)) = some (5, 9) := ⟨by decide +kernel, by decide +kernel, by decide +kernel⟩
theorem test_ldv_last : verifier (exec (.ldvData 0) (receiving 67)) = some (2, 0) ∧ verifier (exec (.ldvData 0) (receiving 66)) = some (1, 0) := ⟨by decide +kernel, by decide +kernel⟩
theorem test_ldv_header : verifier (exec .verify ((receiving 68).put Reg.LDV_STAT_STATE 2)) = some (5, 1) := by decide +kernel
theorem test_ldv_error : let s := { (receiving 68).put Reg.LDV_STAT_STATE 2 with ldv := { (receiving 68).ldv with bufErr := [(67, true)] } }
    seen (exec .verify s) (fun t => (t.get Reg.LDV_STAT_STATE, t.msgs)) = some (5, [infoMsg 0x410 0x02 2 67]) := by decide +kernel
/-- A base image whose header is sound, with no key delivered. -/
def headed (base : Nat) : State :=
  let b := [0x05AC00256, BitVec.ofNat 36 (2 ^ 18 + base), two.reg 0, BitVec.ofNat 36 (3 * 2 ^ 18), 0]
  { (receiving 68).put Reg.LDV_STAT_STATE 2 with ldv := { (receiving 68).ldv with buf := b ++ List.replicate 63 0 } }
theorem test_ldv_keys : verifier (exec .verify (headed 0)) = some (5, 2) ∧ verifier (exec .verify (headed 1)) = some (5, 2) ∧ verifier (exec .verify (headed 2)) = some (5, 1) :=
  ⟨by decide +kernel, by decide +kernel, by decide +kernel⟩
theorem test_ldv_not_ready : verifier (exec .verify (receiving 3)) = some (1, 0) ∧ verifier (exec .broadcast (receiving 3)) = some (1, 0) := ⟨by decide +kernel, by decide +kernel⟩
theorem test_key : seen (exec (.keyDelivery false (List.replicate 8 7)) two) (fun t => (t.ldv.aes.isSome, t.on Reg.LDV_STAT_KEY)) = some (true, false) ∧
    seen (exec (.keyDelivery true (List.replicate 12 7)) { two with ldv := { two.ldv with aes := some [] } }) (fun t => (t.ldv.hash.isSome, t.on Reg.LDV_STAT_KEY)) = some (true, true) ∧
    seen (exec (.keyDelivery true (List.replicate 11 7)) two) (fun t => t.ldv.hash.isSome) = some false := ⟨by decide +kernel, by decide +kernel, by decide +kernel⟩

/-! ## Thaw -/

def thawing (phase : Nat) : State := (two.put Reg.THAW_STATUS_PHASE phase)
def thawed (o : Host.Outcome State Fault Refusal) : Option (Nat × Bool × Nat × Nat) :=
  seen o (fun t => (t.get Reg.THAW_STATUS_PHASE, t.on Reg.THAW_STATUS_HOLD, t.get Reg.THAW_STATUS_CAUSE, t.get Reg.THAW_STATUS_UNIT))
theorem test_thaw_start : seen (exec .thawStart State.reset) (fun t => (t.thaw.started, t.thaw.fuseReq, t.slave.credits)) = some (true, true, 32) ∧
    seen (exec .thawStart two) (fun t => decide (t = two)) = some true := ⟨by decide +kernel, by decide +kernel⟩
def fusing : State := { thawing 1 with thaw := { two.thaw with fuseReq := true } }
theorem test_fuse : seen (exec (.fuseWord 5) fusing) (fun t => (t.thaw.fuses, t.thaw.fuseReq)) = some ([5], true) ∧
    seen (exec (.fuseWord 0xF00000000) fusing) (fun t => (t.thaw.fuses, t.thaw.fuseReq)) = some ([], false) ∧
    seen (exec (.fuseWord 5) two) (fun t => t.thaw.fuses) = some [] := ⟨by decide +kernel, by decide +kernel, by decide +kernel⟩
theorem test_fuse_timeout : thawed (exec .fuseStreamTimeout fusing) = some (1, true, 1, 0x40F) ∧ stays (exec .fuseStreamTimeout two) two = true := ⟨by decide +kernel, by decide +kernel⟩
-- the tests of Thaw that end a phase show the premises and what the phase writes before its time, a free value, is noted
theorem test_phase1 : (thawing 1).inPhase 1 = true ∧ deviceOk flash = true ∧
    thawed (exec (.phase1End { image with params := some flash } [⟨9, 0⟩] []) (thawing 1)) = some (1, true, 2, 0x40C) :=
  ⟨by decide +kernel, by decide +kernel, by decide +kernel⟩
theorem test_phase1_refused : deviceOk { flash with pageBytes := 512 } = false ∧
    ((thawing 1).takeDevice { image with params := some { flash with pageBytes := 512 } }).msgs = [infoMsg 0x40C 0x60 2 0] := ⟨by decide +kernel, by decide +kernel⟩
theorem test_phase1_waits : stays (exec (.phase1End { image with params := some flash } [] []) fusing) fusing = true ∧
    stays (exec (.phase1End { image with params := some flash } [] []) (thawing 2)) (thawing 2) = true := ⟨by decide +kernel, by decide +kernel⟩
-- densities at both ends of what R439 takes
theorem test_density : [16, 128].all (fun n => deviceOk { flash with mbit := n }) = true ∧ [15, 129, 2049].all (fun n => !deviceOk { flash with mbit := n }) = true ∧
    [129, 2048].all (fun n => deviceOk { flash with mbit := n, fourByte := true }) = true := ⟨by decide +kernel, by decide +kernel, by decide +kernel⟩
theorem test_phase2 : (thawing 2).inPhase 2 = true ∧ thawed (exec (.phase2End [⟨7, 0⟩] [] false) (thawing 2)) = some (2, true, 2, macroUnit ⟨7, 0⟩) ∧
    ((thawing 2).badMacro ⟨4, 3⟩).slotState 0 3 = 2 ∧ ((thawing 2).badMacro ⟨6, 16⟩).thaw.badClusters = [1] :=
  ⟨by decide +kernel, by decide +kernel, by decide +kernel, by decide +kernel⟩
theorem test_phase2_rows : let t := (thawing 2).allotSpares [(⟨0, 5⟩, 9, 2)]
    t.rowsUsed (macroCode ⟨0, 5⟩) = 8 ∧ sget 0 (macroCode ⟨0, 5⟩) t.rpr.cols = 2 := ⟨by decide +kernel, by decide +kernel⟩
theorem test_phase3 : (thawing 3).inPhase 3 = true ∧ thawed (exec (.phase3End [] [] [0x404]) (thawing 3)) = some (3, true, 3, 0x404) :=
  ⟨by decide +kernel, by decide +kernel⟩
theorem test_map : let t := ((thawing 3).unusable 0 3 3 3).buildMap 0
    t.slotOf 3 = 16 ∧ t.slotOf 2 = 2 ∧ t.get (Reg.RPR_SP_SLOT 0) = 31 ∧ t.slotState 0 3 = 2 := ⟨by decide +kernel, by decide +kernel, by decide +kernel, by decide +kernel⟩
theorem test_map_defective : ((((thawing 3).unusable 0 3 3 3).unusable 0 4 3 3).buildMap 0).runState 0 = 4 ∧
    ((((thawing 3).unusable 0 3 3 3).unusable 0 16 3 3).buildMap 0).runState 0 = 4 ∧ (((thawing 3).unusable 0 16 3 3).buildMap 0).runState 0 = 0 :=
  ⟨by decide +kernel, by decide +kernel, by decide +kernel⟩
theorem test_mcdone : let s := (thawing 4).put Reg.LDV_VALID_V 0xFFFF
    s.inPhase 4 = true ∧ (∀ k < 16, s.runState k = 4 ∨ (s.get Reg.LDV_VALID_V).testBit k = true) ∧ stays (exec .mcdone (thawing 5)) (thawing 5) = true :=
  ⟨by decide +kernel, by decide +kernel, by decide +kernel⟩
-- eight slots that fail alike are the slots' own fault; nine are the image's
def alike (n : Nat) : List (Nat × Nat × Nat) := (List.range n).map (fun i => (0, i, 7))
theorem test_phase5 : (thawing 5).inPhase 5 = true ∧ (thawing 5).imageFault (alike 8) = none ∧ (thawing 5).imageFault (alike 9) = some 0 :=
  ⟨by decide +kernel, by decide +kernel, by decide +kernel⟩
theorem test_phase_timeout : [1, 2, 3, 4, 5].all (fun n => decide ((thawing n).thaw.started = true ∧ (thawing n).phase ≤ 5 ∧ (thawing n).on Reg.THAW_STATUS_HOLD = false)) = true ∧
    stays (exec .phaseTimeout two) two = true := ⟨by decide +kernel, by decide +kernel⟩

/-! ## Block reset and the debug port -/

def bitsOf (n w : Nat) : List Bool := (List.range w).map n.testBit
/-- Attached at level 2, cell 0 in Run, cluster 0 stopped in `run`. -/
def attached (run : Nat) : State :=
  let s := ((two.put Reg.DBG_STAT_ATT 1).put Reg.DBG_GRANT_LEVEL 2).put (Reg.CLU_RUNSTAT_STATE 0) run
  { s with dbg := { s.dbg with fuse := 2 } }
def replied (o : Host.Outcome State Fault Refusal) : Option (Option DbgAnswer) := seen o (fun t => t.dbg.last)
theorem test_block_reset : seen (exec (.blockReset .drst) (two.put Reg.DBG_STAT_ATT 1)) (fun t => (t.on Reg.DBG_STAT_ATT, t.get Reg.THAW_STATUS_PHASE, t.thaw.started, t.dbg.powered)) =
      some (false, 1, false, true) ∧
    seen (exec (.blockReset .powerGood) (two.put Reg.DBG_STAT_ATT 1)) (fun t => (t.on Reg.DBG_STAT_ATT, t.dbg.powered)) = some (true, false) := ⟨by decide +kernel, by decide +kernel⟩
theorem test_low : seen (exec .ignoredLow (two.put Reg.DBG_STAT_ATT 1)) (fun t => t.on Reg.DBG_STAT_ATT) = some false := by decide +kernel
theorem test_packet_timeout : seen (exec .packetTimeout two) (fun t => t.get Reg.DBG_PKTERR_COUNT) = some 1 := by decide +kernel
theorem test_domain_reset : seen (exec (.debugDomainReset 2) (two.put Reg.DBG_STAT_ATT 1)) (fun t => (t.on Reg.DBG_STAT_ATT, t.dbg.fuse)) = some (false, 2) := by decide +kernel
theorem test_status : seen (exec (.status (crc8 (bitsOf 0 4))) two) (fun t => (t.dbg.last.isSome, t.get Reg.DBG_PKTERR_COUNT)) = some (true, 0) ∧
    seen (exec (.status (crc8 (bitsOf 0 4) + 1)) two) (fun t => (t.dbg.last.isSome, t.get Reg.DBG_PKTERR_COUNT)) = some (false, 1) := ⟨by decide +kernel, by decide +kernel⟩
theorem test_rate : seen (exec (.rate 2 (crc8 (bitsOf 1 4 ++ bitsOf 2 2))) two) (fun t => t.get Reg.DBG_STAT_RATE) = some 2 ∧
    replied (exec (.rate 3 (crc8 (bitsOf 1 4 ++ bitsOf 3 2))) two) = some (some (.fault 2)) := ⟨by decide +kernel, by decide +kernel⟩
theorem test_attach : seen (exec (.attach (crc8 (bitsOf 2 4 ++ [true]))) two) (fun t => t.on Reg.DBG_STAT_ATT) = some true ∧
    seen (exec (.detach (crc8 (bitsOf 2 4 ++ [false]))) (attached 0)) (fun t => t.on Reg.DBG_STAT_ATT) = some false := ⟨by decide +kernel, by decide +kernel⟩
theorem test_dbg_illegal : replied (exec (.dbgIllegalOp 0 [] (crc8 (bitsOf 0 4))) (attached 0)) = some (some (.fault 2)) ∧
    replied (exec (.dbgIllegalOp 0 [] (crc8 (bitsOf 0 4))) two) = some (some (.fault 8)) ∧
    replied (exec (.dbgIllegalOp 9 [] (crc8 (bitsOf 9 4))) two) = some (some (.fault 8)) ∧
    seen (exec (.dbgIllegalOp 9 [true] (crc8 (bitsOf 9 4 ++ [true]))) two) (fun t => t.get Reg.DBG_PKTERR_COUNT) = some 1 :=
  ⟨by decide +kernel, by decide +kernel, by decide +kernel, by decide +kernel⟩
theorem test_halt : seen (exec (.halt 3) two) (fun t => t.on (Reg.CELL_DCTL_HALT 3)) = some true := by decide +kernel
def rdphy (a : Nat) (s : State) : Host.Outcome State Fault Refusal := execRdphy (BitVec.ofNat 50 a) (crc8 (bitsOf 3 4 ++ bitsOf a 50)) s
def wrphy (a : Nat) (v : Nat) (s : State) : Host.Outcome State Fault Refusal := execWrphy (BitVec.ofNat 50 a) (BitVec.ofNat 36 v) (crc8 (bitsOf 4 4 ++ bitsOf a 50 ++ bitsOf v 36)) s
theorem test_debug_unattached : replied (rdphy 0x2000100 two) = some (some (.fault 8)) := by decide +kernel
theorem test_debug_off : replied (rdphy 0x2000100 { attached 0 with thaw := { two.thaw with started := false } }) = some (some (.fault 7)) := by decide +kernel
theorem test_debug_level : replied (rdphy 0x2000100 ((attached 0).put Reg.DBG_GRANT_LEVEL 0)) = some (some (.fault 1)) ∧
    replied (rdphy 0x2000100 ((attached 0).put Reg.DBG_GRANT_LEVEL 3)) = some (some (.fault 1)) ∧
    replied (wrphy 0x2000100 5 ((attached 0).put Reg.DBG_GRANT_LEVEL 1)) = some (some (.fault 1)) := ⟨by decide +kernel, by decide +kernel, by decide +kernel⟩
theorem test_debug_read : replied (rdphy 0x2000100 ((attached 0).setWord 0x2000100 0x21)) = some (some (.ok 0x21 false)) := by decide +kernel
theorem test_debug_write : seen (wrphy 0x2000100 0x55 (attached 0)) (fun t => t.word 0x2000100) = some 0x55 := by decide +kernel
theorem test_debug_fabric : replied (rdphy fabricBase (attached 0)) = some (some (.fault 3)) ∧ replied (wrphy 0x8001 5 (attached 0)) = some (some (.fault 6)) :=
  ⟨by decide +kernel, by decide +kernel⟩
theorem test_debug_waits : let s := (attached 0).put Reg.THAW_STATUS_PHASE 2
    s.underTest 0x2000100 = true ∧ seen (rdphy 0x2000100 s) (fun t => (t.dbg.last, t.dbg.held)) = some (some .wait, some (.rdphy 0x2000100, none)) := ⟨by decide +kernel, by decide +kernel⟩
theorem test_debug_held : seen (rdphy 0x2000100 { attached 0 with dbg := { (attached 0).dbg with held := some (.rdphy 0x2000100, some (.ok 7 false)) } }) (fun t => (t.dbg.last, t.dbg.held)) =
      some (some (.ok 7 false), none) ∧
    seen (exec .debugHeldAccess { attached 0 with dbg := { (attached 0).dbg with held := some (.wrphy 0x2000100 7, none) } }) (fun t => (t.word 0x2000100, t.dbg.held)) =
      some (7, some (.wrphy 0x2000100 7, some (.ok 0 false))) ∧ stays (exec .debugHeldAccess two) two = true := ⟨by decide +kernel, by decide +kernel, by decide +kernel⟩
def wrcap (a : Nat) (d : Nat) (g : Bool) (s : State) : Host.Outcome State Fault Refusal :=
  execWrcap (BitVec.ofNat 50 a) (BitVec.ofNat 72 d) g (crc8 (bitsOf 5 4 ++ bitsOf a 50 ++ bitsOf d 72 ++ [g])) s
theorem test_wrcap : seen (wrcap 0x2000100 (2 ^ 36 + 9) true (attached 0)) (fun t => (t.word 0x2000100, t.word 0x2000101, t.tagOf 0x2000100)) = some (9, 1, true) ∧
    replied (wrcap 0x2000101 9 true (attached 0)) = some (some (.fault 2)) := ⟨by decide +kernel, by decide +kernel⟩
def spotOf (op c b ix : Nat) : List Bool := bitsOf op 4 ++ bitsOf c 8 ++ bitsOf b 4 ++ bitsOf ix 8
def rdbnk (b ix : Nat) (s : State) : Host.Outcome State Fault Refusal := execRdbnk 0 (BitVec.ofNat 4 b) (BitVec.ofNat 8 ix) (crc8 (spotOf 6 0 b ix)) s
def wrbnk (b ix v : Nat) (s : State) : Host.Outcome State Fault Refusal :=
  execWrbnk 0 (BitVec.ofNat 4 b) (BitVec.ofNat 8 ix) (BitVec.ofNat 36 v) false (crc8 (spotOf 7 0 b ix ++ bitsOf v 36 ++ [false])) s
theorem test_bank_read : replied (rdbnk 0 0x18 (attached 2)) = some (some (.ok 0x4000 false)) ∧ replied (rdbnk 0 0 (attached 2)) = some (some (.ok 7 false)) ∧
    replied (rdbnk 0 1 (attached 2)) = some (some (.ok 5 false)) ∧ replied (rdbnk 0 2 (attached 2)) = some (some (.fault 6)) ∧
    replied (rdbnk 0 0x24 (attached 2)) = some (some (.ok (3 * 2 ^ 32) true)) :=
  ⟨by decide +kernel, by decide +kernel, by decide +kernel, by decide +kernel, by decide +kernel⟩
theorem test_bank_refused : replied (rdbnk 11 0x18 (attached 2)) = some (some (.fault 2)) ∧ replied (rdbnk 0 0x32 (attached 2)) = some (some (.fault 2)) ∧
    replied (rdbnk 0 0x37 (attached 2)) = some (some (.fault 2)) ∧ replied (rdbnk 0 0x41 (attached 2)) = some (some (.fault 2)) ∧
    replied (rdbnk 0 0x18 (attached 0)) = some (some (.fault 5)) := ⟨by decide +kernel, by decide +kernel, by decide +kernel, by decide +kernel, by decide +kernel⟩
theorem test_bank_write : seen (wrbnk 0 0x1F 5 (attached 2)) (fun t => ((t.bank 0 0).dom, t.dbg.last)) = some (5, some (.ok 0 false)) ∧
    seen (wrbnk 0 0x1C 9 (attached 2)) (fun t => (t.bank 0 0).rc) = some 9 ∧ seen (wrbnk 0 1 9 (attached 2)) (fun t => t.top 0 2) = some [7, 9] ∧
    replied (wrbnk 0 0x40 9 (attached 2)) = some (some (.fault 6)) := ⟨by decide +kernel, by decide +kernel, by decide +kernel, by decide +kernel⟩
theorem test_event : seen (execEvent 0 (crc8 (bitsOf 8 4 ++ bitsOf 0 8)) (attached 0)) (fun t => (t.on (Reg.CELL_DCTL_HALT 0), t.dbg.last)) = some (true, some (.ok 0 false)) := by
  decide +kernel

/-! ## Run control and power -/

def runs (n : Nat) : State := (two.put (Reg.CLU_RUNSTAT_STATE 0) n).put Reg.LDV_VALID_V 0xFFFF
def ran (o : Host.Outcome State Fault Refusal) : Option (Nat × Bool × Bool) := seen o (fun t => (t.runState 0, t.on (Reg.CLU_RUNSTAT_WERR 0), t.on (Reg.CLU_RUNSTAT_SERR 0)))
theorem test_stop : ran (exec (.runctlStop 0 1) (runs 0)) = some (1, false, false) ∧ ran (exec (.runctlStop 0 1) (runs 3)) = some (1, false, false) ∧
    ran (exec (.runctlStop 0 1) (runs 1)) = some (1, false, false) ∧ ran (exec (.runctlStop 0 1) (runs 2)) = some (2, false, false) ∧
    ran (exec (.runctlStop 0 1) (runs 4)) = some (4, false, false) := ⟨by decide +kernel, by decide +kernel, by decide +kernel, by decide +kernel, by decide +kernel⟩
theorem test_mode_switch : ran (exec (.runctlStop 0 0) (runs 0)) = some (1, true, false) ∧ seen (exec (.runctlStop 0 0) (runs 2)) (fun t => t.mode 0) = some 0 :=
  ⟨by decide +kernel, by decide +kernel⟩
theorem test_start : ran (exec (.runctlStart 0 1) (runs 2)) = some (3, false, false) ∧ ran (exec (.runctlStart 0 3) (runs 2)) = some (2, false, true) ∧
    ran (exec (.runctlStart 0 1) ((runs 2).put Reg.LDV_VALID_V 0xFFFE)) = some (2, false, true) ∧ ran (exec (.runctlStart 0 1) (runs 0)) = some (0, false, false) ∧
    ran (exec (.runctlStart 0 1) (runs 1)) = some (1, false, false) ∧ ran (exec (.runctlStart 0 1) (runs 3)) = some (3, false, false) ∧
    ran (exec (.runctlStart 0 1) (runs 4)) = some (4, false, false) :=
  ⟨by decide +kernel, by decide +kernel, by decide +kernel, by decide +kernel, by decide +kernel, by decide +kernel, by decide +kernel⟩
theorem test_stopped : ran (exec (.stoppedReached 0) (runs 1)) = some (2, false, false) ∧ stays (exec (.stoppedReached 0) (runs 0)) (runs 0) = true := ⟨by decide +kernel, by decide +kernel⟩
theorem test_warm_reset : seen (exec (.wrst (.cell 0)) (runs 0)) (fun t => (t.running 0, t.get (Reg.CELL_FCAUSE_CODE 0), t.get (Reg.CELL_FCAUSE_INFO 0))) = some (9, 0, 2) ∧
    seen (exec (.wrst (.cell 0)) (runs 2)) (fun t => (t.cell 0).cold) = some 2 ∧ stays (exec (.wrst (.cell 0)) (runs 4)) (runs 4) = true ∧
    seen (exec (.wrst (.cell 0)) ((runs 0).modCell 0 (fun y => { y with sb := (fabDrain.cell 0).sb }))) (fun t => (t.cell 0).resetDue) = some true ∧
    seen (exec (.wrst (.cluster 0)) (runs 2)) (fun t => ((t.cell 0).cold, (t.cell 15).cold)) = some (2, 2) :=
  ⟨by decide +kernel, by decide +kernel, by decide +kernel, by decide +kernel, by decide +kernel⟩
def powers (run p : Nat) : State := (runs run).put (Reg.CLU_PWRSTAT_STATE 0) p
theorem test_retain : seen (exec (.retainRequest 0 true) (powers 0 0)) (fun t => (t.pwr.retainDue, t.get (Reg.CLU_PWRCTL_REQ 0))) = some ([0], 1) ∧
    seen (exec (.retainRequest 0 true) (powers 0 2)) (fun t => t.pwr.retainDue) = some [] := ⟨by decide +kernel, by decide +kernel⟩
theorem test_off : seen (exec (.offRequest 0 true) (powers 0 0)) (fun t => (t.on (Reg.CLU_PWRSTAT_PERR 0), t.power 0)) = some (true, 0) ∧
    ((powers 2 0).runState 0 = 2 ∧ (powers 2 0).power 0 < 3 ∧ ∀ c < 16, ((powers 2 0).cell c).sb = [] ∧ ((powers 2 0).cell c).loads = []) ∧
    seen (exec (.offRequest 0 true) ((powers 2 0).modCell 0 (fun y => { y with sb := (fabDrain.cell 0).sb }))) (fun t => (t.pwr.offDue, t.power 0)) = some ([0], 0) ∧
    seen (exec (.offRequest 0 true) (powers 2 3)) (fun t => t.power 0) = some 3 := ⟨by decide +kernel, by decide +kernel, by decide +kernel, by decide +kernel⟩
theorem test_wake : seen (exec (.wake 0) (powers 0 2)) (fun t => (t.power 0, t.pwr.woken)) = some (0, [0]) ∧
    seen (exec (.wake 0) (powers 2 3)) (fun t => (t.power 0, t.pwr.upDue)) = some (3, [0]) ∧ seen (exec (.wake 0) (powers 0 1)) (fun t => t.power 0) = some 1 :=
  ⟨by decide +kernel, by decide +kernel, by decide +kernel⟩
def dueFor (s : State) (p : Power) : State := { s with pwr := p }
-- entering Retain draws the counts of the timers, free values: the premises, and the cluster that is woken before it enters
theorem test_retain_entry : let s := dueFor (powers 0 0) { Power.reset with retainDue := [0] }
    s.wakes 0 = false ∧ (∀ c < 16, (s.cell c).sb = [] ∧ (s.cell c).loads = []) ∧ stays (exec (.retainEntry 0) (powers 0 0)) (powers 0 0) = true :=
  ⟨by decide +kernel, by decide +kernel, by decide +kernel⟩
theorem test_retain_woken : let s := dueFor ((((powers 0 0).put (Reg.IRQ_CFG_EN 20) 1).put (Reg.IRQ_CFG_LVEC 20) 12).put (Reg.IRQ_CFG_WAKE 20) 1) { Power.reset with retainDue := [0] }
    (s.put (Reg.IRQ_ST_PEND 20) 1).wakes 0 = true := by decide +kernel
theorem test_power_up : seen (exec (.clusterPowerUp 0) (dueFor (powers 2 3) { Power.reset with upDue := [0] })) (fun t => (t.power 0, t.runState 0, t.pwr.upDue)) = some (0, 2, []) ∧
    stays (exec (.clusterPowerUp 0) (powers 2 3)) (powers 2 3) = true := ⟨by decide +kernel, by decide +kernel⟩
theorem test_doze : let s := (powers 0 0).put (Reg.CELL_STATE_BANK 0) 15
    seen (exec (.dozeEntry 0) s) (fun t => t.power 0) = some 1 ∧ stays (exec (.dozeEntry 0) (powers 0 0)) (powers 0 0) = true := ⟨by decide +kernel, by decide +kernel⟩

/-! ## Online edit and the standby port -/

/-- An edit map of one FLUSHI record and its end at word 0 of cell 0's store, level 0 asked. -/
def edits : State := two.setWord (storeKey 0 0 0) (BitVec.ofNat 36 (4 * 2 ^ 32))
def edited (o : Host.Outcome State Fault Refusal) : Option (Nat × Nat) := seen o (fun t => (t.get (Reg.EDIT_STAT_STATE 0), t.get (Reg.EDIT_STAT_CAUSE 0)))
theorem test_edit : edited (exec (.editswap 0 1) edits) = some (1, 0) ∧ seen (exec (.editswap 0 1) edits) (fun t => t.get (Reg.EDIT_COST_CYC 0)) = some 18 :=
  ⟨by decide +kernel, by decide +kernel⟩
theorem test_edit_illegal : edited (exec (.editswap 0 1) (two.setWord (storeKey 0 0 0) (BitVec.ofNat 36 (6 * 2 ^ 32)))) = some (5, 1) ∧
    edited (exec (.editswap 0 2) edits) = some (5, 1) := ⟨by decide +kernel, by decide +kernel⟩
theorem test_edit_unmapped : edited (exec (.editswap 0 1) (edits.setWord (storeKey 0 0 3) 0x40000000)) = some (5, 2) := by decide +kernel
theorem test_edit_dear : edited (exec (.editswap 0 1) (edits.put (Reg.EDIT_WINDOW_CYC 0) 17)) = some (5, 3) ∧
    edited (exec (.editswap 0 1) (edits.put (Reg.EDIT_WINDOW_CYC 0) 18)) = some (1, 0) := ⟨by decide +kernel, by decide +kernel⟩
theorem test_edit_levels : edited (exec (.editswap 0 3) edits) = some (5, 9) ∧ edited (exec (.editswap 0 0) two) = some (5, 9) := ⟨by decide +kernel, by decide +kernel⟩
theorem test_edit_busy : stays (exec (.editswap 0 1) (edits.put (Reg.EDIT_STAT_STATE 0) 1)) (edits.put (Reg.EDIT_STAT_STATE 0) 1) = true ∧
    seen (exec (.editswap 0 1) (edits.put (Reg.EDIT_STAT_STATE 0) 2)) (fun t => (t.get (Reg.EDIT_STAT_STATE 0), t.get (Reg.EDIT_CTRL_LEVELS 0))) = some (2, 1) :=
  ⟨by decide +kernel, by decide +kernel⟩
def armed (waited : Nat) : State := ((edits.put (Reg.EDIT_STAT_STATE 0) 1).put (Reg.EDIT_STAT_WAITED 0) waited).put (Reg.EDIT_TIMEOUT_FRAMES 0) 2
theorem test_edit_cancel : edited (exec (.editCancel 0 1) (armed 0)) = some (4, 5) ∧ edited (exec (.editCancel 0 1) edits) = some (0, 0) := ⟨by decide +kernel, by decide +kernel⟩
theorem test_edit_timeout : edited (exec (.editTimeout 0) (armed 2)) = some (4, 4) ∧ edited (exec (.editTimeout 0) (armed 1)) = some (1, 0) := ⟨by decide +kernel, by decide +kernel⟩
def standby (st : Nat) : State := running.put Reg.STBY_STAT_STATE st
def role (o : Host.Outcome State Fault Refusal) : Option (Nat × Nat × Bool) := seen o (fun t => (t.get Reg.STBY_STAT_STATE, t.get Reg.STBY_CTRL_ROLE, t.on Reg.STBY_STAT_CFGERR))
theorem test_role_active : role (exec (.roleActive false) (standby 0)) = some (1, 1, false) ∧ role (exec (.roleActive false) (standby 1)) = some (1, 1, false) ∧
    role (exec (.roleActive false) (standby 2)) = some (1, 1, false) ∧ role (exec (.roleActive false) (standby 3)) = some (3, 1, false) ∧
    role (exec (.roleActive false) (standby 4)) = some (1, 1, false) ∧ role (exec (.roleActive false) (standby 5)) = some (1, 1, false) ∧
    role (exec (.roleActive false) ((standby 0).put Reg.STBY_MAXL_LINES 1025)) = some (0, 1, true) :=
  ⟨by decide +kernel, by decide +kernel, by decide +kernel, by decide +kernel, by decide +kernel, by decide +kernel, by decide +kernel⟩
theorem test_role_standby : role (exec (.roleStandby false) (standby 0)) = some (2, 2, false) ∧ role (exec (.roleStandby false) (standby 1)) = some (2, 2, false) ∧
    role (exec (.roleStandby false) (standby 2)) = some (2, 2, false) ∧ role (exec (.roleStandby false) (standby 3)) = some (3, 2, false) ∧
    role (exec (.roleStandby false) (standby 4)) = some (4, 2, false) ∧ role (exec (.roleStandby false) (standby 5)) = some (2, 2, false) ∧
    role (exec (.roleStandby false) ((standby 1).put Reg.STBY_WINDOW_CYC 8207)) = some (0, 2, true) :=
  ⟨by decide +kernel, by decide +kernel, by decide +kernel, by decide +kernel, by decide +kernel, by decide +kernel, by decide +kernel⟩
theorem test_role_off : role (exec (.roleOff true) (standby 3)) = some (0, 0, false) ∧ seen (exec (.roleOff true) (standby 3)) (fun t => t.on Reg.STBY_CTRL_PAUSE) = some true ∧
    role (exec (.roleActive false) (thawing 5)) = some (0, 0, false) := ⟨by decide +kernel, by decide +kernel, by decide +kernel⟩
theorem test_role_holds_requests : let s := (requested.put Reg.STBY_STAT_STATE 1)
    s.wlen 1 9 = 0 ∧ seen (exec (.roleStandby false) s) (fun t => (t.on (reqFld 1 9), t.get (txstFld 1 9))) = some (false, 5) := ⟨by decide +kernel, by decide +kernel⟩
theorem test_sync : let s := { standby 1 with installed := [(17, { vbase := 0x400, size := 1, pbase := 0x2000000, ret := true, dev := false, cache := 0 })] }
    seen (exec .stbySync s) (fun t => t.stby.dirty) = some [0x200000, 0x200001, 0x200002, 0x200003] ∧ stays (exec .stbySync (standby 2)) (standby 2) = true :=
  ⟨by decide +kernel, by decide +kernel⟩
/-- In following state `st`, with what the frame's stream has brought. -/
def following (st : Nat) (rx : StreamRx) : State := { standby st with stby := { running.stby with rx := rx } }
def begun : StreamRx := { StreamRx.empty with frame := some 4, words := [0x100000000, 4, 0] }
def streamed (o : Host.Outcome State Fault Refusal) : Option (Nat × Bool × Bool) := seen o (fun t => (t.get Reg.STBY_STAT_STATE, t.stby.rx.bad, t.stby.rx.good))
theorem test_frame_record : [2, 3, 4].all (fun st => streamed (execFrameRecord 4 true false ((following st StreamRx.empty).setReg Reg.FRM_COUNT0_LO.off 4)) == some (st, false, false)) = true ∧
    [1, 5].all (fun st => seen (execFrameRecord 4 true false (following st StreamRx.empty)) (fun t => t.stby.rx.frame) == some none) = true ∧
    streamed (execFrameRecord 5 true false ((following 3 StreamRx.empty).setReg Reg.FRM_COUNT0_LO.off 4)) = some (5, false, false) ∧
    streamed (execFrameRecord 4 true false (following 3 begun)) = some (3, true, false) := ⟨by decide +kernel, by decide +kernel, by decide +kernel, by decide +kernel⟩
theorem test_stream_error : seen (execLineRecord 5 [] true (following 3 begun)) (fun t => (t.stby.rx.bad, t.stby.rx.lost)) = some (true, true) ∧
    seen (execHeartbeat false false 0 0 true true (following 3 begun)) (fun t => (t.stby.rx.lost, t.get Reg.STBY_CRCERR_COUNT)) = some (true, 1) := ⟨by decide +kernel, by decide +kernel⟩
theorem test_input_record : seen (execInputRecord 5 [0x55] false ((((following 3 begun).put Reg.STBY_INRANGE_EN 1).put Reg.STBY_INRANGE_FIRST 5).put Reg.STBY_INRANGE_LAST 5)) (fun t => (t.stby.rx.inputs, t.readFilling 5)) =
      some (true, 0x55) ∧
    streamed (execInputRecord 5 [0x55] false (following 3 { begun with inputs := true })) = some (3, true, false) := ⟨by decide +kernel, by decide +kernel⟩
theorem test_line_record : seen (execLineRecord 5 (List.replicate 16 0) false (following 3 begun)) (fun t => t.stby.rx.lines.length) = some 1 ∧
    streamed (execLineRecord 5 (List.replicate 15 0) false (following 3 begun)) = some (3, true, false) ∧
    streamed (execLineRecord 5 (List.replicate 16 0) false (following 3 { begun with edits := [(0, 0)] })) = some (3, true, false) := ⟨by decide +kernel, by decide +kernel, by decide +kernel⟩
theorem test_edit_record : seen (execEditRecord 0 7 false (following 3 begun)) (fun t => t.stby.rx.edits) = some [(0, 7)] ∧
    streamed (execEditRecord 0 7 false (following 3 StreamRx.empty)) = some (3, true, false) := ⟨by decide +kernel, by decide +kernel⟩
def beat (st : Nat) (pause incomplete : Bool) : Option (Nat × Bool × Bool) :=
  streamed (execHeartbeat pause incomplete 0 (BitVec.ofNat 32 (crc32c begun.words)) true false (following st begun))
theorem test_heartbeat : beat 2 false false = some (3, false, true) ∧ beat 2 false true = some (2, false, true) ∧ beat 3 true false = some (4, false, true) ∧
    beat 4 false false = some (3, false, true) ∧ beat 3 false false = some (3, false, true) :=
  ⟨by decide +kernel, by decide +kernel, by decide +kernel, by decide +kernel, by decide +kernel⟩
theorem test_heartbeat_bad : seen (execHeartbeat false false 0 (BitVec.ofNat 32 (crc32c begun.words) + 1) true false (following 3 begun)) (fun t => (t.stby.rx.bad, t.get Reg.STBY_CRCERR_COUNT)) =
      some (true, 1) ∧
    seen (execHeartbeat false false 1 (BitVec.ofNat 32 (crc32c begun.words)) true false (following 3 begun)) (fun t => (t.stby.rx.bad, t.get Reg.STBY_CRCERR_COUNT)) = some (true, 0) :=
  ⟨by decide +kernel, by decide +kernel⟩
end Sys2Proof.Tests
end

section
/-! Lanes.lean: words built lane by lane, and the point logic on them (R68-R78, R143). -/

namespace Sys2Proof.Machine

open Sys2Proof

/-! ## A field written above the bits of a word -/

theorem getLsbD_fldMask (lo len i : Nat) : (fldMask lo len).getLsbD i =
    (decide (i < 36) && decide (lo ≤ i) && decide (i < lo + len)) := by
  rw [fldMask, BitVec.getLsbD_shiftLeft, BitVec.getLsbD_ofNat, Nat.testBit_two_pow_sub_one, Bool.eq_iff_iff]
  simp
  omega

/-- A word below 2^lo has no bit that a field from bit `lo` on would replace. -/
theorem and_not_fldMask_of_lt {w : Word} {lo : Nat} (len : Nat) (h : w.toNat < 2 ^ lo) : w &&& ~~~ fldMask lo len = w := by
  apply BitVec.eq_of_getLsbD_eq
  intro i hi
  rw [BitVec.getLsbD_and, BitVec.getLsbD_not, getLsbD_fldMask]
  rcases Nat.lt_or_ge i lo with below | above
  · simp [hi, below]
  · have clear : w.getLsbD i = false := Nat.testBit_lt_two_pow (h.trans_le (Nat.pow_le_pow_right (by decide) above))
    simp [clear]

/-- So a field set there is added to the word. -/
theorem toNat_setFld_of_lt {w : Word} {lo len v : Nat} (h : w.toNat < 2 ^ lo) (hl : lo + len ≤ 36) (hv : v < 2 ^ len) :
    (setFld w lo len v).toNat = w.toNat + v * 2 ^ lo := by
  have fits : v * 2 ^ lo < 2 ^ 36 := calc
    v * 2 ^ lo < 2 ^ len * 2 ^ lo := Nat.mul_lt_mul_of_pos_right hv (Nat.two_pow_pos lo)
    _ = 2 ^ (lo + len) := by rw [← Nat.pow_add, Nat.add_comm]
    _ ≤ 2 ^ 36 := Nat.pow_le_pow_right (by decide) hl
  have small : v < 2 ^ 36 := hv.trans_le (Nat.pow_le_pow_right (by decide) (by omega))
  rw [setFld, and_not_fldMask_of_lt len h, Nat.mod_eq_of_lt hv, BitVec.toNat_or, BitVec.toNat_shiftLeft, BitVec.toNat_ofNat,
    Nat.mod_eq_of_lt small, Nat.shiftLeft_eq, Nat.mod_eq_of_lt fits, Nat.or_comm, ← Nat.shiftLeft_eq,
    ← Nat.shiftLeft_add_eq_or_of_lt h, Nat.add_comm]

/-! ## Lanes as digits to the base 16 (R68, R69) -/

theorem lane_eq_digit (w : Word) (j : Nat) : lane w j = digit w j := by
  simp [lane, fld, digit, Nat.shiftRight_eq_div_pow, Nat.pow_mul]

@[simp] theorem digit_zero (j : Nat) : digit 0 j = 0 := by simp [digit]

theorem getD_map_digit (ws : List Word) (i j : Nat) : (ws.map (fun w => digit w j)).getD i 0 = digit (ws.getD i 0) j := by
  have := List.getD_map (l := ws) (d := 0) (n := i) (fun w => digit w j)
  rwa [digit_zero] at this

/-- The lanes below `n`, set one after the other in a word of zeros, are its digits. -/
theorem toNat_foldl_setLane {f : Nat → Nat} (hf : ∀ j, f j < 16) : ∀ n ≤ 9,
    ((List.range n).foldl (fun r j => setLane r j (f j)) (0 : Word)).toNat = ((List.range n).map (fun j => f j * 16 ^ j)).sum ∧
    ((List.range n).map (fun j => f j * 16 ^ j)).sum < 16 ^ n
  | 0, _ => by simp
  | n + 1, hn => by
    obtain ⟨same, low⟩ := toNat_foldl_setLane hf n (by omega)
    have base : 16 ^ n = 2 ^ (4 * n) := (Nat.pow_mul 2 4 n).symm
    have top : f n * 16 ^ n ≤ 15 * 16 ^ n := Nat.mul_le_mul_right _ (by have := hf n; omega)
    simp only [List.range_succ, List.foldl_append, List.foldl_cons, List.foldl_nil, List.map_append, List.map_cons, List.map_nil,
      List.sum_append, List.sum_cons, List.sum_nil]
    constructor
    · rw [setLane, toNat_setFld_of_lt (by rw [same, ← base]; exact low) (by omega) (hf n), same, base, Nat.add_zero]
    · rw [Nat.pow_succ]
      omega

theorem foldl_setLane {f : Nat → Nat} (hf : ∀ j, f j < 16) {n : Nat} (hn : n ≤ 9) :
    (List.range n).foldl (fun r j => setLane r j (f j)) (0 : Word) =
      BitVec.ofNat 36 ((List.range n).map (fun j => f j * 16 ^ j)).sum := by
  rw [← (toNat_foldl_setLane hf n hn).1, BitVec.ofNat_toNat, BitVec.setWidth_eq]

/-- The word of a lane function: from nine lanes, or under an S form from lane 0 alone. -/
theorem lanesOf_eq {g : List Nat → Nat} (hg : ∀ l, g l < 16) (scalar : Bool) (ws : List Word) :
    lanesOf scalar g ws = (if scalar then laneZero else nineLanes) (fun j => g (ws.map (fun w => digit w j))) := by
  simp only [lanesOf, lane_eq_digit]
  cases scalar with
  | false => exact foldl_setLane (fun _ => hg _) (Nat.le_refl 9)
  | true => exact (foldl_setLane (fun _ => hg _) (by decide)).trans (by simp [laneZero])

/-! ## The lane functions give lanes -/

theorem mkLane_lt {v val tst : Nat} (hv : v ≤ 1) (hval : val ≤ 3) (ht : tst ≤ 1) : mkLane v val tst < 16 := by
  unfold mkLane
  omega

theorem laneV_le (l : Nat) : laneV l ≤ 1 := Nat.lt_succ_iff.mp (Nat.mod_lt _ (by decide))

theorem laneTst_le (l : Nat) : laneTst l ≤ 1 := Nat.lt_succ_iff.mp (Nat.mod_lt _ (by decide))

theorem worst_le (a b : Nat) : worst a b ≤ 3 := by
  unfold worst codeOf
  split
  · omega
  · split <;> omega

theorem normVal_laneVal_le (l : Nat) : normVal (laneVal l) ≤ 3 := by
  unfold normVal laneVal valInvalid
  split <;> omega

theorem dominant_lt {d : Nat} {op : Nat → Nat → Nat} (hd : d ≤ 1) (hop : ∀ x ≤ 1, ∀ y ≤ 1, op x y ≤ 1) (a b : Nat) :
    dominant d op a b < 16 := by
  have both : laneTst a * laneTst b ≤ 1 := Nat.mul_le_mul (laneTst_le a) (laneTst_le b)
  unfold dominant
  dsimp only
  split
  · exact mkLane_lt hd (by decide) both
  · split
    · exact mkLane_lt hd (by decide) (laneTst_le a)
    · split
      · exact mkLane_lt hd (by decide) (laneTst_le b)
      · exact mkLane_lt (hop _ (laneV_le a) _ (laneV_le b)) (worst_le _ _) (max_le (laneTst_le a) (laneTst_le b))

theorem bandLane_lt (a b : Nat) : bandLane a b < 16 := dominant_lt (by decide) (fun _ hx _ hy => Nat.mul_le_mul hx hy) a b

theorem borLane_lt (a b : Nat) : borLane a b < 16 := dominant_lt (by decide) (fun _ hx _ hy => max_le hx hy) a b

theorem bxorLane_lt (a b : Nat) : bxorLane a b < 16 :=
  mkLane_lt (Nat.lt_succ_iff.mp (Nat.mod_lt _ (by decide))) (worst_le _ _) (max_le (laneTst_le a) (laneTst_le b))

theorem bnotLane_lt (a : Nat) : bnotLane a < 16 := mkLane_lt (Nat.sub_le _ _) (normVal_laneVal_le a) (laneTst_le a)

/-! ## Point-logic instructions (R143) -/

/-- A point-logic instruction that is ready, with its operands in the window, pushes the word of its lanes. -/
theorem State.laneOp_ready {s : State} {c n : Nat} {x : Enc} (h : s.Ready c x (wordForm n 1 x)) (hf : s.Fits c (wordForm n 1 x))
    (scalar : Bool) (g : List Nat → Nat) :
    s.laneOp c x n scalar g = s.after c x (wordForm n 1 x) (((s.cur c).popN n).pushAll [lanesOf scalar g (s.top c n)]) :=
  State.calc_ok h rfl hf rfl

/-- An instruction that runs a lane function computes it on all nine lanes, or as an S form on lane 0 alone. -/
theorem computes_laneOp {mk : CellId → Enc → Instr} {n index : Nat} (scalar : Bool) (g : List Nat → Nat)
    (hmk : ∀ c x s, exec (mk c x) s = .next ((s.decode c.toNat index).laneOp c.toNat x n scalar g)) (hg : ∀ l, g l < 16) :
    Computes mk (wordForm n 1)
      (fun _ ws k => .ok [(if scalar then laneZero else nineLanes) (fun j => g (ws.map (fun w => digit w j)))] k) := by
  intro c x s h hf
  rw [hmk, State.decode_listed h.listed, State.laneOp_ready h hf, lanesOf_eq hg]
  rfl

/-- Settles O9: the tables of R73 to R76 by evaluating the 256 pairs of lanes; each instruction as the lane function it runs, whose
values are lanes. -/
theorem logicOfLanes : Obligations.LogicOfLanes := by
  unfold Obligations.LogicOfLanes
  constructor
  · decide +kernel
  · simp only [← getD_map_digit]
    refine ⟨?band, ?bor, ?bxor, ?bnot, ?bands, ?bors, ?bxors, ?bnots, ?rise, ?fall, ?setp, ?rstp⟩
    case band => exact computes_laneOp false (fun l => bandLane (l.getD 1 0) (l.getD 0 0)) (fun _ _ _ => rfl) (fun _ => bandLane_lt _ _)
    case bor => exact computes_laneOp false (fun l => borLane (l.getD 1 0) (l.getD 0 0)) (fun _ _ _ => rfl) (fun _ => borLane_lt _ _)
    case bxor => exact computes_laneOp false (fun l => bxorLane (l.getD 1 0) (l.getD 0 0)) (fun _ _ _ => rfl) (fun _ => bxorLane_lt _ _)
    case bnot => exact computes_laneOp false (fun l => bnotLane (l.getD 0 0)) (fun _ _ _ => rfl) (fun _ => bnotLane_lt _)
    case bands => exact computes_laneOp true (fun l => bandLane (l.getD 1 0) (l.getD 0 0)) (fun _ _ _ => rfl) (fun _ => bandLane_lt _ _)
    case bors => exact computes_laneOp true (fun l => borLane (l.getD 1 0) (l.getD 0 0)) (fun _ _ _ => rfl) (fun _ => borLane_lt _ _)
    case bxors => exact computes_laneOp true (fun l => bxorLane (l.getD 1 0) (l.getD 0 0)) (fun _ _ _ => rfl) (fun _ => bxorLane_lt _ _)
    case bnots => exact computes_laneOp true (fun l => bnotLane (l.getD 0 0)) (fun _ _ _ => rfl) (fun _ => bnotLane_lt _)
    case rise =>
      exact computes_laneOp false (fun l => bandLane (l.getD 1 0) (bnotLane (l.getD 0 0)))
        (fun _ _ _ => rfl) (fun _ => bandLane_lt _ _)
    case fall =>
      exact computes_laneOp false (fun l => bandLane (bnotLane (l.getD 1 0)) (l.getD 0 0))
        (fun _ _ _ => rfl) (fun _ => bandLane_lt _ _)
    case setp =>
      exact computes_laneOp false (fun l => borLane (l.getD 1 0) (bandLane (l.getD 2 0) (bnotLane (l.getD 0 0))))
        (fun _ _ _ => rfl) (fun _ => borLane_lt _ _)
    case rstp =>
      exact computes_laneOp false (fun l => bandLane (bnotLane (l.getD 0 0)) (borLane (l.getD 1 0) (l.getD 2 0)))
        (fun _ _ _ => rfl) (fun _ => bandLane_lt _ _)

end Sys2Proof.Machine
end

section
/-! Repeats.lean: guarded-off instructions, and the repetitions of REP and REPN (R101-R105, R193, R194). -/

namespace Sys2Proof.Machine

open Sys2Proof

variable {s : State} {c : Nat} {x : Enc} {f : Form} {iter : Bool → State → Ex Bool}

/-! ## The way to the guard (R97) -/

/-- An instruction of which nothing is under way is issued once its fetch has succeeded. -/
theorem State.runInstr_fetched (issues : s.canIssue c = true) (unbroken : s.breaks c = false)
    (fetched : s.fetch c (fetchLen x f.op) = .ok () s) (unheld : (s.cell c).hold = false) (unbegun : (s.cell c).micro = none) :
    s.runInstr c x f iter = s.issue c x f iter := by
  simp [State.runInstr, issues, unheld, unbegun, unbroken, fetched]

/-- An admitted instruction after which no spill was missed is skipped or has its effect, as its guard says. -/
theorem State.issue_formed (formed : f.fault1 x = none) (unmissed : findMark ((s.cur c).dmark ++ (s.cur c).rmark) missSlot = none) :
    s.issue c x f iter = if guardPasses x.guard (s.cur c) = true then s.effect c x f iter else s.skip c x f := by
  simp only [State.issue, formed, unmissed, ite_not]

/-- An instruction whose guard passes comes to its effect, whether it begins or goes on. -/
theorem State.runInstr_guarded (issues : s.canIssue c = true) (unbroken : s.breaks c = false)
    (fetched : s.fetch c (fetchLen x f.op) = .ok () s) (formed : f.fault1 x = none)
    (unmissed : findMark ((s.cur c).dmark ++ (s.cur c).rmark) missSlot = none) (unbegun : (s.cell c).micro = none)
    (passes : guardPasses x.guard (s.cur c) = true) : s.runInstr c x f iter = s.effect c x f iter := by
  cases held : (s.cell c).hold with
  | true => simp [State.runInstr, issues, held]
  | false => rw [State.runInstr_fetched issues unbroken fetched held unbegun, State.issue_formed formed unmissed, if_pos passes]

/-- Under Onaed's image the effect of an instruction that is no BR or CALL is the listed one at the listed count (R216). -/
theorem State.effect_listed (listed : s.asListed c = true) (unbegun : (s.cell c).micro = none) (plain : f.branch = false) :
    s.effect c x f iter = s.perform c (s.running c) (s.levelOf c) x f (nextPc (s.cur c) x f.op) iter := by
  simp [State.effect, listed, unbegun, plain]

/-! ## Guarded-off instructions (R101, R102, R193, R194) -/

@[simp] theorem State.running_noteBranch (pc d : Nat) (taken : Bool) : (s.noteBranch c pc taken).running d = s.running d := by
  unfold State.noteBranch
  split <;> rfl

@[simp] theorem State.hLevel_noteBranch (pc : Nat) (taken : Bool) : ((s.noteBranch c pc taken).cell c).hLevel = (s.cell c).hLevel := by
  unfold State.noteBranch
  split
  · simp [State.modCell]
  · rfl

/-- A branch history counter has no part in where the cycles count. -/
@[simp] theorem State.levelOf_noteBranch (pc : Nat) (taken : Bool) : (s.noteBranch c pc taken).levelOf c = s.levelOf c := by
  have level : (s.noteBranch c pc taken).levelNum c = s.levelNum c := by
    rw [State.levelNum, State.levelNum, State.running_noteBranch, State.hLevel_noteBranch]
  rw [State.levelOf, State.levelOf, level]

theorem State.skip_plain (plain : f.branch = false) :
    s.skip c x f = s.complete c (s.running c) (s.levelOf c) { f with load := false } (nextPc (s.cur c) x f.op) 1 true false := by
  simp [State.skip, State.offCount, plain]

theorem State.skip_branch (branch : f.branch = true) :
    s.skip c x f =
      let t := s.noteBranch c (s.cur c).pc.toNat false
      let skips (n : Nat) : State :=
        t.complete c (t.running c) (t.levelOf c) { f with load := false } (nextPc (s.cur c) x f.op) n true false
      if s.throughput c = true ∧ 2 ≤ sget 1 ((s.cur c).pc.toNat % 256) (s.cell c).bht then (skips 6).flushPq c else skips 1 := by
  by_cases taken : s.throughput c = true ∧ 2 ≤ sget 1 ((s.cur c).pc.toNat % 256) (s.cell c).bht <;>
    simp [State.skip, State.offCount, State.predicted, branch, taken]

/-! ## REP and REPN (R103, R105) -/

section
variable {b : Nat} {lvl : Option Nat} {next : SylAddr}

/-- A repetition with RC = 0 has no iteration. -/
theorem State.perform_none (repeated : x.rept ≠ .once) (zero : (s.cur c).rc = 0) :
    s.perform c b lvl x f next iter = s.complete c b lvl { f with load := false } next 1 true false := by
  cases rept : x.rept with
  | once => contradiction
  | rep => simp [State.perform, rept, zero]
  | repn => simp [State.perform, rept, zero]

theorem State.perform_repn_beyond (rept : x.rept = .repn) (beyond : 64 < (s.cur c).rc.toNat) :
    s.perform c b lvl x f next iter = s.faultAt c lvl f.cyc { code := 1, info := 5 } := by
  simp [State.perform, rept, beyond]

theorem State.perform_repn (rept : x.rept = .repn) (positive : 0 < (s.cur c).rc.toNat) (within : (s.cur c).rc.toNat ≤ 64) :
    s.perform c b lvl x f next iter = s.repeatN c b lvl f next iter (s.cur c).rc.toNat := by
  have nonzero : (s.cur c).rc ≠ 0 := fun zero => by simp [zero] at positive
  simp only [State.perform, rept]
  rw [if_neg (Nat.not_lt.mpr within), if_neg nonzero]

/-- The state after an iteration of a REPN whose effect has left `s`, with `n` iterations to come. -/
def State.iterated (s : State) (c : Nat) (lvl : Option Nat) (f : Form) (n : Nat) : State :=
  ((s.modCell c Cell.settled).modCur c (fun k => { k with rc := BitVec.ofNat 36 n })).spend c lvl f.cyc f.fixed

/-- A REPN goes on with the next iteration when one completes, unless it waits for data that a later one needs. -/
theorem State.repeatN_succ {t : State} {n : Nat} {j : Bool} (completes : s.iterate c f iter (decide (n = 0)) = .ok j t)
    (goesOn : n ≠ 0 → ((t.iterated c lvl f n).cell c).stall = none) :
    s.repeatN c b lvl f next iter (n + 1) = (t.iterated c lvl f n).repeatN c b lvl f next iter n := by
  have unstalled : ¬ (n ≠ 0 ∧ ((t.iterated c lvl f n).cell c).stall.isSome = true) := fun ⟨more, waits⟩ => by simp [goesOn more] at waits
  rw [State.repeatN, completes]
  exact if_neg unstalled

/-- A REPN whose iterations all complete runs them one after the other: from the state before any of them, the `m` iterations
that are left lead to the state after the last. -/
theorem State.repeatN_run {n : Nat} {u v : Nat → State}
    (completes : ∀ i < n, ∃ j, (u i).iterate c f iter (decide (i + 1 = n)) = .ok j (v i))
    (leads : ∀ i < n, u (i + 1) = (v i).iterated c lvl f (n - 1 - i))
    (goesOn : ∀ i, i + 1 < n → ((u (i + 1)).cell c).stall = none) (m i : Nat) (left : i + m = n) :
    (u i).repeatN c b lvl f next iter m = (u n).repeatN c b lvl f next iter 0 := by
  induction m generalizing i with
  | zero => rw [← left, Nat.add_zero]
  | succ m ih =>
    have before : i < n := by omega
    obtain ⟨j, done⟩ := completes i before
    have last : decide (i + 1 = n) = decide (m = 0) := by simp only [decide_eq_decide]; omega
    have after : u (i + 1) = (v i).iterated c lvl f m := by rw [leads i before]; congr 1; omega
    rw [last] at done
    rw [State.repeatN_succ done fun more => after ▸ goesOn i (by omega), ← after]
    exact ih (i + 1) (by omega)

end

/-- Settles O31: up to the guard the path is the common one; then the skip, the repetition that has no iteration or too many, and
the REPN by induction on the iterations that are left. -/
theorem guardsAndRepeats : Obligations.GuardsAndRepeats := by
  unfold Obligations.GuardsAndRepeats
  constructor
  · intro s c x f iter k counter skips issues unbroken fetched formed unmissed unheld unbegun
    constructor
    · intro off
      have skipped : s.runInstr c x f iter = s.skip c x f := by
        rw [State.runInstr_fetched issues unbroken fetched unheld unbegun, State.issue_formed formed unmissed, if_neg (by simp [k, off])]
      rw [skipped]
      exact ⟨State.skip_plain, State.skip_branch⟩
    · intro passes plain listed
      rw [State.runInstr_guarded issues unbroken fetched formed unmissed unbegun passes, State.effect_listed listed unbegun plain]
      exact ⟨State.perform_none, State.perform_repn_beyond⟩
  · intro s c x f iter n u v issues unbroken fetched listed formed unmissed passes unbegun plain rept count positive within start
      completes leads goesOn
    subst count start
    rw [State.runInstr_guarded issues unbroken fetched formed unmissed unbegun passes, State.effect_listed listed unbegun plain,
      State.perform_repn rept positive within]
    exact State.repeatN_run completes leads goesOn _ 0 (Nat.zero_add _)

end Sys2Proof.Machine
end

section
/-! Items.lean: the operands and results of the compute instructions as numbers (R98, R116, R126, R130). -/

namespace Sys2Proof.Machine

open Sys2Proof

/-! ## Numbers of `w` bits -/

theorem sextNat_eq_toInt (v w : Nat) : sextNat v w = (BitVec.ofNat w v).toInt := by
  rw [sextNat, BitVec.toInt_eq_toNat_cond, BitVec.toNat_ofNat]
  cases w with
  | zero => simp [Nat.mod_one]
  | succ n => rw [if_neg (Nat.succ_ne_zero n), Nat.add_sub_cancel, Nat.pow_succ]; split <;> split <;> omega

theorem sextNat_toNat {w : Nat} (a : BitVec w) : sextNat a.toNat w = a.toInt := by
  rw [sextNat_eq_toInt, BitVec.ofNat_toNat, BitVec.setWidth_eq]

theorem wrapNat_eq_toNat (v : Int) (w : Nat) : wrapNat v w = (BitVec.ofInt w v).toNat := (BitVec.toNat_ofInt v).symm

/-- Numbers that agree modulo 2^w are the same pattern of `w` bits. -/
theorem ofInt_congr {w : Nat} {a b : Int} (h : a % (2 ^ w : Nat) = b % (2 ^ w : Nat)) : BitVec.ofInt w a = BitVec.ofInt w b :=
  BitVec.eq_of_toNat_eq (by rw [BitVec.toNat_ofInt, BitVec.toNat_ofInt, h])

theorem toNat_dword (lo hi : Word) : (dword lo hi).toNat = lo.toNat + hi.toNat * 2 ^ 36 := by
  rw [dword, BitVec.toNat_append, ← Nat.shiftLeft_add_eq_or_of_lt lo.isLt, Nat.shiftLeft_eq, Nat.add_comm]

theorem dlo_ofInt (v : Int) : dlo (BitVec.ofInt 72 v) = BitVec.ofInt 36 v := by
  apply BitVec.eq_of_toNat_eq
  simp only [dlo, BitVec.extractLsb'_toNat, BitVec.toNat_ofInt, Nat.shiftRight_zero]
  omega

theorem dhi_ofInt (v : Int) : dhi (BitVec.ofInt 72 v) = BitVec.ofInt 36 (v / 2 ^ 36) := by
  apply BitVec.eq_of_toNat_eq
  simp only [dhi, BitVec.extractLsb'_toNat, BitVec.toNat_ofInt, Nat.shiftRight_eq_div_pow]
  omega

/-! ## Results as pushed (R116) -/

/-- The results that differ by a multiple of 2^w are pushed as the same words. -/
theorem asPushed_congr {x : Enc} {a b : Int} (h : a % (2 ^ widthOf x : Nat) = b % (2 ^ widthOf x : Nat)) :
    asPushed x a = asPushed x b := by
  cases wide : x.wide <;> simp only [widthOf, wide, if_true, if_false, Bool.false_eq_true] at h <;>
    simp only [asPushed, wide, if_true, if_false, Bool.false_eq_true, ofInt_congr h]

theorem pushItem_eq_asPushed (x : Enc) (v : Nat) : pushItem x v = asPushed x v := by
  simp only [pushItem, asPushed, dlo_ofInt, dhi_ofInt]
  split <;> norm_cast

theorem pushItem_wrapNat (x : Enc) (v : Int) : pushItem x (wrapNat v (widthOf x)) = asPushed x v := by
  rw [pushItem_eq_asPushed]
  apply asPushed_congr
  have : (0 : Int) ≤ v % (2 ^ widthOf x : Nat) := Int.emod_nonneg _ (by positivity)
  rw [wrapNat, Int.toNat_of_nonneg this, Int.emod_emod]

theorem asPushed_asSigned (x : Enc) (v : Nat) : asPushed x (asSigned x v) = asPushed x v := by
  apply asPushed_congr
  rw [asSigned, sextNat_eq_toInt, BitVec.toInt_eq_toNat_bmod, BitVec.toNat_ofNat, Int.bmod_emod]
  simp

/-! ## Operands (R98, R126) -/

theorem itemAt_eq_opU (x : Enc) (ws : List Word) (i : Nat) : itemAt x ws i = opU x ws i := by
  rw [itemAt, opU, toNat_dword]

theorem asSigned_opU (x : Enc) (ws : List Word) (i : Nat) : asSigned x (opU x ws i) = opS x ws i := by
  cases wide : x.wide <;> simp [asSigned, widthOf, opU, opS, wide, sextNat_toNat]

theorem opU_lt (x : Enc) (ws : List Word) (i : Nat) : opU x ws i < 2 ^ widthOf x := by
  rw [opU, widthOf]
  split <;> exact BitVec.isLt _

theorem immAt_eq_immU (x : Enc) : immAt x (widthOf x) = immU x := by
  cases wide : x.wide <;> simp [immAt, wrapNat_eq_toNat, widthOf, immU, wide]

theorem asSigned_immU (x : Enc) : asSigned x (immU x) = immS x := by
  cases wide : x.wide <;> simp only [asSigned, widthOf, immU, immS, wide, sextNat_toNat, if_true, if_false, Bool.false_eq_true]

theorem immU_lt (x : Enc) : immU x < 2 ^ widthOf x := by
  rw [immU, widthOf]
  split <;> exact BitVec.isLt _

/-- The low bits of an immediate are those of its 36-bit pattern. -/
theorem immAt_mod (x : Enc) : immAt x 36 = immU x % 2 ^ 36 := by
  rw [immAt, wrapNat_eq_toNat, immU]
  split
  · simp only [BitVec.toNat_ofInt]
    omega
  · exact (Nat.mod_eq_of_lt (BitVec.isLt _)).symm

theorem pairOf_eq (x : Enc) (ws : List Word) : pairOf x ws = (aU x ws, bU x ws) := by
  rw [pairOf, aU, bU]
  split <;> simp only [itemAt_eq_opU, immAt_eq_immU]

theorem asSigned_aU (x : Enc) (ws : List Word) : asSigned x (aU x ws) = aS x ws := by
  rw [aU, aS]
  split <;> exact asSigned_opU x ws _

theorem asSigned_bU (x : Enc) (ws : List Word) : asSigned x (bU x ws) = bS x ws := by
  rw [bU, bS]
  split
  · exact asSigned_opU x ws _
  · exact asSigned_immU x

theorem aU_lt (x : Enc) (ws : List Word) : aU x ws < 2 ^ widthOf x := by
  rw [aU]
  split <;> exact opU_lt x ws _

theorem bU_lt (x : Enc) (ws : List Word) : bU x ws < 2 ^ widthOf x := by
  rw [bU]
  split
  · exact opU_lt x ws _
  · exact immU_lt x

theorem asPushed_aS (x : Enc) (ws : List Word) : asPushed x (aS x ws) = asPushed x (aU x ws) := by
  rw [← asSigned_aU, asPushed_asSigned]

theorem asPushed_bS (x : Enc) (ws : List Word) : asPushed x (bS x ws) = asPushed x (bU x ws) := by
  rw [← asSigned_bU, asPushed_asSigned]

/-! ## Results that R130 forms -/

section
variable {k : Bank} {sat : Bool} {lo hi v : Int} {w : Nat}

/-- Modulo 2^w the value that an overflow leaves is the saturated one, or the exact one. -/
theorem past_emod (h : lo ≤ hi) : (if sat then min (max v lo) hi else lo + (v - lo) % (2 ^ w : Nat)) % (2 ^ w : Nat) =
    (if sat then max lo (min v hi) else v) % (2 ^ w : Nat) := by
  cases sat with
  | true => simp only [if_true]; congr 1; omega
  | false => rw [if_neg Bool.false_ne_true, if_neg Bool.false_ne_true, Int.add_emod_emod, add_sub_cancel]

/-- What an instruction does with a result that R130 forms, `put` of its value, whether it overflowed and the bank; or fault 4. -/
def formed (put : Int → Bool → Bank → Calc) (r : Option Narrowed) : Calc :=
  r.elim (.flt 4 1) (fun n => put n.value n.past n.bank)

/-- With its range in order, and for an instruction that takes values modulo 2^w, R130 gives the exact result in range, and
otherwise fault 4, or OV with the saturated or the wrapped result. -/
theorem formed_narrow {put : Int → Bool → Bank → Calc} (h : lo ≤ hi)
    (wraps : ∀ (a b : Int) past k, a % (2 ^ w : Nat) = b % (2 ^ w : Nat) → put a past k = put b past k) :
    formed put (narrow k sat lo hi w v) =
      if lo ≤ v ∧ v ≤ hi then put v false k
      else if k.ove then .flt 4 1
      else put (if sat then max lo (min v hi) else v) true k.setOv := by
  unfold narrow
  split
  · rfl
  · split
    · rfl
    · exact wraps _ _ _ _ (past_emod h)

theorem pushResult_eq_formed (x : Enc) (r : Option Narrowed) :
    pushResult x r = formed (fun a _ k => .ok (asPushed x a) k) r := by
  cases r with
  | none => rfl
  | some n => rw [pushResult, pushItem_wrapNat]; rfl

theorem pushResult_narrow {x : Enc} (h : lo ≤ hi) : pushResult x (narrow k x.sat lo hi (widthOf x) v) = ranged x k lo hi v := by
  rw [pushResult_eq_formed, formed_narrow h (fun _ _ _ _ same => by rw [asPushed_congr same])]
  rfl

end

theorem pushResult_signed (x : Enc) (k : Bank) (v : Int) :
    pushResult x (narrow k x.sat (signedLo (widthOf x)) (signedHi (widthOf x)) (widthOf x) v) = rangedS x k v := by
  rw [pushResult_narrow (by rw [widthOf]; split <;> decide), rangedS, widthOf]
  split <;> rfl

theorem pushResult_unsigned (x : Enc) (k : Bank) (v : Int) :
    pushResult x (narrow k x.sat 0 (unsignedHi (widthOf x)) (widthOf x) v) = rangedU x k v := by
  rw [pushResult_narrow (by rw [widthOf]; split <;> decide), rangedU, widthOf]
  split <;> rfl

end Sys2Proof.Machine
end

section
/-! Computing.lean: instructions that compute on their popped entries, and integer arithmetic and logic among them (R134). -/

namespace Sys2Proof.Machine

open Sys2Proof

/-! ## A computation on popped entries -/

/-- The outcome is no fault 2, whose address the instruction would have to name. -/
def Calc.Addressless : Calc → Prop
  | .ok _ _ => True
  | .flt code _ => code ≠ 2

theorem Calc.Addressless.ite {P : Prop} [Decidable P] {a b : Calc} (ha : a.Addressless) (hb : b.Addressless) :
    (if P then a else b).Addressless := by
  split <;> assumption

theorem addressless_ranged (x : Enc) (k : Bank) (lo hi v : Int) : (ranged x k lo hi v).Addressless :=
  .ite trivial (.ite (by decide : (4 : Nat) ≠ 2) trivial)

theorem addressless_rangedS (x : Enc) (k : Bank) (v : Int) : (rangedS x k v).Addressless :=
  .ite (addressless_ranged ..) (addressless_ranged ..)

theorem addressless_rangedU (x : Enc) (k : Bank) (v : Int) : (rangedU x k v).Addressless :=
  .ite (addressless_ranged ..) (addressless_ranged ..)

/-- An instruction whose effect is a computation on its popped entries has the computation's outcome. -/
theorem computes_calc {mk : CellId → Enc → Instr} {f : Enc → Form} {g model : Enc → List Word → Bank → Calc} {index : Nat}
    (runs : ∀ c x s, exec (mk c x) s = .next ((s.decode c.toNat index).calc c.toNat x (f x) (model x)))
    (plain : ∀ x, (f x).branch = false) (same : ∀ x ws k, model x ws k = g x ws k) (faults : ∀ x ws k, (g x ws k).Addressless) :
    Computes mk f g := by
  intro c x s ready fits
  rw [runs, State.decode_listed ready.listed]
  have outcome := same x (s.top c.toNat (f x).pops) (s.cur c.toNat)
  have addressless := faults x (s.top c.toNat (f x).pops) (s.cur c.toNat)
  cases result : g x (s.top c.toNat (f x).pops) (s.cur c.toNat) with
  | ok push k => rw [State.calc_ok ready (plain x) fits (outcome.trans result)]
  | flt code info =>
    rw [result] at addressless
    rw [State.calc_flt ready (plain x) fits addressless (outcome.trans result)]
    rfl

section
variable {mk : CellId → Enc → Instr} {index : Nat}

/-! ## Integer arithmetic and logic (R134) -/

theorem computes_signed2 (op : Int → Int → Int)
    (runs : ∀ c x s, exec (mk c x) s = .next ((s.decode c.toNat index).signed2 c.toNat x op)) :
    Computes mk (pairedForm 1 true) (fun x ws k => rangedS x k (op (aS x ws) (bS x ws))) := by
  refine computes_calc runs (fun _ => rfl) (fun x ws k => ?_) (fun _ _ _ => addressless_rangedS ..)
  simp only [pairOf_eq, asSigned_aU, asSigned_bU, pushResult_signed]

theorem computes_unsigned2 (op : Int → Int → Int)
    (runs : ∀ c x s, exec (mk c x) s = .next ((s.decode c.toNat index).unsigned2 c.toNat x op)) :
    Computes mk (pairedForm 1 true) (fun x ws k => rangedU x k (op (aU x ws) (bU x ws))) := by
  refine computes_calc runs (fun _ => rfl) (fun x ws k => ?_) (fun _ _ _ => addressless_rangedU ..)
  simp only [pairOf_eq, pushResult_unsigned]

theorem computes_signed1 (op : Int → Int)
    (runs : ∀ c x s, exec (mk c x) s = .next ((s.decode c.toNat index).signed1 c.toNat x op)) :
    Computes mk (fun x => { wideForm 1 1 x with sat := true }) (fun x ws k => rangedS x k (op (opS x ws 0))) := by
  refine computes_calc runs (fun _ => rfl) (fun x ws k => ?_) (fun _ _ _ => addressless_rangedS ..)
  simp only [itemAt_eq_opU, asSigned_opU, pushResult_signed]

/-- A function of two patterns that sets no flag. -/
theorem computes_logic2 (op : Enc → Nat → Nat → Nat) {value : Enc → List Word → Int}
    (runs : ∀ c x s, exec (mk c x) s = .next ((s.decode c.toNat index).logic2 c.toNat x (op x)))
    (same : ∀ x ws, asPushed x (op x (aU x ws) (bU x ws)) = asPushed x (value x ws)) :
    Computes mk (pairedForm 1 false) (fun x ws k => .ok (asPushed x (value x ws)) k) := by
  refine computes_calc runs (fun _ => rfl) (fun x ws k => ?_) (fun _ _ _ => trivial)
  simp only [pairOf_eq, pushItem_eq_asPushed, same]

theorem computes_logic1 (op : Enc → Nat → Nat) {value : Enc → List Word → Int}
    (runs : ∀ c x s, exec (mk c x) s = .next ((s.decode c.toNat index).logic1 c.toNat x (op x)))
    (same : ∀ x ws, asPushed x (op x (opU x ws 0)) = asPushed x (value x ws)) :
    Computes mk (wideForm 1 1) (fun x ws k => .ok (asPushed x (value x ws)) k) := by
  refine computes_calc runs (fun _ => rfl) (fun x ws k => ?_) (fun _ _ _ => trivial)
  simp only [itemAt_eq_opU, pushItem_eq_asPushed, same]

/-- Pushing the operand whose signed value is the smaller, or the larger, is pushing that value. -/
theorem asPushed_signedMin (x : Enc) (ws : List Word) :
    asPushed x (if asSigned x (aU x ws) ≤ asSigned x (bU x ws) then aU x ws else bU x ws : Nat) =
      asPushed x (min (aS x ws) (bS x ws)) := by
  rw [asSigned_aU, asSigned_bU]
  split
  · rw [min_eq_left ‹_›, asPushed_aS]
  · rw [min_eq_right (by omega), asPushed_bS]

theorem asPushed_signedMax (x : Enc) (ws : List Word) :
    asPushed x (if asSigned x (aU x ws) ≤ asSigned x (bU x ws) then bU x ws else aU x ws : Nat) =
      asPushed x (max (aS x ws) (bS x ws)) := by
  rw [asSigned_aU, asSigned_bU]
  split
  · rw [max_eq_right ‹_›, asPushed_bS]
  · rw [max_eq_left (by omega), asPushed_aS]

/-- The complement of a pattern differs from -1 - v by a multiple of 2^w. -/
theorem asPushed_complement {x : Enc} {v : Nat} (h : v < 2 ^ widthOf x) :
    asPushed x (complement x v) = asPushed x (-1 - (v : Int)) := by
  apply asPushed_congr
  have value : (complement x v : Int) = -1 - (v : Int) + (2 ^ widthOf x : Nat) := by
    rw [complement, Nat.mod_eq_of_lt h]
    omega
  rw [value, Int.add_emod_right]

/-- a AND NOT b is a without the bits it has in common with b. -/
theorem and_not_eq_sub {w : Nat} (a b : BitVec w) : a &&& ~~~ b = a - (a &&& b) := by
  have apart : (a &&& ~~~ b) &&& (a &&& b) = 0#w := by
    ext i
    simp only [BitVec.getElem_and, BitVec.getElem_not, BitVec.getElem_zero]
    cases b[i] <;> simp
  have whole : (a &&& ~~~ b) ||| (a &&& b) = a := by
    ext i
    simp only [BitVec.getElem_or, BitVec.getElem_and, BitVec.getElem_not]
    cases b[i] <;> simp
  rw [← BitVec.add_eq_or_of_and_eq_zero _ _ apart] at whole
  exact eq_sub_of_add_eq whole

theorem toNat_and_not {w : Nat} (a b : BitVec w) : (a &&& ~~~ b).toNat = a.toNat - (a.toNat &&& b.toNat) := by
  have below : a &&& b ≤ a := BitVec.le_def.mpr (by rw [BitVec.toNat_and]; exact Nat.and_le_left)
  rw [and_not_eq_sub, BitVec.toNat_sub_of_le below, BitVec.toNat_and]

theorem and_complement {x : Enc} {a b : Nat} (ha : a < 2 ^ widthOf x) (hb : b < 2 ^ widthOf x) :
    a &&& complement x b = a - (a &&& b) := by
  simpa [complement, Nat.mod_eq_of_lt ha, Nat.mod_eq_of_lt hb] using
    toNat_and_not (BitVec.ofNat (widthOf x) a) (BitVec.ofNat (widthOf x) b)

end

/-- Settles O3: each row as the shared operation it runs, whose exact result R130 forms, or whose pattern is pushed. -/
theorem integerInstructions : Obligations.IntegerInstructions := by
  unfold Obligations.IntegerInstructions
  refine ⟨⟨?add, ?sub, ?addu, ?subu, ?neg, ?abs⟩, ?min, ?max, ?minu, ?maxu, ?and, ?or, ?xor, ?andn, ?not⟩
  case add => exact computes_signed2 (fun a b => a + b) (fun _ _ _ => rfl)
  case sub => exact computes_signed2 (fun a b => a - b) (fun _ _ _ => rfl)
  case addu => exact computes_unsigned2 (fun a b => a + b) (fun _ _ _ => rfl)
  case subu => exact computes_unsigned2 (fun a b => a - b) (fun _ _ _ => rfl)
  case neg => exact computes_signed1 (fun a => -a) (fun _ _ _ => rfl)
  case abs => exact computes_signed1 (fun a => max a (-a)) (fun _ _ _ => rfl)
  case min => exact computes_logic2 (fun x a b => if asSigned x a ≤ asSigned x b then a else b) (fun _ _ _ => rfl) asPushed_signedMin
  case max => exact computes_logic2 (fun x a b => if asSigned x a ≤ asSigned x b then b else a) (fun _ _ _ => rfl) asPushed_signedMax
  case minu => exact computes_logic2 (fun _ a b => min a b) (fun _ _ _ => rfl) (fun _ _ => rfl)
  case maxu => exact computes_logic2 (fun _ a b => max a b) (fun _ _ _ => rfl) (fun _ _ => rfl)
  case and => exact computes_logic2 (fun _ a b => a &&& b) (fun _ _ _ => rfl) (fun _ _ => rfl)
  case or => exact computes_logic2 (fun _ a b => a ||| b) (fun _ _ _ => rfl) (fun _ _ => rfl)
  case xor => exact computes_logic2 (fun _ a b => a ^^^ b) (fun _ _ _ => rfl) (fun _ _ => rfl)
  case andn =>
    exact computes_logic2 (fun x a b => a &&& complement x b) (fun _ _ _ => rfl)
      (fun x ws => by rw [and_complement (aU_lt x ws) (bU_lt x ws)])
  case not =>
    exact computes_logic1 complement (fun _ _ _ => rfl) (fun x ws => asPushed_complement (opU_lt x ws 0))
end Sys2Proof.Machine
end

section
/-! Predicates.lean: the flags, the predicates, and the instructions that write them (R129, R138, R273). -/

namespace Sys2Proof.Machine

open Sys2Proof

/-! ## Flags and predicates -/

/-- A flag that is set changes no other bit. -/
theorem setFld_one (w : Word) (i : Nat) : setFld w i 1 1 = w ||| fldMask i 1 := by
  ext j
  change ((w &&& ~~~ fldMask i 1) ||| fldMask i 1)[j] = _
  simp only [BitVec.getElem_or, BitVec.getElem_and, BitVec.getElem_not]
  cases w[j] <;> cases (fldMask i 1)[j] <;> rfl

theorem Bank.setOv_eq (k : Bank) : k.setOv = { k with flags := k.flags ||| 1 } := by rw [Bank.setOv, setFld_one]; rfl

theorem Bank.setDz_eq (k : Bank) : k.setDz = { k with flags := k.flags ||| 4 } := by rw [Bank.setDz, setFld_one]; rfl

theorem Bank.mp_eq (k : Bank) : k.mp = k.flags.toNat / 64 % 16 := by rw [Bank.mp, fld, Nat.shiftRight_eq_div_pow]; rfl

theorem getLsbD_one_shiftLeft (n m : BitVec 3) : (1#8 <<< n.toNat).getLsbD m.toNat = decide (n = m) := by
  decide +revert

/-- A write of Pn changes that predicate alone, and a write of P0 nothing. -/
theorem Bank.getLsbD_setPred (k : Bank) (n m : BitVec 3) (b : Bool) :
    (k.setPred n b).p.getLsbD m.toNat = if n = m ∧ n ≠ 0 then b else k.p.getLsbD m.toNat := by
  unfold Bank.setPred
  by_cases zero : n = 0
  · rw [if_pos zero, if_neg (fun h => h.2 zero)]
  · have low : m.toNat < 8 := m.isLt
    have write : (if b then k.p ||| 1#8 <<< n.toNat else k.p &&& ~~~ (1#8 <<< n.toNat)).getLsbD m.toNat =
        if n = m then b else k.p.getLsbD m.toNat := by
      cases b <;> simp only [if_true, if_false, Bool.false_eq_true, BitVec.getLsbD_or, BitVec.getLsbD_and, BitVec.getLsbD_not,
        getLsbD_one_shiftLeft, low] <;> split <;> simp [*]
    rw [if_neg zero]
    refine write.trans ?_
    simp only [ne_eq, zero, not_false_eq_true, and_true]

theorem Bank.setPred_frame (k : Bank) (n : BitVec 3) (b : Bool) : { k.setPred n b with p := k.p } = k := by
  unfold Bank.setPred
  split <;> rfl

/-! ## The instructions -/

section
variable {mk : CellId → Enc → Instr} {index : Nat} (p : BitVec 3)

theorem computes_compare (op : Enc → Nat → Nat → Bool) {value : Enc → List Word → Bool}
    (runs : ∀ c x s, exec (mk c x) s = .next ((s.decode c.toNat index).compare c.toNat x p (op x)))
    (same : ∀ x ws, op x (aU x ws) (bU x ws) = value x ws) :
    Computes mk (compareForm p) (fun x ws k => .ok [] (k.setPred p (value x ws))) := by
  refine computes_calc runs (fun _ => rfl) (fun x ws k => ?_) (fun _ _ _ => trivial)
  simp only [pairOf_eq, same]

theorem computes_predicate {syllables : Nat} (op : Bool → Bool → Bool)
    (runs : ∀ c x s, exec (mk c x) s = .next ((s.decode c.toNat index).predicate c.toNat x syllables p op)) :
    Computes mk (predForm syllables 1 0 p)
      (fun _ ws k => .ok [] (k.setPred p (op (k.p.getLsbD p.toNat) ((ws.getD 0 0).getLsbD 0)))) :=
  computes_calc runs (fun _ => rfl) (fun _ _ _ => rfl) (fun _ _ _ => trivial)

end

/-- Settles O6: the flags as fields of one bit, a predicate by the bit that a write changes, and each instruction as the shared
operation it runs. -/
theorem flagsAndComparisons : Obligations.FlagsAndComparisons := by
  unfold Obligations.FlagsAndComparisons
  refine ⟨⟨fun k => ⟨rfl, rfl, k.setOv_eq, k.setDz_eq, k.mp_eq⟩, fun k n m b => ⟨k.getLsbD_setPred n m b, k.setPred_frame n b⟩⟩,
    fun p => ⟨?ceq, ?clt, ?cltu, ?pget, ?pset, ?pand, ?por⟩⟩
  case ceq => exact computes_compare p (fun _ a b => decide (a = b)) (fun _ _ _ => rfl) (fun _ _ => rfl)
  case clt =>
    exact computes_compare p (fun x a b => decide (asSigned x a < asSigned x b)) (fun _ _ _ => rfl)
      (fun x ws => by rw [asSigned_aU, asSigned_bU])
  case cltu => exact computes_compare p (fun _ a b => decide (a < b)) (fun _ _ _ => rfl) (fun _ _ => rfl)
  case pget =>
    refine computes_calc (fun _ _ _ => rfl) (fun _ => rfl) (fun _ _ k => ?_) (fun _ _ _ => trivial)
    cases k.p.getLsbD p.toNat <;> rfl
  case pset => exact computes_predicate p (fun _ b => b) (fun _ _ _ => rfl)
  case pand => exact computes_predicate p (fun a b => a && b) (fun _ _ _ => rfl)
  case por => exact computes_predicate p (fun a b => a || b) (fun _ _ _ => rfl)

end Sys2Proof.Machine
end

section
/-! Accumulators.lean: the accumulators and their rounded read (R139, R140). -/

namespace Sys2Proof.Machine

open Sys2Proof

@[simp] theorem signedLo_acc : signedLo 80 = -2 ^ 79 := rfl

@[simp] theorem signedHi_acc : signedHi 80 = 2 ^ 79 - 1 := rfl

/-- An accumulator takes a result as R130 forms it for S80. -/
theorem accumulated_eq_formed (x : Enc) (k : Bank) (one : Bool) (v : Int) :
    accumulated x k one v =
      formed (fun a _ k => .ok [] (k.setAcc one (BitVec.ofInt 80 a))) (narrow k x.sat (-2 ^ 79) (2 ^ 79 - 1) 80 v) := by
  rw [formed_narrow (by decide) (fun _ _ _ _ same => by rw [ofInt_congr same])]
  rfl

theorem addressless_accumulated (x : Enc) (k : Bank) (one : Bool) (v : Int) : (accumulated x k one v).Addressless :=
  .ite trivial (.ite (by decide : (4 : Nat) ≠ 2) trivial)

/-- rnd(acc, n) of R140: from n = 80 on, half of 2^n is no less than the magnitude of any accumulator, so that the quotient is 0. -/
theorem roundAcc_eq_rounded (a : Acc) (n : Nat) : roundAcc a.toInt n = rounded a.toInt n := by
  rw [roundAcc, rounded]
  by_cases zero : n = 0
  · rw [if_pos zero, if_pos zero]
  · rw [if_neg zero, if_neg zero]
    split
    · have half : (2 : Int) ^ 79 ≤ 2 ^ (n - 1) := pow_le_pow_right₀ (by decide) (by omega)
      have whole : (2 : Int) ^ n = 2 * 2 ^ (n - 1) := by rw [← pow_succ', Nat.sub_add_cancel (by omega)]
      have low : -2 ^ 79 ≤ a.toInt := a.le_toInt
      have high : a.toInt < 2 ^ 79 := a.toInt_lt
      rw [Int.ediv_eq_zero_of_lt (by omega) (by omega)]
    · push_cast
      rfl

section
variable {mk : CellId → Enc → Instr} {index : Nat}

theorem computes_mac {syllables : Nat} (one : Bool) (sign : Int)
    (runs : ∀ c x s, exec (mk c x) s = .next ((s.decode c.toNat index).mac c.toNat x syllables one sign)) :
    Computes mk (fun _ => { op := syllables, sat := true, pops := 2 })
      (fun x ws k => accumulated x k one ((k.acc one).toInt + sign * ((ws.getD 1 0).toInt * (ws.getD 0 0).toInt))) := by
  refine computes_calc runs (fun _ => rfl) (fun x ws k => ?_) (fun _ _ _ => addressless_accumulated ..)
  simp only [sw, signedLo_acc, signedHi_acc, accumulated_eq_formed]
  generalize narrow k x.sat (-2 ^ 79) (2 ^ 79 - 1) 80 _ = r
  cases r <;> rfl

theorem computes_accRead (one : Bool)
    (runs : ∀ c x s, exec (mk c x) s = .next ((s.decode c.toNat index).accRead c.toNat x one)) :
    Computes mk
      (fun x => { op := 2, exts := [0, 1, 2], wide := true, sat := true, cyc := 2,
                  pops := if x.ext = [] then 1 else 0, pushes := wordsOf x })
      (fun x ws k => rangedS x k (rounded (k.acc one).toInt (countOf x ws))) := by
  refine computes_calc runs (fun _ => rfl) (fun x ws k => ?_) (fun _ _ _ => addressless_rangedS ..)
  have count : immAt x 36 % 128 = immU x % 128 := by rw [immAt_mod, Nat.mod_mod_of_dvd _ (by decide)]
  simp only [pushResult_signed, roundAcc_eq_rounded, countOf, count]

end

/-- Settles O8: a sum through the narrowing to S80, a read through the rounding and the narrowing to the result's width. -/
theorem accumulators : Obligations.Accumulators := by
  unfold Obligations.Accumulators
  refine ⟨?mac0, ?mac1, ?msu0, ?msu1, ?accclr0, ?accclr1, ?accrd0, ?accrd1⟩
  case mac0 => simpa [Bank.acc] using computes_mac (mk := .mac0) false 1 (fun _ _ _ => rfl)
  case mac1 => simpa [Bank.acc] using computes_mac (mk := .mac1) true 1 (fun _ _ _ => rfl)
  case msu0 => simpa [Bank.acc, sub_eq_add_neg] using computes_mac (mk := .msu0) false (-1) (fun _ _ _ => rfl)
  case msu1 => simpa [Bank.acc, sub_eq_add_neg] using computes_mac (mk := .msu1) true (-1) (fun _ _ _ => rfl)
  case accclr0 => exact computes_calc (fun _ _ _ => rfl) (fun _ => rfl) (fun _ _ _ => rfl) (fun _ _ _ => trivial)
  case accclr1 => exact computes_calc (fun _ _ _ => rfl) (fun _ => rfl) (fun _ _ _ => rfl) (fun _ _ _ => trivial)
  case accrd0 => exact computes_accRead false (fun _ _ _ => rfl)
  case accrd1 => exact computes_accRead true (fun _ _ _ => rfl)

end Sys2Proof.Machine
end

section
/-! Fields.lean: words given bit by bit, bit fields and the permutation of nonets (R136, R137). -/

namespace Sys2Proof.Machine

open Sys2Proof

/-! ## Bits of a sum of digits -/

section
variable {b : Nat} {f : Nat → Nat}

theorem sum_digits_lt (hf : ∀ j, f j < 2 ^ b) : ∀ n, ((List.range n).map (fun j => f j * 2 ^ (b * j))).sum < 2 ^ (b * n)
  | 0 => by simp
  | n + 1 => by
    have below := sum_digits_lt hf n
    have top : f n * 2 ^ (b * n) ≤ (2 ^ b - 1) * 2 ^ (b * n) := Nat.mul_le_mul_right _ (Nat.le_sub_one_of_lt (hf n))
    rw [Nat.sub_mul, Nat.one_mul] at top
    have room : 2 ^ (b * n) ≤ 2 ^ b * 2 ^ (b * n) := Nat.le_mul_of_pos_left _ (Nat.two_pow_pos b)
    simp only [List.range_succ, List.map_append, List.map_cons, List.map_nil, List.sum_append, List.sum_cons, List.sum_nil]
    rw [Nat.mul_succ, Nat.pow_add, Nat.mul_comm (2 ^ (b * n))]
    omega

/-- Bit `i` of a number is a bit of its digit `i / b` to the base 2^b. -/
theorem testBit_sum_digits (hb : 0 < b) (hf : ∀ j, f j < 2 ^ b) (i : Nat) : ∀ n,
    ((List.range n).map (fun j => f j * 2 ^ (b * j))).sum.testBit i = (decide (i < b * n) && (f (i / b)).testBit (i % b))
  | 0 => by simp
  | n + 1 => by
    have low := testBit_sum_digits hb hf i n
    simp only [List.range_succ, List.map_append, List.map_cons, List.map_nil, List.sum_append, List.sum_cons, List.sum_nil,
      Nat.add_zero]
    rw [Nat.add_comm, Nat.mul_comm (f n), Nat.testBit_two_pow_mul_add _ (sum_digits_lt hf n), low, Nat.mul_succ]
    rcases Nat.lt_or_ge i (b * n) with before | from_n
    · simp [before, Nat.lt_add_right b before]
    · rw [if_neg (Nat.not_lt.mpr from_n)]
      rcases Nat.lt_or_ge i (b * n + b) with inside | beyond
      · have place : i = b * n + (i - b * n) := by omega
        have quotient : i / b = n := by rw [place, Nat.mul_add_div hb, Nat.div_eq_of_lt (by omega), Nat.add_zero]
        have rest : i % b = i - b * n := by rw [← quotient]; exact Nat.mod_eq_sub ..
        simp [inside, quotient, rest]
      · have clear : (f n).testBit (i - b * n) = false :=
          Nat.testBit_lt_two_pow ((hf n).trans_le (Nat.pow_le_pow_right (by decide) (by omega)))
        simp [clear, Nat.not_lt.mpr beyond]

end

theorem getLsbD_wordOf (f : Nat → Bool) (i : Nat) : (wordOf f).getLsbD i = (decide (i < 36) && f i) := by
  have digits : (fun i => if f i then 2 ^ i else 0) = fun i => (f i).toNat * 2 ^ (1 * i) := by
    funext i
    cases f i <;> simp
  rw [wordOf, digits, BitVec.getLsbD_ofNat, testBit_sum_digits (by decide) (fun j => Bool.toNat_lt (f j))]
  cases h : f i <;> simp [h, Nat.div_one, Nat.mod_one]

/-- A word is the one given bit by bit when its bits agree. -/
theorem ofNat_eq_wordOf {v : Nat} {f : Nat → Bool} (h : ∀ i < 36, v.testBit i = f i) : BitVec.ofNat 36 v = wordOf f := by
  apply BitVec.eq_of_getLsbD_eq
  intro i hi
  rw [getLsbD_wordOf, BitVec.getLsbD_ofNat, h i hi]

theorem testBit_fld (w : Word) (lo len i : Nat) : (fld w lo len).testBit i = (decide (i < len) && w.getLsbD (lo + i)) := by
  rw [fld, Nat.testBit_mod_two_pow, Nat.testBit_shiftRight]
  rfl

/-! ## Bit fields (R136) -/

/-- The mask of a field, cut at bit 35. -/
theorem ofNat_cutMask (p w : Nat) : BitVec.ofNat 36 (cutMask p w) = fldMask p w := by
  apply BitVec.eq_of_toNat_eq
  rw [fldMask, BitVec.toNat_shiftLeft, BitVec.toNat_ofNat, BitVec.toNat_ofNat, cutMask, Nat.mod_mod, Nat.shiftLeft_eq, Nat.mod_mul_mod]

theorem testBit_insOp (d v p w i : Nat) (hi : i < 36) :
    (insOp d v p w).testBit i = if p ≤ i ∧ i < p + w then v.testBit (i - p) else d.testBit i := by
  change BitVec.getLsbD _ i = _
  simp only [BitVec.getLsbD_or, BitVec.getLsbD_and, BitVec.getLsbD_not, BitVec.getLsbD_ofNat, ofNat_cutMask, getLsbD_fldMask,
    Nat.testBit_mul_two_pow, hi]
  by_cases inside : p ≤ i ∧ i < p + w
  · simp [inside]
  · rw [if_neg inside]
    rcases not_and_or.mp inside with below | above
    · simp [below]
    · simp [above]

theorem testBit_extOp (a : Word) (p w i : Nat) (hi : i < 36) :
    (extOp a.toNat p w).testBit i = (decide (i < w) && a.getLsbD (p + i)) := by
  rw [extOp, Nat.testBit_mod_two_pow, Nat.testBit_div_two_pow, Nat.add_comm i p]
  simp [hi]
  rfl

/-- EXTS repeats the field's top bit above it. -/
theorem testBit_extsOp (a : Word) (p w i : Nat) (hi : i < 36) :
    (extsOp a.toNat p w).testBit i =
      if 1 ≤ w ∧ w ≤ 36 then a.getLsbD (p + min i (w - 1)) else decide (i < w) && a.getLsbD (p + i) := by
  rw [extsOp]
  split
  · rename_i width
    have extended : wrapNat (sextNat (extOp a.toNat p w) w) 36 = ((BitVec.ofNat w (extOp a.toNat p w)).signExtend 36).toNat := by
      rw [sextNat_eq_toInt, wrapNat_eq_toNat, BitVec.signExtend]
    have bits (j : Nat) (hj : j < w) : (BitVec.ofNat w (extOp a.toNat p w)).getLsbD j = a.getLsbD (p + j) := by
      rw [BitVec.getLsbD_ofNat, testBit_extOp a p w j (by omega), decide_eq_true hj, Bool.true_and, Bool.true_and]
    rw [extended]
    change BitVec.getLsbD _ i = _
    rw [BitVec.getLsbD_signExtend, BitVec.msb_eq_getLsbD_last]
    split
    · rename_i inside
      rw [bits i inside, Nat.min_eq_left (by omega)]
      simp [hi]
    · rw [bits (w - 1) (by omega), Nat.min_eq_right (by omega)]
      simp [hi]
  · exact testBit_extOp a p w i hi

theorem fieldOf_eq (x : Enc) (ws : List Word) : fieldOf x ws = (posOf x ws, lenOf x ws, if x.ext = [] then ws.drop 2 else ws) := by
  rw [fieldOf, posOf, lenOf]
  split
  · rfl
  · have position : immAt x 36 / 64 % 64 = immU x / 64 % 64 := by rw [immAt_mod]; omega
    have length : immAt x 36 % 64 = immU x % 64 := by rw [immAt_mod]; omega
    rw [position, length]

theorem getD_rest (x : Enc) (ws : List Word) (i : Nat) : (if x.ext = [] then ws.drop 2 else ws).getD i 0 = besides x ws i := by
  rw [besides]
  split
  · simp [List.getD_eq_getElem?_getD]
  · rfl

section
variable {mk : CellId → Enc → Instr} {index : Nat}

/-- An instruction on a bit field and the operands below it, given bit by bit. -/
theorem computes_bitField {n : Nat} (op : Word → Word → Nat → Nat → Nat) {f : Word → Word → Nat → Nat → Nat → Bool}
    (runs : ∀ c x s, exec (mk c x) s =
      .next ((s.decode c.toNat index).bitField c.toNat x n (fun l p w => op (l.getD 0 0) (l.getD 1 0) p w)))
    (bits : ∀ a d p w, ∀ i < 36, (op a d p w).testBit i = f a d p w i) :
    Computes mk (fieldForm n) (fun x ws k => .ok [wordOf (f (besides x ws 0) (besides x ws 1) (posOf x ws) (lenOf x ws))] k) := by
  refine computes_calc runs (fun _ => rfl) (fun x ws k => ?_) (fun _ _ _ => trivial)
  simp only [fieldOf_eq, getD_rest, ofNat_eq_wordOf (bits _ _ _ _)]

end

/-! ## Nonets (R137) -/

theorem npermOp_eq (a : Word) (sel : Nat) :
    npermOp a sel = wordOf (fun i => a.getLsbD (9 * (sel / 4 ^ (i / 9) % 4) + i % 9)) := by
  have nonet (j : Nat) : fld a (9 * (sel / 4 ^ j % 4)) 9 < 2 ^ 9 := Nat.mod_lt _ (by decide)
  rw [npermOp, ← List.sum_eq_foldl]
  apply ofNat_eq_wordOf
  intro i hi
  rw [testBit_sum_digits (by decide) nonet, testBit_fld]
  simp [hi, Nat.mod_lt]

/-- A selector's eight bits alone choose the nonets. -/
theorem npermOp_mod (a : Word) (sel : Nat) : npermOp a (sel % 256) = npermOp a sel := by
  have digits (j : Nat) (hj : j ∈ List.range 4) : sel % 256 / 4 ^ j % 4 = sel / 4 ^ j % 4 := by
    have : j = 0 ∨ j = 1 ∨ j = 2 ∨ j = 3 := by have := List.mem_range.mp hj; omega
    rcases this with rfl | rfl | rfl | rfl <;> omega
  unfold npermOp
  rw [List.map_congr_left (fun j hj => by rw [digits j hj])]

/-- Settles O5: each operation bit by bit, over the field that the operands or the immediate name. -/
theorem bitFields : Obligations.BitFields := by
  unfold Obligations.BitFields
  refine ⟨?ins, ?ext, ?exts, ?nperm⟩
  case ins =>
    exact computes_bitField (fun v d p w => insOp d.toNat v.toNat p w)
      (f := fun v d p w i => if p ≤ i ∧ i < p + w then v.getLsbD (i - p) else d.getLsbD i)
      (fun _ _ _ => rfl) (fun v d => testBit_insOp d.toNat v.toNat)
  case ext =>
    exact computes_bitField (fun a _ p w => extOp a.toNat p w) (f := fun a _ p w i => decide (i < w) && a.getLsbD (p + i))
      (fun _ _ _ => rfl) (fun a _ => testBit_extOp a)
  case exts =>
    exact computes_bitField (fun a _ p w => extsOp a.toNat p w)
      (f := fun a _ p w i => if 1 ≤ w ∧ w ≤ 36 then a.getLsbD (p + min i (w - 1)) else decide (i < w) && a.getLsbD (p + i))
      (fun _ _ _ => rfl) (fun a _ => testBit_extsOp a)
  case nperm =>
    refine computes_calc (fun _ _ _ => rfl) (fun _ => rfl) (fun x ws k => ?_) (fun _ _ _ => trivial)
    have low : immAt x 36 % 256 = immU x % 256 := by rw [immAt_mod, Nat.mod_mod_of_dvd _ (by decide)]
    simp only [low, npermOp_mod, ← npermOp_eq]
    split <;> rfl

end Sys2Proof.Machine
end

section
/-! Points.lean: point words with the quality of their operands, and integer point arithmetic (R67, R80, R81, R131, R145, R148). -/

namespace Sys2Proof.Machine

open Sys2Proof

/-! ## Quality (R67, R80) -/

theorem rank_le (v : Nat) : rank v ≤ 2 := by
  unfold rank
  split
  · decide
  · split <;> decide

theorem rank_codeOf {n : Nat} (h : n ≤ 2) : rank (codeOf n) = n := by decide +revert

theorem codeOf_eq_getD {n : Nat} (h : n ≤ 2) : codeOf n = ([0, 3, 1] : List Nat).getD n 0 := by decide +revert

theorem rank_worst (a b : Nat) : rank (worst a b) = max (rank a) (rank b) := rank_codeOf (max_le (rank_le a) (rank_le b))

theorem pwVal_eq (w : Word) : pwVal w = w.toNat / 2 ^ 34 := by
  rw [pwVal, fld, Nat.shiftRight_eq_div_pow]
  omega

theorem fld_one (w : Word) (i : Nat) : fld w i 1 = b2n (w.getLsbD i) := by
  rw [fld, Nat.shiftRight_eq_div_pow, BitVec.getLsbD, Nat.testBit_eq_decide_div_mod_eq]
  cases Nat.mod_two_eq_zero_or_one (w.toNat / 2 ^ i) with
  | inl zero => simp [zero, b2n]
  | inr one => simp [one, b2n]

/-- The worst validity of the operands, in the order of R67. -/
theorem rank_foldl_worst (ws : List Word) (least : Nat) :
    rank (ws.foldl (fun v w => worst v (pwVal w)) least) = (ws.map (fun w => rank (w.toNat / 2 ^ 34))).foldl max (rank least) := by
  rw [List.foldl_map]
  refine (List.foldl_hom rank fun v w => ?_).symm
  rw [rank_worst, pwVal_eq]

/-- A mark of the operands is that of any of them. -/
theorem foldl_max_fld (ws : List Word) (i : Nat) (b : Bool) :
    ws.foldl (fun v w => max v (fld w i 1)) (b2n b) = b2n (b || ws.any (fun w => w.getLsbD i)) := by
  induction ws generalizing b with
  | nil => simp
  | cons w ws ih =>
    have join : max (b2n b) (fld w i 1) = b2n (b || w.getLsbD i) := by
      rw [fld_one]
      cases b <;> cases w.getLsbD i <;> rfl
    rw [List.foldl_cons, join, ih, List.any_cons, Bool.or_assoc]

theorem b2n_lt (b : Bool) : b2n b < 2 := by cases b <;> decide

/-! ## Point words (R63) -/

theorem pointWord_congr {a b : Int} (ws : List Word) (least : Nat) (h : a % 2 ^ 32 = b % 2 ^ 32) :
    pointWord a ws least = pointWord b ws least := by rw [pointWord, pointWord, h]

/-- A word of VALUE, SUB, TST and VAL, set one above the other, is the sum of these fields. -/
theorem setFld_point {v sub tst val : Nat} (hv : v < 2 ^ 32) (hsub : sub < 2) (htst : tst < 2) (hval : val < 4) :
    setFld (setFld (setFld (BitVec.ofNat 36 v) 32 1 sub) 33 1 tst) 34 2 val =
      BitVec.ofNat 36 (v + 2 ^ 32 * (sub + 2 * tst + 4 * val)) := by
  apply BitVec.eq_of_toNat_eq
  have value : (BitVec.ofNat 36 v).toNat = v := by rw [BitVec.toNat_ofNat]; omega
  have withSub := toNat_setFld_of_lt (lo := 32) (len := 1) (value.symm ▸ hv) (by decide) hsub
  have withTst := toNat_setFld_of_lt (lo := 33) (len := 1) (by rw [withSub]; omega) (by decide) htst
  have withVal := toNat_setFld_of_lt (lo := 34) (len := 2) (by rw [withTst]; omega) (by decide) hval
  rw [withVal, withTst, withSub, value, BitVec.toNat_ofNat]
  omega

/-- A result with VALUE and the quality of its operands. -/
theorem pwResult_eq_pointWord (v : Int) (ws : List Word) (least : Nat) :
    pwResult (wrapNat v 32) ws least = pointWord v ws (rank least) := by
  have validity : worst (ws.foldl (fun v w => worst v (pwVal w)) least) 0 =
      ([0, 3, 1] : List Nat).getD ((ws.map (fun w => rank (w.toNat / 2 ^ 34))).foldl max (rank least)) 0 := by
    rw [← rank_foldl_worst, ← codeOf_eq_getD (rank_le _)]
    exact congrArg codeOf (Nat.max_zero _)
  have small : wrapNat v 32 % 2 ^ 32 < 2 ^ 32 := Nat.mod_lt _ (by decide)
  have value : ((wrapNat v 32 % 2 ^ 32 : Nat) : Int) = v % 2 ^ 32 := by rw [wrapNat]; omega
  have mark (i : Nat) : ws.foldl (fun v w => max v (fld w i 1)) 0 = b2n (ws.any (fun w => w.getLsbD i)) := foldl_max_fld ws i false
  have code := Nat.lt_succ_of_le (worst_le (ws.foldl (fun v w => worst v (pwVal w)) least) 0)
  rw [pwResult, pointWord, ← value]
  dsimp only [pwTst, pwSub]
  rw [mark, mark, setFld_point small (b2n_lt _) (b2n_lt _) code, validity, ← BitVec.ofInt_natCast]
  push_cast
  rfl

theorem pwInt_eq_valueS (w : Word) : pwInt w = valueS w := by
  rw [pwInt, pwBits, sextNat_eq_toInt, valueS]
  congr 1
  apply BitVec.eq_of_toNat_eq
  simp [fld]

theorem wrapNat_valueS (w : Word) : wrapNat (valueS w) 32 = pwBits w := by
  rw [wrapNat_eq_toNat, valueS, BitVec.ofInt_toInt, pwBits, fld]
  simp

/-! ## Integer point arithmetic (R131, R145, R148) -/

theorem addressless_pointRanged (x : Enc) (k : Bank) (ws : List Word) (v : Int) : (pointRanged x k ws v).Addressless :=
  .ite trivial (.ite (by decide : (4 : Nat) ≠ 2) trivial)

@[simp] theorem signedLo_value : signedLo 32 = -2 ^ 31 := rfl

@[simp] theorem signedHi_value : signedHi 32 = 2 ^ 31 - 1 := rfl

/-- VALUE is formed as S32, and an overflow leaves it questionable at best. -/
theorem pointRanged_eq_formed (x : Enc) (k : Bank) (ws : List Word) (v : Int) :
    pointRanged x k ws v =
      formed (fun a past k => .ok [pwResult (wrapNat a 32) ws (if past then questionable else good)] k)
        (narrow k x.sat (-2 ^ 31) (2 ^ 31 - 1) 32 v) := by
  simp only [pwResult_eq_pointWord]
  rw [formed_narrow (by decide) (fun _ _ past _ same => by rw [pointWord_congr ws _ same])]
  rfl

section
variable {mk : CellId → Enc → Instr} {index : Nat}

theorem computes_pointInt {n cyc : Nat} (op : List Int → Int) {value : List Word → Int}
    (runs : ∀ c x s, exec (mk c x) s = .next ((s.decode c.toNat index).pointInt c.toNat x n cyc op))
    (same : ∀ ws : List Word, op (ws.map valueS) = value ws) :
    Computes mk (pointForm n cyc true) (fun x ws k => pointRanged x k ws (value ws)) := by
  refine computes_calc runs (fun _ => rfl) (fun x ws k => ?_) (fun _ _ _ => addressless_pointRanged ..)
  simp only [funext pwInt_eq_valueS, same, signedLo_value, signedHi_value, pointRanged_eq_formed]
  generalize narrow k x.sat (-2 ^ 31) (2 ^ 31 - 1) 32 _ = r
  cases r <;> rfl

/-- PDIV.I: a divisor 0 gives the bound of the dividend's sign, invalid; another the quotient. -/
theorem computes_pointDiv
    (runs : ∀ c x s, exec (mk c x) s = .next ((s.decode c.toNat index).pointDiv c.toNat x)) :
    Computes mk (fun x => { pointForm 2 40 true x with fixed := true }) (fun x ws k =>
      if valueS (ws.getD 0 0) = 0 then
        if k.dze then .flt 3 1 else .ok [pointWord (if valueS (ws.getD 1 0) < 0 then -2 ^ 31 else 2 ^ 31 - 1) ws 2] k.setDz
      else pointRanged x k ws ((valueS (ws.getD 1 0)).tdiv (valueS (ws.getD 0 0)))) := by
  refine computes_calc runs (fun _ => rfl) (fun x ws k => ?_) (fun _ _ _ => ?_)
  · simp only [pwInt_eq_valueS, signedLo_value, signedHi_value, pointRanged_eq_formed, divide]
    by_cases zero : valueS (ws.getD 0 0) = 0
    · rw [if_pos zero, if_pos zero]
      cases k.dze with
      | true => rfl
      | false =>
        simp only [Bool.false_eq_true, if_false, if_true, pwResult_eq_pointWord]
        rfl
    · rw [if_neg zero, if_neg zero]
      generalize narrow k x.sat (-2 ^ 31) (2 ^ 31 - 1) 32 _ = r
      cases r <;> rfl
  · exact .ite (.ite (by decide : (3 : Nat) ≠ 2) trivial) (addressless_pointRanged ..)

end

theorem getD_map_valueS (ws : List Word) (i : Nat) : (ws.map valueS).getD i 0 = valueS (ws.getD i 0) := List.getD_map ws 0 valueS

/-- Settles O10: the sum, difference, product and negative as R130 forms them, the quotient also with the divisor 0, each as a point
word with the quality of its operands. -/
theorem pointArithmetic : Obligations.PointArithmetic := by
  unfold Obligations.PointArithmetic
  simp only [← getD_map_valueS]
  refine ⟨?padd, ?psub, ?pmul, ?pdiv, ?pneg, ?pqmrg⟩
  case padd => exact computes_pointInt (fun v => v.getD 1 0 + v.getD 0 0) (fun _ _ _ => rfl) (fun _ => rfl)
  case psub => exact computes_pointInt (fun v => v.getD 1 0 - v.getD 0 0) (fun _ _ _ => rfl) (fun _ => rfl)
  case pmul => exact computes_pointInt (fun v => v.getD 1 0 * v.getD 0 0) (fun _ _ _ => rfl) (fun _ => rfl)
  case pdiv => simpa only [getD_map_valueS] using computes_pointDiv (mk := .pdivI) (fun _ _ _ => rfl)
  case pneg => exact computes_pointInt (fun v => - v.getD 0 0) (fun _ _ _ => rfl) (fun _ => rfl)
  case pqmrg =>
    refine computes_calc (fun _ _ _ => rfl) (fun _ => rfl) (fun x ws k => ?_) (fun _ _ _ => trivial)
    rw [getD_map_valueS, ← wrapNat_valueS, pwResult_eq_pointWord]
    rfl

end Sys2Proof.Machine
end

section
/-! Shuffles.lean: the stack operations (R99, R132, R133). -/

namespace Sys2Proof.Machine

open Sys2Proof

/-- Only a form that admits WIDE is ready under it (R96). -/
theorem Form.not_wide_of_fault1 {f : Form} {x : Enc} (formed : f.fault1 x = none) (words : f.wide = false) : x.wide = false := by
  cases wide : x.wide with
  | false => rfl
  | true =>
    have refused : f.fault1 x ≠ none := by
      unfold Form.fault1
      dsimp only
      split
      · simp
      · split <;> simp [wide, words]
    exact absurd formed refused

/-! ## Items read from the stack -/

/-- The entries of item `i` (R116). -/
def entriesOf (x : Enc) (i : Nat) : List Nat := if x.wide then [2 * i, 2 * i + 1] else [i]

section
variable {x : Enc} {e : Nat → Word}

theorem itemAt_append_zero (i : Nat) (rest : List Word) :
    itemAt x ((entriesOf x i).map e ++ rest) 0 = itemAt x ((entriesOf x i).map e) 0 := by
  cases wide : x.wide <;> simp [entriesOf, itemAt, wide]

theorem itemAt_append_succ (i j : Nat) (rest : List Word) :
    itemAt x ((entriesOf x i).map e ++ rest) (j + 1) = itemAt x rest j := by
  cases wide : x.wide <;> simp [entriesOf, itemAt, wide, Nat.mul_add]

/-- Items are read in the order in which their entries are. -/
theorem map_itemAt (reads : List Nat) :
    (List.range reads.length).map (itemAt x ((reads.flatMap (entriesOf x)).map e)) =
      reads.map (fun i => itemAt x ((entriesOf x i).map e) 0) := by
  induction reads with
  | nil => simp
  | cons i reads ih =>
    simp only [List.length_cons, List.range_succ_eq_map, List.map_cons, List.map_map, List.flatMap_cons, List.map_append,
      itemAt_append_zero, Function.comp_def, Nat.succ_eq_add_one, itemAt_append_succ, ih]

theorem itemAt_entriesOf {i n : Nat} (inside : (i + 1) * itemOf x ≤ n) :
    itemAt x ((entriesOf x i).map e) 0 = opU x ((List.range n).map e) i := by
  have entry (j : Nat) (hj : j < n) : ((List.range n).map e).getD j 0 = e j := by simp [List.getD_eq_getElem?_getD, hj]
  rw [← itemAt_eq_opU]
  cases wide : x.wide with
  | true =>
    simp only [itemOf, wide, if_true] at inside
    simp only [itemAt, entriesOf, wide, if_true, entry (2 * i) (by omega), entry (2 * i + 1) (by omega)]
    rfl
  | false =>
    simp only [itemOf, wide, if_false, Bool.false_eq_true] at inside
    simp only [itemAt, entriesOf, wide, if_false, Bool.false_eq_true, entry i (by omega)]
    rfl

end

theorem asPushed_opU {x : Enc} (words : x.wide = false) (ws : List Word) (i : Nat) : asPushed x (opU x ws i) = [ws.getD i 0] := by
  simp [asPushed, opU, words]

/-! ## Instructions that read items and push items -/

/-- A stack operation that is ready, with its operands in the window, drops its items and pushes those it made of what it read. -/
theorem State.shuffle_ready {s : State} {c : Nat} {x : Enc} {f : Form} {reads : List Nat} {drop : Nat} {g : List Nat → List Nat}
    (ready : s.Ready c x f) (plain : f.branch = false) (fits : s.Fits c f) (inside : ∀ i ∈ reads, (i + 1) * itemOf x ≤ f.pops) :
    s.shuffle c x f reads drop g = s.after c x f
      (((s.cur c).popN (drop * itemOf x)).pushAll ((g (reads.map (opU x (s.top c f.pops)))).flatMap (fun v : Nat => asPushed x v))) := by
  have items : (List.range reads.length).map (itemAt x ((reads.flatMap (entriesOf x)).map (fun i => (s.cur c).dget ((s.cur c).slot i)))) =
      reads.map (opU x (s.top c f.pops)) := by
    rw [map_itemAt]
    exact List.map_congr_left (fun i hi => itemAt_entriesOf (inside i hi))
  refine State.runInstr_ok ready plain fits (fun _ => State.calcStep_ok fits ?_)
  rw [← items]
  simp only [← pushItem_eq_asPushed]
  rfl

section
variable {mk : CellId → Enc → Instr} {index n m : Nat}

theorem computes_shuffle (reads : List Nat) (g : List Nat → List Nat)
    (runs : ∀ c x s, exec (mk c x) s = .next ((s.decode c.toNat index).shuffle c.toNat x (itemForm x n m) reads n g))
    (inside : ∀ i ∈ reads, i < n) :
    Computes mk (wideForm n m) (fun x ws k => .ok ((g (reads.map (opU x ws))).flatMap (fun v : Nat => asPushed x v)) k) := by
  intro c x s ready fits
  rw [runs, State.decode_listed ready.listed]
  exact congrArg _ (State.shuffle_ready ready rfl fits (fun i hi => Nat.mul_le_mul_right _ (inside i hi)))

/-- One that drops nothing leaves what it reads. -/
theorem leaves_shuffle (reads : List Nat) (g : List Nat → List Nat)
    (runs : ∀ c x s, exec (mk c x) s = .next ((s.decode c.toNat index).shuffle c.toNat x (itemForm x n m) reads 0 g))
    (inside : ∀ i ∈ reads, i < n) :
    Leaves mk (wideForm n m) (fun x ws k => k.pushAll ((g (reads.map (opU x ws))).flatMap (fun v : Nat => asPushed x v))) := by
  intro c x s ready fits
  rw [runs, State.decode_listed ready.listed]
  have done := State.shuffle_ready (drop := 0) (g := g) ready rfl fits (fun i hi => Nat.mul_le_mul_right (itemOf x) (inside i hi))
  rw [Nat.zero_mul] at done
  exact congrArg _ done

/-- One that admits no WIDE moves words. -/
theorem computes_shuffleWords (reads : List Nat)
    (runs : ∀ c x s, exec (mk c x) s =
      .next ((s.decode c.toNat index).shuffle c.toNat x { itemForm x n m with wide := false } reads n (fun v => v)))
    (inside : ∀ i ∈ reads, i < n) :
    Computes mk (wordForm n m) (fun _ ws k => .ok (reads.map (fun i => ws.getD i 0)) k) := by
  intro c x s ready fits
  have words : x.wide = false := Form.not_wide_of_fault1 ready.formed rfl
  have form : { itemForm x n m with wide := false } = wordForm n m x := by simp [itemForm, itemOf, wordForm, words]
  have one : itemOf x = 1 := by simp [itemOf, words]
  have done := State.shuffle_ready (drop := n) (g := fun v => v) ready rfl fits (fun i hi => by rw [one, Nat.mul_one]; exact inside i hi)
  rw [runs, State.decode_listed ready.listed, form, done, one, Nat.mul_one, List.flatMap_map]
  simp only [asPushed_opU words, ← List.map_eq_flatMap]
  rfl

end

/-- PICK leaves its operands and pushes the deepest of them. -/
theorem leaves_pick :
    Leaves .pick (fun x => { exts := [1], bad := decide (encRaw x % 16 = 15), pops := encRaw x % 16 + 1, pushes := encRaw x % 16 + 2 })
      (fun x ws k => k.push (ws.getD (encRaw x % 16) 0)) := by
  intro c x s ready fits
  have deepest : (s.top c.toNat (encRaw x % 16 + 1)).getD (encRaw x % 16) 0 =
      (s.cur c.toNat).dget ((s.cur c.toNat).slot (encRaw x % 16)) := by simp [State.top, List.getD_eq_getElem?_getD]
  change Host.Outcome.next ((s.decode c.toNat 0o110).pick c.toNat x) = _
  rw [State.decode_listed ready.listed, State.pick]
  dsimp only
  rw [deepest]
  exact congrArg _ (State.runInstr_ok ready rfl fits (fun _ => State.calcStep_ok fits rfl))

/-- Settles O2: each operation by the items it reads, the number it drops, and the items it pushes. -/
theorem stackOperations : Obligations.StackOperations := by
  unfold Obligations.StackOperations
  refine ⟨fun short => ?lit, ?nop, ?drop, ?dup, ?second, leaves_pick, ?swap, ?rot, ?nip, ?tuck⟩
  case lit =>
    refine computes_calc (fun _ _ _ => rfl) (fun _ => rfl) (fun x ws k => ?_) (fun _ _ _ => trivial)
    rw [pushItem_wrapNat]
  case nop => exact computes_calc (fun _ _ _ => rfl) (fun _ => rfl) (fun _ _ _ => rfl) (fun _ _ _ => trivial)
  case drop => exact computes_shuffle [] (fun _ => []) (fun _ _ _ => rfl) (by simp)
  case dup => simpa using leaves_shuffle (mk := .dup) (n := 1) [0] (fun v => v) (fun _ _ _ => rfl) (by simp)
  case second => simpa using leaves_shuffle (mk := Instr.over) (n := 2) [1] (fun v => v) (fun _ _ _ => rfl) (by simp)
  case swap => simpa using computes_shuffle (mk := .swap) (n := 2) [0, 1] (fun v => v) (fun _ _ _ => rfl) (by simp)
  case rot => exact computes_shuffleWords [1, 0, 2] (fun _ _ _ => rfl) (by simp)
  case nip => exact computes_shuffleWords [0] (fun _ _ _ => rfl) (by simp)
  case tuck => exact computes_shuffleWords [0, 1, 0] (fun _ _ _ => rfl) (by simp)

end Sys2Proof.Machine
end
